-- ==== Sys2Proof/Word.lean ====
section
/-!
DEFINITION. The plain value types of the CX-288 model: words, bytes, register numbers and the sparse
map type in which memories, registers and per-unit state are held.
-/
namespace Sys2Proof

/-- A 64-bit register value (R7, R96). -/
abbrev Word := BitVec 64

/-- One byte of memory. -/
abbrev Byte := BitVec 8

/-- A physical core number, 0-287 (R49). -/
abbrev CoreId := Fin 288

/-- The number of a general register w0-w31 or of a vector register v0-v31. -/
abbrev RIx := Fin 32

/-- The number of an accumulator q0-q7. -/
abbrev QIx := Fin 8

/-- Sparse data by key. The canonical form (strictly rising keys, no entry equal to what an
unlisted key reads as) is the predicate `SMap.wf`. -/
abbrev SMap (α : Type) := List (Nat × α)

end Sys2Proof
end

