-- ==== Sys2Proof/Machine/Bits.lean ====
section
/-!
DEFINITION. Bit fields of words, sign extension, byte order, and the sparse map operations.
-/
namespace Sys2Proof.Machine

/-- Bits [lo + w − 1 : lo] of `v`, as a number. -/
def bits {n : Nat} (v : BitVec n) (lo w : Nat) : Nat := (v.extractLsb' lo w).toNat

/-- Bit `i` of `v`. -/
def bit {n : Nat} (v : BitVec n) (i : Nat) : Bool := v.getLsbD i

/-- `v` with bits [lo + w − 1 : lo] replaced by the low `w` bits of `x`. -/
def setBits {n : Nat} (v : BitVec n) (lo w x : Nat) : BitVec n :=
  (v &&& ~~~(BitVec.ofNat n ((2 ^ w - 1) * 2 ^ lo))) ||| BitVec.ofNat n ((x % 2 ^ w) * 2 ^ lo)

/-- `v` with bit `i` set to `b`. -/
def setBit {n : Nat} (v : BitVec n) (i : Nat) (b : Bool) : BitVec n := setBits v i 1 b.toNat

/-- The low `w` bits of a number, set in place `lo` of an otherwise zero word. -/
def at_ (x lo w : Nat) : Nat := (x % 2 ^ w) * 2 ^ lo

/-- The smaller of `x + 1` and the largest value of a `w`-bit counter (saturating counters). -/
def satInc (x w : Nat) : Nat := if x + 1 < 2 ^ w then x + 1 else 2 ^ w - 1

/-- Bits `w` of the number `x` from place `lo`. -/
def nbits (x lo w : Nat) : Nat := x / 2 ^ lo % 2 ^ w

/-- Two's complement value of the low `w` bits of `x`. -/
def signedOf (w x : Nat) : Int :=
  if 2 * (x % 2 ^ w) < 2 ^ w then ((x % 2 ^ w : Nat) : Int) else ((x % 2 ^ w : Nat) : Int) - 2 ^ w

/-- The `w`-bit two's complement pattern of an integer. -/
def unsignedOf (w : Nat) (x : Int) : Nat := (x % ((2 ^ w : Nat) : Int)).toNat

/-- `x` limited to the range of a `w`-bit two's complement number. -/
def clampS (w : Nat) (x : Int) : Int :=
  if x < -(2 ^ (w - 1)) then -(2 ^ (w - 1)) else if 2 ^ (w - 1) - 1 < x then 2 ^ (w - 1) - 1 else x

/-- Byte `i` (little-endian) of a value. -/
def byteOf {n : Nat} (v : BitVec n) (i : Nat) : Byte := v.extractLsb' (8 * i) 8

/-- The number that a little-endian list of bytes spells. -/
def leNat : List Byte → Nat
  | [] => 0
  | b :: bs => b.toNat + 256 * leNat bs

/-- The first `n` little-endian bytes of a number. -/
def natLe : Nat → Nat → List Byte
  | 0, _ => []
  | n + 1, x => BitVec.ofNat 8 x :: natLe n (x / 256)

/-- The number that a big-endian list of bytes spells. -/
def beNat (bs : List Byte) : Nat := leNat bs.reverse

/-- The `n` big-endian bytes of a number. -/
def natBe (n x : Nat) : List Byte := (natLe n x).reverse

/-- CRC-32C, one byte (R565): reflected polynomial. -/
def crc32cByte (r : BitVec 32) (x : Byte) : BitVec 32 :=
  (List.range 8).foldl (fun (r : BitVec 32) _ => if bit r 0 then (r >>> 1) ^^^ 0x82F63B78#32 else r >>> 1)
    (r ^^^ x.setWidth 32)

/-- CRC-32C of a byte string (R565). -/
def crc32c (bs : List Byte) : Nat := (~~~(bs.foldl crc32cByte (BitVec.allOnes 32))).toNat

/-- Replace the element at index `i` of a list (unchanged when there is none). -/
def listSet {α : Type} (l : List α) (i : Nat) (a : α) : List α := l.set i a

/-! The sparse map. -/

/-- The value at key `k`; `d k` is what an unlisted key reads as. DESIGN CHOICE, log entry 4. -/
def SMap.get {α : Type} (d : Nat → α) : SMap α → Nat → α
  | [], k => d k
  | (k', v) :: m, k => if k = k' then v else SMap.get d m k

/-- Remove the entries of key `k`. -/
def SMap.erase {α : Type} (m : SMap α) (k : Nat) : SMap α := m.filter (fun e => e.1 != k)

/-- Insert an entry before the first entry of a larger key. -/
def SMap.insert {α : Type} (k : Nat) (v : α) : SMap α → SMap α
  | [] => [(k, v)]
  | (k', v') :: m => if k < k' then (k, v) :: (k', v') :: m else (k', v') :: SMap.insert k v m

/-- Set the value at key `k`; a value equal to what an unlisted key reads as removes the entry.
DESIGN CHOICE, log entry 4. -/
def SMap.set {α : Type} [DecidableEq α] (d : Nat → α) (m : SMap α) (k : Nat) (v : α) : SMap α :=
  if v = d k then SMap.erase m k else SMap.insert k v (SMap.erase m k)

/-- Keys rise strictly. -/
def SMap.rising {α : Type} : SMap α → Bool
  | [] => true
  | [_] => true
  | a :: b :: m => decide (a.1 < b.1) && SMap.rising (b :: m)

/-- The canonical form: keys rise strictly and no entry equals what an unlisted key reads as. -/
def SMap.wf {α : Type} [DecidableEq α] (d : Nat → α) (m : SMap α) : Bool :=
  SMap.rising m && m.all (fun e => decide (e.2 ≠ d e.1))

/-- Keep only the entries whose key passes `p`. -/
def SMap.keep {α : Type} (p : Nat → Bool) (m : SMap α) : SMap α := m.filter (fun e => p e.1)

/-- Change every listed value and keep the canonical form. -/
def SMap.mapVals {α : Type} [DecidableEq α] (d : Nat → α) (f : Nat → α → α) (m : SMap α) : SMap α :=
  (m.map (fun e => (e.1, f e.1 e.2))).filter (fun e => decide (e.2 ≠ d e.1))

/-- What an unlisted byte of a memory reads as. -/
def zeroByte (_ : Nat) : Byte := 0

/-- `n` bytes from address `a` on. -/
def readBytes (m : SMap Byte) (a : Nat) : Nat → List Byte
  | 0 => []
  | n + 1 => SMap.get zeroByte m a :: readBytes m (a + 1) n

/-- Write a list of bytes from address `a` on. -/
def writeBytes (m : SMap Byte) (a : Nat) : List Byte → SMap Byte
  | [] => m
  | b :: bs => writeBytes (SMap.set zeroByte m a b) (a + 1) bs

/-- The little-endian number in `n` bytes from `a`. -/
def readLe (m : SMap Byte) (a n : Nat) : Nat := leNat (readBytes m a n)

end Sys2Proof.Machine
end

