-- ==== Sys2Proof/Machine/Legal.lean ====
section
/-!
DEFINITION. Which field values of an instruction are legal (R108, R111, R139, R173, R174, R179, R180, R183, R186, R187, R193, R196,
R198): lane widths, formats, product types, rounding modes, register groups.
-/
namespace Sys2Proof.Machine

/-- Lane width in bits. -/
def laneW (half : Bool) : Nat := if half then 16 else 32
/-- Number of lanes. -/
def laneN (half : Bool) : Nat := if half then 32 else 16

/-- Whether a format code is defined. -/
def fmtOk (f : Nat) : Bool := decide (f < 5)
/-- Whether a format has 16-bit lanes. -/
def fmtHalf (f : Nat) : Bool := f == 2 || f == 4
/-- Whether a product type is defined. -/
def prodOk (t : Nat) : Bool := decide (t < 6)
/-- Whether va of a product type has 16-bit lanes. -/
def prodHalfA (t : Nat) : Bool := t == 2 || t == 3 || t == 5
/-- Whether vb of a product type has 16-bit lanes. -/
def prodHalfB (t : Nat) : Bool := t == 2 || t == 5

/-- A shift by an immediate with W = 1 has bit 5 of its amount clear (R111). -/
def shiftOk (wide : Bool) (sh : BitVec 6) : Bool := !(wide && sh.getLsbD 5)
/-- A FENCE names at least one set (R139). -/
def fenceOk (sets : BitVec 5) : Bool := bits sets 0 4 != 0
/-- A lane shift is below the lane width (R180). -/
def laneShiftOk (n : BitVec 5) (half : Bool) : Bool := decide (n.toNat < laneW half)
/-- A lane index is below the number of lanes (R198). -/
def laneIxOk (k : BitVec 5) (half : Bool) : Bool := decide (k.toNat < laneN half)
/-- The type and half of a multiply (R179, R183). -/
def mulOk (ty : BitVec 3) (hi : Bool) : Bool := prodOk ty.toNat && (!hi || prodHalfA ty.toNat)
/-- The format and half of a widening or narrowing (R179, R186). -/
def fmtHiOk (fmt : BitVec 3) (hi : Bool) : Bool := fmtOk fmt.toNat && (!hi || fmtHalf fmt.toNat)
/-- The fields of a narrowing (R179, R187). -/
def narrowOk (fmt : BitVec 3) (hi : Bool) (rm : BitVec 2) (byReg : Bool) (sh : BitVec 7) : Bool :=
  fmtHiOk fmt hi && rm != 3 && (!byReg || bits sh 5 2 == 0)
/-- Whether `r` lies in the `n` registers from `g` on. -/
def inGroup (r g : RIx) (n : Nat) : Bool := decide (g.val ≤ r.val) && decide (r.val < g.val + n)
/-- The register groups of VBIQ (R193). -/
def biqOk (vd vs vc : RIx) (rm : BitVec 2) : Bool :=
  rm != 3 && vs.val % 4 == 0 && vc.val % 8 == 0 && !inGroup vd vs 4 && !inGroup vd vc 5
/-- The register group of VRAMP (R196). -/
def rampOk (vd vg : RIx) (rm : BitVec 2) : Bool := rm != 3 && vg.val % 4 == 0 && !inGroup vd vg 3

end Sys2Proof.Machine
end

