-- ==== Sys2Proof/Data.lean ====
section
/-!
DEFINITION. Data that commands carry and that the state holds: replicas, memory types, requests and answers.
-/
namespace Sys2Proof

/-- Which replica of its partition a core runs: none in a single-tier partition (R471). -/
inductive Rep where
  | none | a | b | c
  deriving DecidableEq, Repr

/-- The memory types of Table 6-3. -/
inductive MemType where
  | wb | wt | nc | dO | dS
  deriving DecidableEq, Repr

/-- The privilege levels (R102, R103). -/
inductive Priv where
  | u | s | k
  deriving DecidableEq, Repr

/-- Who makes an access: a core, the keeper, the debug port (with its level), an engine or bus master. -/
inductive Agent where
  | core (c : CoreId)
  | keeper
  | debug (full : Bool)
  | engine (uid : Nat)
  deriving DecidableEq, Repr

/-- A request to the mesh: issuer, level, partition and replica it acts for, physical address, size in bytes,
type, the peek attribute (R9), and the data of a write (`none` for a read). -/
structure Req where
  agent : Agent
  priv : Priv
  part : Nat
  rep : Rep
  addr : Nat
  size : Nat
  mt : MemType
  peek : Bool
  write : Option (List Byte)
  deriving DecidableEq, Repr

/-- The answer to a transaction: data (empty for a write), or an error response code of Table 17-3. -/
inductive Answer where
  | data (bs : List Byte)
  | err (code : Nat)
  deriving DecidableEq, Repr

/-- A stream packet as it reaches an engine: the port it came in on, whether it is AVTP or RTP, IPv6 or IPv4, the
destination (address, or stream ID), the UDP port, and the UDP payload or the AVTP data unit. -/
structure Pkt where
  port : Nat
  avtp : Bool
  v6 : Bool
  dst : Nat
  udp : Nat
  bytes : List Byte
  deriving DecidableEq, Repr

end Sys2Proof
end

