-- ==== Sys2Proof/Syntax.lean ====
section
/-!
DEFINITION. The commands of the block: one constructor per row of spec/opcode_table.json. The operands of an
instruction are its core and the fields of its encoding; the operands of an event are what the environment supplies
(a reading, a packet, which instance) and the unit, channel, cadence or engine concerned.
-/
namespace Sys2Proof

/-- The commands of the CX-288 (spec/opcode_table.json). -/
inductive Instr where
  /-- R8. A write to a register that has no row of its own; the access code decides the effect, and the
  checks of R7, R11, R12 and R26 apply. -/
  | regWrite (by_ : Agent) (pa : BitVec 48) (size : BitVec 4) (v : Word)
  /-- R8. A read of a register with an RC field returns the field and then clears it, unless it carries the
  peek attribute (R9). -/
  | rcRead (by_ : Agent) (pa : BitVec 48) (peek : Bool)
  /-- R26. A request reaches a mesh stop or a unit, is decoded, checked and served. -/
  | transactionArrival (q : Req)
  /-- R18. The keeper sets FENCED of a unit, which then issues no new request. -/
  | fenceUnit (u : Nat)
  /-- R18. The keeper clears FENCED of a unit. -/
  | liftFence (u : BitVec 16)
  /-- R28. After a fence, the keeper replaces the whole cluster with a spare cluster, from the same region
  when one is left. -/
  | spareIn (k : Fin 72)
  /-- R395. When an active keeper pair, event controller or mailbox block is fenced, its standby instance
  becomes active. -/
  | standbyTakeover (u : Nat)
  /-- R42. Every 64 µs the die control updates DIE_TEMP with the highest sensor reading and compares it with
  DIE_THERM. -/
  | tempConversion (die : Fin 6) (t : BitVec 12) (sensor : BitVec 4)
  /-- R61. A pace monitor completes a 1 µs window and updates PACE and PACE_MIN. -/
  | paceWindow (k : Fin 72) (pace : BitVec 16)
  /-- R68. Every 1 ms in measured mode the slack governor lowers or raises a region's set point by 5 mV. -/
  | governorEvaluation (g : Fin 8) (inTime : Bool)
  /-- R69. On a pace alarm the keeper commands the region's fallback set point or keeps a higher one. -/
  | paceAlarmResponse (g : Fin 8)
  /-- R806. A target holds SCL low for 25 ms; the port ends the transaction and raises record 0x0208. -/
  | smbTimeout (target : BitVec 7) (cmd : BitVec 8) (setPoint : Bool)
  /-- R80. A port's stall watchdog expires; the port closes, its held transactions end with stalled, and a
  contained record and the stall event are raised. -/
  | stallExpiry (u : Nat) (p : Fin 64) (phase : BitVec 2) (holds : Bool)
  /-- R80. After a stall record the keeper fences the unit on the other side of the port. -/
  | stallFence (u : Nat)
  /-- R82. The keeper writes 1 to a STALLED bit; every wire of the port returns to zero and the port
  reopens. -/
  | stallReopen (u : BitVec 16) (mask : Word)
  /-- R79. A write to STALL_BOUND[p] sets the port bound and recomputes UNIT_BOUND. -/
  | stallBoundWrite (u : BitVec 16) (p : Fin 64) (v : Word)
  /-- R84. The time base sends a counter the value of the next mark, and the counter becomes valid when that
  mark arrives. -/
  | timeCounterLoad (k : Fin 72)
  /-- R86. At every mark each valid time counter checks that its low 13 bits are zero. -/
  | dtMark (bad : List (Fin 72))
  /-- R89. A write to TB_LOAD while LOAD_EN is 1 sets DT at the next mark; while LOAD_EN is 0 it is refused.
  -/
  | tbLoadWrite (v : Word)
  /-- R89. Writing 1 to TB_CTL.LOAD_EN clears it until the next power-on reset. -/
  | loadEnClear
  /-- R90. The primary PLL loses lock; the tick switches to the fallback PLL, FALLBACK is set and a
  contained record is written. -/
  | pllLockLoss
  /-- R91. A region control sees no tick for 1 µs, writes a device record and its watchdogs count an on-die
  oscillator. -/
  | tickLoss (g : Fin 8)
  /-- R91. Ticks return to a region and its watchdogs count ticks again. -/
  | tickRestore (g : Fin 8)
  /-- R93. A PTP event message is timestamped in its edge island and handled by the keeper's ordinary clock.
  -/
  | ptpEventMessage (off : Int) (trim : BitVec 32) (netOffset : Word)
  /-- R94. A 1PPS edge is timestamped with 1 ns resolution into TB_PPS_STAMP. -/
  | ppsEdge (sub : BitVec 3) (off : Int)
  /-- R95. The reference is absent for 3 announce intervals or 3 s of 1PPS and the time base enters holdover
  with the last trim. -/
  | holdoverEntry
  /-- R108. An undefined opcode, func, field or nonzero required-zero field raises the illegal-instruction
  fault. -/
  | undefinedInstruction (c : CoreId) (word : BitVec 32)
  /-- R109. Adds two registers modulo 2^64. -/
  | add (c : CoreId) (rd ra rb : RIx)
  /-- R109. Subtracts two registers modulo 2^64. -/
  | sub (c : CoreId) (rd ra rb : RIx)
  /-- R109. Bitwise AND of two registers. -/
  | and (c : CoreId) (rd ra rb : RIx)
  /-- R109. Bitwise OR of two registers. -/
  | or (c : CoreId) (rd ra rb : RIx)
  /-- R109. Bitwise XOR of two registers. -/
  | xor (c : CoreId) (rd ra rb : RIx)
  /-- R109. AND of the first register with the complement of the second. -/
  | andn (c : CoreId) (rd ra rb : RIx)
  /-- R109. Logical left shift by the low 6 bits of a register. -/
  | sll (c : CoreId) (rd ra rb : RIx)
  /-- R109. Logical right shift by the low 6 bits of a register. -/
  | srl (c : CoreId) (rd ra rb : RIx)
  /-- R109. Arithmetic right shift by the low 6 bits of a register. -/
  | sra (c : CoreId) (rd ra rb : RIx)
  /-- R109. Rotate right by the low 6 bits of a register. -/
  | ror (c : CoreId) (rd ra rb : RIx)
  /-- R109. Writes 1 when two registers are equal, else 0. -/
  | seq (c : CoreId) (rd ra rb : RIx)
  /-- R109. Writes 1 when two registers differ, else 0. -/
  | sne (c : CoreId) (rd ra rb : RIx)
  /-- R109. Signed less-than comparison. -/
  | slt (c : CoreId) (rd ra rb : RIx)
  /-- R109. Unsigned less-than comparison. -/
  | sltu (c : CoreId) (rd ra rb : RIx)
  /-- R109. Signed less-or-equal comparison. -/
  | sle (c : CoreId) (rd ra rb : RIx)
  /-- R109. Unsigned less-or-equal comparison. -/
  | sleu (c : CoreId) (rd ra rb : RIx)
  /-- R109. Signed minimum of two registers. -/
  | min (c : CoreId) (rd ra rb : RIx)
  /-- R109. Signed maximum of two registers. -/
  | max (c : CoreId) (rd ra rb : RIx)
  /-- R109. Unsigned minimum of two registers. -/
  | minu (c : CoreId) (rd ra rb : RIx)
  /-- R109. Unsigned maximum of two registers. -/
  | maxu (c : CoreId) (rd ra rb : RIx)
  /-- R109. Adds and sets ASTAT.OV on signed overflow. -/
  | addv (c : CoreId) (rd ra rb : RIx)
  /-- R109. Subtracts and sets ASTAT.OV on signed overflow. -/
  | subv (c : CoreId) (rd ra rb : RIx)
  /-- R109. Counts leading zeros of a register. -/
  | clz (c : CoreId) (rd ra : RIx)
  /-- R109. Counts trailing zeros of a register. -/
  | ctz (c : CoreId) (rd ra : RIx)
  /-- R109. Counts one bits of a register. -/
  | popc (c : CoreId) (rd ra : RIx)
  /-- R109. Reverses the byte order of a register. -/
  | rev8 (c : CoreId) (rd ra : RIx)
  /-- R109. 32-bit add, sign-extended. -/
  | addw (c : CoreId) (rd ra rb : RIx)
  /-- R109. 32-bit subtract, sign-extended. -/
  | subw (c : CoreId) (rd ra rb : RIx)
  /-- R109. 32-bit left shift, sign-extended. -/
  | sllw (c : CoreId) (rd ra rb : RIx)
  /-- R109. 32-bit logical right shift, sign-extended. -/
  | srlw (c : CoreId) (rd ra rb : RIx)
  /-- R109. 32-bit arithmetic right shift, sign-extended. -/
  | sraw (c : CoreId) (rd ra rb : RIx)
  /-- R109. 32-bit add that sets OV on 32-bit signed overflow. -/
  | addvw (c : CoreId) (rd ra rb : RIx)
  /-- R109. 32-bit subtract that sets OV on 32-bit signed overflow. -/
  | subvw (c : CoreId) (rd ra rb : RIx)
  /-- R113. Low 64 bits of the product. -/
  | mul (c : CoreId) (rd ra rb : RIx)
  /-- R113. High 64 bits of the signed 128-bit product. -/
  | mulh (c : CoreId) (rd ra rb : RIx)
  /-- R113. High 64 bits of the unsigned 128-bit product. -/
  | mulhu (c : CoreId) (rd ra rb : RIx)
  /-- R113. Low product that sets OV on signed overflow. -/
  | mulv (c : CoreId) (rd ra rb : RIx)
  /-- R115. Signed 64-bit quotient with the defined zero-divisor and overflow results. -/
  | div (c : CoreId) (rd ra rb : RIx)
  /-- R115. Unsigned 64-bit quotient. -/
  | divu (c : CoreId) (rd ra rb : RIx)
  /-- R115. Signed 64-bit remainder. -/
  | rem (c : CoreId) (rd ra rb : RIx)
  /-- R115. Unsigned 64-bit remainder. -/
  | remu (c : CoreId) (rd ra rb : RIx)
  /-- R113. 32-bit product, sign-extended. -/
  | mulw (c : CoreId) (rd ra rb : RIx)
  /-- R113. 32-bit product that sets OV on 32-bit overflow. -/
  | mulvw (c : CoreId) (rd ra rb : RIx)
  /-- R115. Signed 32-bit quotient, sign-extended. -/
  | divw (c : CoreId) (rd ra rb : RIx)
  /-- R115. Unsigned 32-bit quotient, sign-extended from bit 31. -/
  | divuw (c : CoreId) (rd ra rb : RIx)
  /-- R115. Signed 32-bit remainder, sign-extended. -/
  | remw (c : CoreId) (rd ra rb : RIx)
  /-- R115. Unsigned 32-bit remainder, sign-extended from bit 31. -/
  | remuw (c : CoreId) (rd ra rb : RIx)
  /-- R118. Selects one of two registers by whether a third is nonzero. -/
  | sel (c : CoreId) (rd ra rb rc : RIx)
  /-- R110. Adds a sign-extended immediate. -/
  | addi (c : CoreId) (rd ra : RIx) (imm : BitVec 16)
  /-- R110. 32-bit add of an immediate, sign-extended. -/
  | addiw (c : CoreId) (rd ra : RIx) (imm : BitVec 16)
  /-- R110. AND with a zero-extended immediate. -/
  | andi (c : CoreId) (rd ra : RIx) (imm : BitVec 16)
  /-- R110. OR with a zero-extended immediate. -/
  | ori (c : CoreId) (rd ra : RIx) (imm : BitVec 16)
  /-- R110. XOR with a zero-extended immediate. -/
  | xori (c : CoreId) (rd ra : RIx) (imm : BitVec 16)
  /-- R110. Signed less-than against an immediate. -/
  | slti (c : CoreId) (rd ra : RIx) (imm : BitVec 16)
  /-- R110. Unsigned less-than against a sign-extended immediate. -/
  | sltiu (c : CoreId) (rd ra : RIx) (imm : BitVec 16)
  /-- R111. SHI kind 0b00: left shift by an immediate, 64-bit or W form. -/
  | slli (c : CoreId) (rd ra : RIx) (wide : Bool) (sh : BitVec 6)
  /-- R111. SHI kind 0b01: logical right shift by an immediate. -/
  | srli (c : CoreId) (rd ra : RIx) (wide : Bool) (sh : BitVec 6)
  /-- R111. SHI kind 0b10: arithmetic right shift by an immediate. -/
  | srai (c : CoreId) (rd ra : RIx) (wide : Bool) (sh : BitVec 6)
  /-- R111. SHI kind 0b11: rotate right by an immediate; undefined in the W form. -/
  | rori (c : CoreId) (rd ra : RIx) (sh : BitVec 6)
  /-- R110. Loads a sign-extended 21-bit immediate shifted left by 12. -/
  | lui (c : CoreId) (rd : RIx) (imm : BitVec 21)
  /-- R110. Adds a shifted immediate to PC. -/
  | auipc (c : CoreId) (rd : RIx) (imm : BitVec 21)
  /-- R122. Loads a sign-extended byte. -/
  | ld8 (c : CoreId) (rd ra : RIx) (imm : BitVec 16)
  /-- R122. Loads a zero-extended byte. -/
  | ld8u (c : CoreId) (rd ra : RIx) (imm : BitVec 16)
  /-- R122. Loads a sign-extended halfword. -/
  | ld16 (c : CoreId) (rd ra : RIx) (imm : BitVec 16)
  /-- R122. Loads a zero-extended halfword. -/
  | ld16u (c : CoreId) (rd ra : RIx) (imm : BitVec 16)
  /-- R122. Loads a sign-extended word. -/
  | ld32 (c : CoreId) (rd ra : RIx) (imm : BitVec 16)
  /-- R122. Loads a zero-extended word. -/
  | ld32u (c : CoreId) (rd ra : RIx) (imm : BitVec 16)
  /-- R122. Loads a doubleword. -/
  | ld64 (c : CoreId) (rd ra : RIx) (imm : BitVec 16)
  /-- R122. Stores a byte. -/
  | st8 (c : CoreId) (rs ra : RIx) (imm : BitVec 16)
  /-- R122. Stores a halfword. -/
  | st16 (c : CoreId) (rs ra : RIx) (imm : BitVec 16)
  /-- R122. Stores a word. -/
  | st32 (c : CoreId) (rs ra : RIx) (imm : BitVec 16)
  /-- R122. Stores a doubleword. -/
  | st64 (c : CoreId) (rs ra : RIx) (imm : BitVec 16)
  /-- R217. A retired store writes L1D or the local store and frees its store-buffer entry. -/
  | storeBufferDrain (c : CoreId) (n : Fin 32)
  /-- R129. An error response reaches a retired WB, WT or NC store and cause 0x13 is raised at the next
  boundary. -/
  | deferredStoreError (c : CoreId)
  /-- R133. Loads a doubleword and sets the reservation on its granule. -/
  | lres (c : CoreId) (rd ra : RIx) (ord : BitVec 2)
  /-- R133. Loads a sign-extended word and sets the reservation. -/
  | lresw (c : CoreId) (rd ra : RIx) (ord : BitVec 2)
  /-- R134. Stores a doubleword only when the reservation holds, writes the outcome and clears the
  reservation. -/
  | scom (c : CoreId) (rd ra rb : RIx) (ord : BitVec 2)
  /-- R134. Conditional store of a word. -/
  | scomw (c : CoreId) (rd ra rb : RIx) (ord : BitVec 2)
  /-- R137. Atomic add at the home, returning the old value. -/
  | aadd (c : CoreId) (rd ra rb : RIx) (ord : BitVec 2)
  /-- R137. 32-bit atomic add at the home. -/
  | aaddw (c : CoreId) (rd ra rb : RIx) (ord : BitVec 2)
  /-- R137. Atomic swap at the home. -/
  | aswp (c : CoreId) (rd ra rb : RIx) (ord : BitVec 2)
  /-- R137. 32-bit atomic swap at the home. -/
  | aswpw (c : CoreId) (rd ra rb : RIx) (ord : BitVec 2)
  /-- R137. Atomic compare-and-swap at the home. -/
  | acas (c : CoreId) (rd ra rb rc : RIx) (ord : BitVec 2)
  /-- R137. 32-bit atomic compare-and-swap at the home. -/
  | acasw (c : CoreId) (rd ra rb rc : RIx) (ord : BitVec 2)
  /-- R346. Acquire load of a doubleword. -/
  | lda (c : CoreId) (rd ra : RIx)
  /-- R346. Acquire load of a sign-extended word. -/
  | ldaw (c : CoreId) (rd ra : RIx)
  /-- R346. Release store of a doubleword. -/
  | stl (c : CoreId) (ra rb : RIx)
  /-- R346. Release store of a word. -/
  | stlw (c : CoreId) (ra rb : RIx)
  /-- R324. Loads a doubleword whose fill enters at age 3. -/
  | ldnt (c : CoreId) (rd ra : RIx)
  /-- R347. Orders the accesses of its predecessor set before those of its successor set. -/
  | fence (c : CoreId) (sets : BitVec 5)
  /-- R329. Obtains the line in M without reading memory and sets it to zero. -/
  | zline (c : CoreId) (ra : RIx) (imm : BitVec 16)
  /-- R329. Writes back dirty sectors of the line; copies stay valid. -/
  | clean (c : CoreId) (ra : RIx) (imm : BitVec 16)
  /-- R329. Discards every copy of the line without write-back. -/
  | inv (c : CoreId) (ra : RIx) (imm : BitVec 16)
  /-- R329. Writes back dirty sectors and then discards every copy. -/
  | flush (c : CoreId) (ra : RIx) (imm : BitVec 16)
  /-- R329. Hint that fills the sector for reading and never faults. -/
  | pref (c : CoreId) (ra : RIx) (imm : BitVec 16)
  /-- R329. Hint that fills the sector for writing and never faults. -/
  | prefw (c : CoreId) (ra : RIx) (imm : BitVec 16)
  /-- R119. Branches when a register is zero. -/
  | bez (c : CoreId) (ra : RIx) (off : BitVec 21)
  /-- R119. Branches when a register is nonzero. -/
  | bnz (c : CoreId) (ra : RIx) (off : BitVec 21)
  /-- R119. Branches when a register is negative. -/
  | bltz (c : CoreId) (ra : RIx) (off : BitVec 21)
  /-- R119. Branches when a register is zero or positive. -/
  | bgez (c : CoreId) (ra : RIx) (off : BitVec 21)
  /-- R120. Jumps by an offset. -/
  | j (c : CoreId) (off : BitVec 26)
  /-- R120. Writes PC + 4 to w31 and jumps by an offset. -/
  | jal (c : CoreId) (off : BitVec 26)
  /-- R120. Jumps to a register plus immediate and writes PC + 4 to rd. -/
  | jalr (c : CoreId) (rd ra : RIx) (imm : BitVec 16)
  /-- R141. Reads a control register. -/
  | mfc (c : CoreId) (rd : RIx) (idx : BitVec 12)
  /-- R141. Writes a control register, taking effect as its class gives. -/
  | mtc (c : CoreId) (ra : RIx) (idx : BitVec 12)
  /-- R141. Sets bits of a control register and returns the old value. -/
  | cset (c : CoreId) (rd ra : RIx) (idx : BitVec 12)
  /-- R141. Clears bits of a control register and returns the old value. -/
  | cclr (c : CoreId) (rd ra : RIx) (idx : BitVec 12)
  /-- R141. Raises cause 0x03 with idx in S_CAUSE.INFO. -/
  | svc (c : CoreId) (idx : BitVec 12)
  /-- R141. Raises cause 0x04, or halts the core when a debugger has claimed breakpoints (R150). -/
  | brk (c : CoreId) (idx : BitVec 12)
  /-- R152. Restores PC, PRIV, EE and IPL from the saved fields at once. -/
  | eret (c : CoreId)
  /-- R142. Stops issue and dozes until an event above IPL is pending; illegal in a replica. -/
  | waite (c : CoreId)
  /-- R142. An event above IPL arrives for a core waiting in WAITE, which continues. -/
  | waiteWake (c : CoreId)
  /-- R143. Completes the core's previous block, signals the commit stage and waits for the next block of a
  cadence. -/
  | waitb (c : CoreId) (rd : RIx) (cad : BitVec 4)
  /-- R143. The awaited block has started and WAITB writes its BSN and continues. -/
  | waitbReturn (c : CoreId)
  /-- R158. Waits until every earlier after-SYNC.C write has taken effect. -/
  | syncC (c : CoreId)
  /-- R141. Discards every instruction fetched so far. -/
  | ifence (c : CoreId)
  /-- R294. Removes every TLB entry and the walk cache of this core. -/
  | tlbiAll (c : CoreId)
  /-- R294. Removes non-global entries of one ASID. -/
  | tlbiAsid (c : CoreId) (ra : RIx)
  /-- R294. Removes entries mapping an address under one ASID or global. -/
  | tlbiVaAsid (c : CoreId) (rd ra : RIx)
  /-- R294. Removes entries mapping an address under every ASID. -/
  | tlbiVa (c : CoreId) (ra : RIx)
  /-- R144. An asynchronous event of highest pending priority is taken at a boundary; state is saved and the
  handler entered. -/
  | eventEntry (c : CoreId) (inDivide : Bool)
  /-- R154. At the eighth retired boundary after a staged write, the write takes effect. -/
  | stagedWriteApply (c : CoreId)
  /-- R226. The predictor clearing walk ends and PRED_INIT clears. -/
  | predictorInitDone (c : CoreId)
  /-- R257. The local-store clearing walk ends and LS_INIT clears. -/
  | lsInitDone (c : CoreId)
  /-- R180. Lane-wise wrapping add. -/
  | vadd (c : CoreId) (vd va vb : RIx) (half : Bool)
  /-- R180. Lane-wise wrapping subtract. -/
  | vsub (c : CoreId) (vd va vb : RIx) (half : Bool)
  /-- R180. Lane-wise saturating add. -/
  | vadds (c : CoreId) (vd va vb : RIx) (half : Bool)
  /-- R180. Lane-wise saturating subtract. -/
  | vsubs (c : CoreId) (vd va vb : RIx) (half : Bool)
  /-- R180. Lane-wise signed minimum. -/
  | vmin (c : CoreId) (vd va vb : RIx) (half : Bool)
  /-- R180. Lane-wise signed maximum. -/
  | vmax (c : CoreId) (vd va vb : RIx) (half : Bool)
  /-- R180. Lane-wise saturating absolute value. -/
  | vabs (c : CoreId) (vd va : RIx) (half : Bool)
  /-- R180. Lane-wise saturating negation. -/
  | vneg (c : CoreId) (vd va : RIx) (half : Bool)
  /-- R180. Lane-wise AND. -/
  | vand (c : CoreId) (vd va vb : RIx) (half : Bool)
  /-- R180. Lane-wise OR. -/
  | vor (c : CoreId) (vd va vb : RIx) (half : Bool)
  /-- R180. Lane-wise XOR. -/
  | vxor (c : CoreId) (vd va vb : RIx) (half : Bool)
  /-- R180. Lane-wise left shift by an immediate. -/
  | vslli (c : CoreId) (vd va : RIx) (n : BitVec 5) (half : Bool)
  /-- R180. Lane-wise logical right shift by an immediate. -/
  | vsrli (c : CoreId) (vd va : RIx) (n : BitVec 5) (half : Bool)
  /-- R180. Lane-wise arithmetic right shift by an immediate. -/
  | vsrai (c : CoreId) (vd va : RIx) (n : BitVec 5) (half : Bool)
  /-- R180. Lane-wise saturating multiply by 2^n. -/
  | vslsi (c : CoreId) (vd va : RIx) (n : BitVec 5) (half : Bool)
  /-- R182. Lane-wise leading sign count. -/
  | vnorm (c : CoreId) (vd va : RIx) (half : Bool)
  /-- R180. Interleaves the lower halves of two registers. -/
  | vzipl (c : CoreId) (vd va vb : RIx) (half : Bool)
  /-- R180. Interleaves the upper halves of two registers. -/
  | vziph (c : CoreId) (vd va vb : RIx) (half : Bool)
  /-- R180. Gathers the even lanes of two registers. -/
  | vuzpe (c : CoreId) (vd va vb : RIx) (half : Bool)
  /-- R180. Gathers the odd lanes of two registers. -/
  | vuzpo (c : CoreId) (vd va vb : RIx) (half : Bool)
  /-- R183. Writes exact products into accumulator lanes. -/
  | vmul (c : CoreId) (qd : QIx) (va vb : RIx) (ty : BitVec 3) (hi : Bool)
  /-- R183. Adds exact products into accumulator lanes with saturation. -/
  | vmac (c : CoreId) (qd : QIx) (va vb : RIx) (ty : BitVec 3) (hi : Bool)
  /-- R183. Subtracts exact products from accumulator lanes with saturation. -/
  | vmsu (c : CoreId) (qd : QIx) (va vb : RIx) (ty : BitVec 3) (hi : Bool)
  /-- R183. Adds products of each lane with one broadcast lane k. -/
  | vmacx (c : CoreId) (qd : QIx) (va vb : RIx) (ty : BitVec 3) (hi : Bool) (k : BitVec 4)
  /-- R183. Subtracts products of each lane with one broadcast lane k. -/
  | vmsux (c : CoreId) (qd : QIx) (va vb : RIx) (ty : BitVec 3) (hi : Bool) (k : BitVec 4)
  /-- R184. Adds the exact sum of 16 products into lane k with one saturation. -/
  | vdot (c : CoreId) (qd : QIx) (va vb : RIx) (ty : BitVec 3) (hi : Bool) (k : BitVec 4)
  /-- R184. Subtracts the exact sum of 16 products from lane k with one saturation. -/
  | vdotn (c : CoreId) (qd : QIx) (va vb : RIx) (ty : BitVec 3) (hi : Bool) (k : BitVec 4)
  /-- R192. Advances 16 biquad sections by one sample and updates their state atomically. -/
  | vbiq (c : CoreId) (vd va vs vc : RIx) (rm : BitVec 2)
  /-- R187. Narrows accumulator lanes into a lane format with rounding and saturation. -/
  | vnrw (c : CoreId) (vd : RIx) (qa : QIx) (fmt : BitVec 3) (hi : Bool) (rm : BitVec 2) (byReg : Bool) (sh : BitVec 7)
  /-- R187. Narrows accumulator lanes and then clears the accumulator. -/
  | vnrwc (c : CoreId) (vd : RIx) (qa : QIx) (fmt : BitVec 3) (hi : Bool) (rm : BitVec 2) (byReg : Bool) (sh : BitVec 7)
  /-- R186. Clears an accumulator. -/
  | vqclr (c : CoreId) (qd : QIx)
  /-- R186. Copies an accumulator. -/
  | vqmov (c : CoreId) (qd qa : QIx)
  /-- R186. Adds accumulators lane-wise with saturation. -/
  | vqadd (c : CoreId) (qd qa : QIx)
  /-- R186. Subtracts accumulators lane-wise with saturation. -/
  | vqsub (c : CoreId) (qd qa : QIx)
  /-- R186. Widens vector lanes into an accumulator. -/
  | vqwid (c : CoreId) (qd : QIx) (va : RIx) (fmt : BitVec 3) (hi : Bool)
  /-- R186. Adds widened vector lanes into an accumulator with saturation. -/
  | vqacc (c : CoreId) (qd : QIx) (va : RIx) (fmt : BitVec 3) (hi : Bool)
  /-- R186. Writes the minimum 96-bit leading sign count of an accumulator to a general register. -/
  | vnormq (c : CoreId) (rd : RIx) (qa : QIx)
  /-- R196. Applies a per-lane gain to 16 samples and moves the gain one increment toward its target. -/
  | vramp (c : CoreId) (vd va vg : RIx) (rm : BitVec 2)
  /-- R198. Copies a general register into every lane. -/
  | vsplat (c : CoreId) (vd wa : RIx) (half : Bool)
  /-- R198. Moves lane k into a general register, sign-extended. -/
  | vmvlw (c : CoreId) (wd va : RIx) (k : BitVec 5) (half : Bool)
  /-- R198. Inserts a general register into lane k. -/
  | vinsw (c : CoreId) (vd wa : RIx) (k : BitVec 5) (half : Bool)
  /-- R198. Reads VSTAT into a general register. -/
  | vrstat (c : CoreId) (wd : RIx)
  /-- R198. Writes VSTAT from a general register. -/
  | vwstat (c : CoreId) (wa : RIx)
  /-- R198. Reads VSTAT and then clears it. -/
  | vcstat (c : CoreId) (wd : RIx)
  /-- R199. Loads 16 contiguous 32-bit elements. -/
  | vld (c : CoreId) (v ra : RIx) (imm : BitVec 16)
  /-- R199. Stores 16 contiguous 32-bit elements. -/
  | vst (c : CoreId) (v ra : RIx) (imm : BitVec 16)
  /-- R199. Loads elements at a signed byte stride. -/
  | vlds (c : CoreId) (v ra rb : RIx) (half : Bool)
  /-- R203. Stores elements at a signed byte stride, the highest element winning on overlap. -/
  | vsts (c : CoreId) (v ra rb : RIx) (half : Bool)
  /-- R199. Loads an accumulator as 16 elements of 12 bytes. -/
  | vqld (c : CoreId) (q : QIx) (ra : RIx) (imm : BitVec 16)
  /-- R199. Stores an accumulator as 16 elements of 12 bytes. -/
  | vqst (c : CoreId) (q : QIx) (ra : RIx) (imm : BitVec 16)
  /-- R271. A TLB miss walks the four table levels and installs a leaf or raises a fault. -/
  | pageWalk (c : CoreId) (va : BitVec 48) (store oldest : Bool)
  /-- R277. The walker compares and writes the leaf at its home to set A or D. -/
  | adUpdate (c : CoreId) (va : BitVec 48) (store : Bool) (seen : Word)
  /-- R316. A load miss obtains a sector from its home in E or S. -/
  | homeReadRequest (c : CoreId) (pa : BitVec 48)
  /-- R316. A store to a sector not held obtains it exclusively from its home. -/
  | homeReadExclusive (c : CoreId) (pa : BitVec 48)
  /-- R322. A store to a sector held in S asks the home for ownership. -/
  | homeUpgrade (c : CoreId) (pa : BitVec 48)
  /-- R322. The home recalls a sector from its owning L2. -/
  | homeRecall (c : CoreId) (pa : BitVec 48)
  /-- R318. The home invalidates sharers, by exact list or per region. -/
  | homeInvalidation (c : CoreId) (pa : BitVec 48)
  /-- R322. An owner writes a dirty sector back to its home. -/
  | homeWriteback (c : CoreId) (pa : BitVec 48)
  /-- R320. The home performs an atomic operation after recalling and invalidating copies. -/
  | homeAtomic (c : CoreId) (pa : BitVec 48) (wide wt : Bool) (op : BitVec 2) (x y : Word)
  /-- R319. An NC, DO or DS access to SDRAM is performed at the home after recall and invalidation. -/
  | homeUncachedAccess (by_ : Agent) (pa : BitVec 48) (size : Fin 65) (w : Option (List Byte))
  /-- R326. Every AGE_PER µs the age of every valid line rises by 1, up to 3. -/
  | ageingPeriod (u : BitVec 16)
  /-- R327. A cache clearing walk ends and INIT clears. -/
  | cacheInitDone (u : BitVec 16)
  /-- R332. CM_OP 0b001 cleans one set and way. -/
  | cmCleanSetWay (u : BitVec 16) (set : BitVec 11) (way : BitVec 4)
  /-- R332. CM_OP 0b010 invalidates one set and way. -/
  | cmInvSetWay (u : BitVec 16) (set : BitVec 11) (way : BitVec 4)
  /-- R332. CM_OP 0b011 flushes one set and way. -/
  | cmFlushSetWay (u : BitVec 16) (set : BitVec 11) (way : BitVec 4)
  /-- R332. CM_OP 0b100 flushes the whole cache. -/
  | cmFlushAll (u : BitVec 16)
  /-- R332. CM_OP 0b101 cleans the whole cache. -/
  | cmCleanAll (u : BitVec 16)
  /-- R332. A maintenance operation completes; BUSY clears and DONE, or WBERR, is set. -/
  | cmOpDone (u : BitVec 16) (failed : Bool)
  /-- R386. Each channel reads the SPD of its DIMMs and checks them against R353 and R354. -/
  | spdRead (ch : Fin 12) (supported : Bool) (cfg : BitVec 7) (part0 part1 : Word)
  /-- R386. Stored training is loaded from flash and checked with a quick pattern test. -/
  | storedTrainingLoad (ch : Fin 12) (good : Bool)
  /-- R386. Full training of a channel completes. -/
  | fullTraining (ch : Fin 12)
  /-- R386. The training record is written to the xSPI flash when the supply monitors permit. -/
  | trainingRecordWrite (ch : Fin 12)
  /-- R387. A 1 GiB block is initialised with zero data and valid check symbols. -/
  | initBlockDone (ch : Fin 12)
  /-- R384. A channel serves a read of a codeword and returns data or an error response. -/
  | memRead (pa : BitVec 48) (stay : Bool)
  /-- R368. A channel accepts a full-codeword write, to both sides of a mirror. -/
  | memWrite (pa : BitVec 48) (data : BitVec 512) (stay : Bool)
  /-- R366. A write of fewer than 64 bytes is performed as read, merge and write, refused when the read is
  uncorrectable. -/
  | memPartialWrite (pa : BitVec 48) (bs : List Byte)
  /-- R369. The copy onto a returned mirror channel ends and DEGRADED clears. -/
  | mirrorRebuildDone (n : Fin 16)
  /-- R370. A write of 1 to SPARE_GO starts the copy of a rank onto the spare rank. -/
  | spareGo (ch : Fin 12) (cfg : Word)
  /-- R370. The rank copy ends; accesses go to the spare rank and SPARE_STATE is in use. -/
  | spareCopyDone (ch : Fin 12)
  /-- R371. Patrol scrub reads the next codeword and writes back any correction. -/
  | patrolScrubRead (ch : Fin 12)
  /-- R380. An all-bank refresh falls due and is issued or postponed under panic up to four intervals. -/
  | refreshDue (ch : Fin 12)
  /-- R380. Every 32 ms the channel reads DRAM mode register 4 and may halve tREFI. -/
  | refreshRatePoll (ch : Fin 12) (half : Bool)
  /-- R373. A bank idle for OPEN_IDLE × 8 ns closes its open row. -/
  | openRowIdleClose (ch : Fin 12) (bank : Fin 1024)
  /-- R389. Every 1 ms the channel performs ZQ calibration and DQS tracking. -/
  | zqCalibration (ch : Fin 12)
  /-- R399. An active edge of an edge source sets PEND, merging with a pending one. -/
  | eventEdge (n : BitVec 12)
  /-- R400. A level source becomes active or inactive. -/
  | eventLevelChange (n : BitVec 12) (on : Bool)
  /-- R400. A write of 1 to EOI clears INSERV, and a still-active level sends a new message. -/
  | eventEoi (by_ : Agent) (n : BitVec 12)
  /-- R398. An S-level write to EV_SRC changes only MASK and EOI of a source targeted at the issuer's
  partition. -/
  | eventSourceSWrite (c : CoreId) (n : BitVec 12) (v : Word)
  /-- R403. The controller sends a message that sets its vector in the target inbox. -/
  | eventMessageDelivery (n : BitVec 12)
  /-- R407. Writing 1 to a CORE_INBOX bit discards that pending vector. -/
  | coreInboxDiscard (by_ : Agent) (c : CoreId) (k : Fin 4) (mask : Word)
  /-- R411. A permitted write stores a message and raises the message source, or is refused when FULL. -/
  | mbxMsgWrite (by_ : Agent) (m : Fin 260) (v : Word)
  /-- R412. An acknowledge stores CODE, clears FULL, sets ACKED and informs the sender. -/
  | mbxAckWrite (by_ : Agent) (m : Fin 260) (v : Word)
  /-- R414. A W1S write sets doorbell bits; bits 30 and 31 only by the keeper. -/
  | mbxBellSet (by_ : Agent) (m : Fin 260) (v : Word)
  /-- R414. A W1C write to MBX_BELLCLR clears doorbell bits. -/
  | mbxBellclr (by_ : Agent) (m : Fin 260) (v : Word)
  /-- R411. The owner clears OVERRUN by writing 1. -/
  | mbxOverrunClear (by_ : Agent) (m : Fin 260)
  /-- R424. A replica's mailbox write is matched by ordinal and performed once on a majority, refused or
  left waiting. -/
  | replicaMailboxWrite (c : CoreId) (off : BitVec 16) (v : Word)
  /-- R420. Keeper service 0x001 writes device ID, serial, firmware version and TRUST_DEGRADED. -/
  | svcInfo (m : Fin 4)
  /-- R420. Keeper service 0x002 writes the caller's oldest unread notice. -/
  | svcNoticeRead (m : Fin 4)
  /-- R726. Keeper service 0x003 writes log entries of the caller's partition and of severity device. -/
  | svcLogRead (m : Fin 4)
  /-- R337. Keeper service 0x010 clears LOST of an exchange range. -/
  | svcLostClear (m : Fin 4)
  /-- R615. RESTRUCTURE operation 0x01 widens a window through a dual epoch. -/
  | restructureGrow (m : Fin 4)
  /-- R615. RESTRUCTURE operation 0x02 narrows a window through a strict epoch. -/
  | restructureShrink (m : Fin 4)
  /-- R614. RESTRUCTURE operation 0x03, or the keeper, moves a logical core to another physical core. -/
  | restructureMove (m : Option (Fin 4)) (p l : Fin 256) (a b c : BitVec 16)
  /-- R614. RESTRUCTURE operation 0x04 changes the partition's tier up or down. -/
  | restructureChangeTier (m : Fin 4)
  /-- R420. Keeper service 0x030 acknowledges and then resets the calling single-tier partition. -/
  | svcPartReset (m : Fin 4)
  /-- R716. HAREBELL operation 0x01 sets the latch of trigger 6 with a message. -/
  | harebellStart (m : Fin 4)
  /-- R716. HAREBELL operation 0x02 clears the latch of a trigger. -/
  | harebellStop (m : Fin 4)
  /-- R716. HAREBELL operation 0x03 writes a Harebell setting and journals it. -/
  | harebellWriteSetting (m : Fin 4)
  /-- R692. Keeper service 0x050 writes the measurements and a signed quote, or zero signature when keys are
  locked. -/
  | svcMeasRead (m : Fin 4)
  /-- R657. POWER operation 0x01 writes CORE_PWR of a logical core. -/
  | powerNapSetting (m : Fin 4)
  /-- R658. POWER operation 0x02 records a request to hold the clusters of the caller's cores. -/
  | powerHold (m : Fin 4)
  /-- R657. POWER operation 0x03 casts or withdraws the partition's Deep vote. -/
  | powerDeepVote (m : Fin 4)
  /-- R659. POWER operation 0x04 releases the pad groups that the caller may release. -/
  | powerPadRelease (m : Fin 4)
  /-- R421. A call of a reserved service is acknowledged with code 0x0000_0001. -/
  | svcUnknown (m : Fin 4)
  /-- R433. A write of EN = 1 starts a cadence at the first block at least 64 µs later. -/
  | cadenceEnable (c : Fin 16) (cfg : Word)
  /-- R433. A write of EN = 0 lets the block in progress finish and starts no further block. -/
  | cadenceDisable (c : Fin 16)
  /-- R430. DT reaches DT_start(b) of a cadence. -/
  | blockStart (c : Fin 16)
  /-- R431. DT reaches DT_start(b) + GUARD; CAD_BSN advances and WAITB may return block b. -/
  | blockEvent (c : Fin 16)
  /-- R437. At DT_start(k + 1 + LO) the engine zero-fills missing samples and writes the slot header. -/
  | captureClose (se : Fin 4) (n : Fin 64)
  /-- R448. A received stream packet is checked in order and its samples written into open capture blocks.
  -/
  | rxPacket (se : Fin 4) (p : Pkt) (occ : Nat)
  /-- R453. An enabled stream has no accepted packet for two block periods and raises stream lost. -/
  | streamLost (se : Fin 4) (st : Fin 1024)
  /-- R453. One path of a dual stream has no accepted copy for two block periods. -/
  | pathLost (se : Fin 4) (st : Fin 1024) (pathB : Bool)
  /-- R455. A transmit stream sends the packet for a run of samples after its last sample instant. -/
  | txPacket (se : Fin 4) (st : Fin 1024) (occ : Nat)
  /-- R445. A reload of a stream reads its descriptor and map, taking effect at the next block start. -/
  | seReload (se : Fin 4) (tx : Bool) (stream : Fin 1024)
  /-- R464. A slave TDM port receives a frame into its FIFO, dropping the oldest when full. -/
  | tdmFrameReceived (p : Fin 16) (f : List Nat) (syncOk : Bool)
  /-- R462. At DT(m + 1) the port hands the engine its oldest input frame as sample m. -/
  | tdmInputHandoff (p : Fin 16) (f : List Nat)
  /-- R463. At DT(m) the engine hands the port output sample m. -/
  | tdmOutputHandoff (p : Fin 16)
  /-- R465. A slave port sees no bit clock edge for 2 µs; CLK_OK clears and inputs read zero. -/
  | tdmClockLost (p : Fin 16)
  /-- R465. Clocks return; the port refills its FIFOs and sets CLK_OK. -/
  | tdmClockRestored (p : Fin 16)
  /-- R479. The commit stage finishes hashing a replica's output slot for a block. -/
  | hashReady (se : Fin 4) (g : Fin 32) (r : Fin 3) (b : Nat)
  /-- R480. D(b) passes; late replicas are marked and an undecided block is concealed. -/
  | commitDeadline (se : Fin 4) (g : Fin 32) (b : Nat)
  /-- R482. At the play-block start the engine plays the released slot, or a concealed block. -/
  | playBlock (se : Fin 4) (g : Fin 32)
  /-- R484. A write to a LIVE bit takes effect at the next block start of the group's cadence. -/
  | liveWrite (se : Fin 4) (g : Fin 32) (live : BitVec 3)
  /-- R496. After an outvote or failure record the keeper fences the replica's clusters and clears its LIVE
  bits. -/
  | replicaFence (p : Fin 256)
  /-- R499. The state-copy engine starts copying the donor to the new replica. -/
  | rejoinStart (p : Fin 256) (ix : Fin 3)
  /-- R500. A copy pass ends; another pass, the final delta, or after eight passes an abandon follows. -/
  | rejoinPassEnd (p : Fin 256)
  /-- R500. 1 s after an abandon the rejoin starts again. -/
  | rejoinRetry (p : Fin 256)
  /-- R501. At a block start with the donor in WAITB, LIVE is written and the final delta copy begins. -/
  | rejoinFinalDelta (p : Fin 256)
  /-- R503. The delta is copied; donor and new replica return from the same WAITB. -/
  | rejoinDone (p : Fin 256)
  /-- R508. The peer's capture slot arrives and is merged stream by stream with the own slot. -/
  | twinInputArrival (se : Fin 4) (n : Fin 64) (k : Nat) (slot : List Byte)
  /-- R509. The peer's slot has not arrived in time; the own slot is used and SOLO_IN set. -/
  | twinInputDeadline (se : Fin 4) (n : Fin 64) (k : Nat)
  /-- R510. The peer's commit decision and hash arrive. -/
  | twinDecisionArrival (se : Fin 4) (g : Fin 32) (b : Nat) (hash : Option Nat)
  /-- R510. At DT_start(b + 2) − LEAD / 2 the device acts on its own and the peer's decisions. -/
  | twinAction (se : Fin 4) (g : Fin 32) (b : Nat)
  /-- R517. A write changing MODE or TWIDTH takes the quad's ports and links down and starts the new mode.
  -/
  | laneModeChange (q : Fin 10) (v : Word)
  /-- R521. A received Ethernet frame is sorted to discard, a stream engine, the keeper or the receive ring.
  -/
  | ethRxFrame (p : Fin 42) (b : List Byte) (fcsOk unc : Bool) (occ : Nat)
  /-- R522. A port sends the next waiting frame in priority order. -/
  | ethTxFrame (p : Fin 42)
  /-- R524. Software advances TAIL, handing descriptors to the hardware. -/
  | ringTailWrite (by_ : Agent) (r : Fin 84) (tail : BitVec 16)
  /-- R524. The hardware completes a descriptor, sets DONE, advances HEAD and raises source 4 or 5. -/
  | ringDescriptorDone (p : Fin 42) (tx : Bool)
  /-- R526. A write of EN = 1 enables a ring only when it lies in an exchange range. -/
  | ringEnable (by_ : Agent) (r : Fin 84) (base : Word)
  /-- R526. A write of EN = 0 stops the ring after the frame in progress. -/
  | ringDisable (by_ : Agent) (r : Fin 84)
  /-- R536. Signal is detected on every lane and the link enters Training. -/
  | linkSignalDetect (l : Fin 40)
  /-- R536. PMA adaptation and FEC alignment complete and the link enters Identifying. -/
  | linkTrainingDone (l : Fin 46) (speed : BitVec 3) (width : BitVec 4)
  /-- R536. Training does not complete within 200 ms and the link returns to Down. -/
  | linkTrainingTimeout (l : Fin 40)
  /-- R536. 1 s after a failed training the link enters Training again. -/
  | linkRetryTimer (l : Fin 40)
  /-- R537. An identification frame is checked; the link is refused or enters Measuring. -/
  | linkIdentification (l : Fin 40) (peer : BitVec 12) (width : BitVec 3)
  /-- R538. An echo reply completes a round trip; after 16 the link is up with MEAS computed. -/
  | linkEchoReply (l : Fin 40) (rtt turnaround : Nat)
  /-- R538. Every 1 ms an up link measures its delay again and records excess delay. -/
  | linkMeasurePeriod (l : Fin 40) (rtt turnaround : Nat)
  /-- R539. A lane loses signal and the link goes down, discarding held frames. -/
  | linkSignalLoss (l : Fin 42)
  /-- R539. No frame arrives for 1 µs and the link goes down. -/
  | linkFrameTimeout (l : Fin 40)
  /-- R534. A Trelub frame is received, checked, delivered in LSEQ order or forwarded. -/
  | trelubFrameRx (l : Fin 40) (b : List Byte) (unc : Bool)
  /-- R534. A NAK makes the sender resend from the named LSEQ; the eighth NAK of a frame takes the link
  down. -/
  | trelubNakRx (l : Fin 40) (lseq : BitVec 16)
  /-- R542. Every 100 µs a device advertises its link delays and states. -/
  | routeAdvertisement (dst : Option (BitVec 12)) (sec : Bool) (sum : Option (BitVec 32))
  /-- R544. A write to a proxy sets FULL and sends the message to the far proxy, or is refused. -/
  | rmbxMsgWrite (by_ : Agent) (r : Fin 16) (v : Word)
  /-- R545. The receiving device delivers a proxy message as a keeper write, or refuses it. -/
  | proxyMessageRx (src : BitVec 12) (far r : Fin 16) (v : Word)
  /-- R546. A delivery, refusal or acknowledge returns to the sending proxy. -/
  | proxyAnswerRx (r : Fin 16) (kind : Fin 3) (code : BitVec 32)
  /-- R546. No answer within 100 µs, or route withdrawn, sets LOST and clears FULL. -/
  | proxyTimeout (r : Fin 16)
  /-- R549. The exporting device checks and performs an inbound Memory-class request. -/
  | remoteMemoryRequest (src : BitVec 12) (idx : Fin 32) (off : BitVec 36) (write : Option (BitVec 512 × BitVec 64))
  /-- R550. A Memory-class request has no answer within 12 µs and completes with remote timeout. -/
  | remoteTimeout (pa : BitVec 48)
  /-- R551. A Maintenance time frame from the peer updates the time base offset. -/
  | trelubTimeFrame (value : Word) (sub : BitVec 3) (trim : BitVec 32)
  /-- R555. A read of PCIE_CFGD performs a configuration read at PCIE_CFGA. -/
  | pcieConfigRead (by_ : Agent) (g : Fin 4)
  /-- R555. A write of PCIE_CFGD performs a configuration write with byte enables. -/
  | pcieConfigWrite (by_ : Agent) (g : Fin 4) (v : Word)
  /-- R556. An access to pages 8–14 becomes a PCIe memory access through PCIE_AP. -/
  | pcieApertureAccess (by_ : Agent) (g : Fin 4) (off : BitVec 16) (wide : Bool) (w : Option Word)
  /-- R555. A completion arrives for an outbound request and answers it. -/
  | pcieCompletion (g : Fin 4) (status : Fin 4) (data : Word)
  /-- R557. No completion within CTO; the request completes with PCIe timeout. -/
  | pcieCompletionTimeout (g : Fin 4)
  /-- R558. An inbound access is performed only inside an exchange range with PCIE = 1. -/
  | pcieInboundAccess (g : Fin 4) (pa : BitVec 48) (len : Fin 4097) (write : Option (List Byte))
  /-- R559. A write to the MSI address raises event source 0xC00 + 256 × p + v, or is discarded. -/
  | pcieMsi (g : Fin 4) (data : BitVec 32)
  /-- R560. An uncorrectable AER error raises a contained record. -/
  | pcieAerError (g : Fin 4)
  /-- R560. Loss of the link ends every outstanding request with an error response. -/
  | pcieLinkLoss (g : Fin 4)
  /-- R587. The keeper checks an image against every rule and writes its registers. -/
  | imageLoad
  /-- R604. The keeper posts the apply phase of a dual mode. -/
  | epochPostApplyDual (mode part : BitVec 8) (all : Bool) (values : List (Nat × Nat × Word))
  /-- R603. The keeper posts quiesce; units hold traffic of the held kind. -/
  | epochPostQuiesce (mode part : BitVec 8) (all : Bool)
  /-- R604. The keeper posts the apply phase of a strict mode. -/
  | epochPostApplyStrict (values : List (Nat × Nat × Word))
  /-- R605. The keeper posts resume; units issue held traffic and the epoch completes. -/
  | epochPostResume
  /-- R597. A unit reaches its safe point with old transactions complete and acknowledges the phase. -/
  | epochUnitAck (u : BitVec 16)
  /-- R611. BOUND passes without an acknowledgement; the posting is resent and RETRIED set. -/
  | epochLaggardRetry (die : Fin 6)
  /-- R612. A second BOUND passes; a fenced record is raised and the keeper fences and replaces the unit. -/
  | epochLaggardFence (die : Fin 6)
  /-- R609. A sender that got epoch retry sends the transaction again after taking the new epoch. -/
  | epochRetryResend (u : BitVec 16)
  /-- R621. Doze has lasted NAP_DELAY with NAP_EN = 1 and the core enters Nap. -/
  | napEntry (c : CoreId)
  /-- R623. 4 µs after a wake the napping core issues again. -/
  | napExit (c : CoreId)
  /-- R624. A core napping in WAITB is woken at DT_start(b) of the awaited block. -/
  | napEarlyWake (c : CoreId)
  /-- R625. The keeper sets HOLD of a cluster, which flushes, saves and powers down, or is refused. -/
  | holdRequest (k : Fin 72) (fail : BitVec 8)
  /-- R639. A wake request for a held cluster closes its power switches, or aborts an entry in progress. -/
  | holdExitRequest (k : Fin 72)
  /-- R639. 20 µs after the wake the cluster is in Run with records restored. -/
  | holdExitComplete (k : Fin 72) (crcOk : Bool)
  /-- R630. A write of OFF = 1 switches the region off when every cluster is held and no core is placed. -/
  | regionOffRequest (g : Fin 8)
  /-- R639. A write of OFF = 0 commands the rail to its fallback set point. -/
  | regionOnRequest (g : Fin 8)
  /-- R639. 200 µs later the region's clusters enter Hold. -/
  | regionOnComplete (g : Fin 8)
  /-- R632. A write of DEEP_CTL.ENTER latches pads, isolates domains and removes hub and core power. -/
  | deepEnter
  /-- R639. A qualified wake source starts Deep exit, or aborts an entry in progress. -/
  | deepWake (src : BitVec 4)
  /-- R639. A fixed time after the wake, the next event of the Deep exit sequence takes place with its
  condition checked. -/
  | deepExitStep (ok : Bool)
  /-- R635. Half the sentinel period passes in Deep and a keeper-only wake runs. -/
  | deepSentinelWake
  /-- R695. After Deep exit the keeper re-hashes resident objects and releases partitions or boots from B1.
  -/
  | fastPathRehash (areaOk : Bool)
  /-- R645. A write to PAD_RELEASE releases pad groups at one instant, deferred for groups Harebell holds.
  -/
  | padReleaseWrite (mask : BitVec 10)
  /-- R646. A rail stays below a monitor level for 2 µs and the action of Table 15-7 follows. -/
  | supplyMonitorTrip (r : Fin 15) (reset : Bool)
  /-- R648. The energy reserve becomes charged and RESERVE_OK is set. -/
  | reserveCharged
  /-- R649. The keeper writes a journal record body and then its commit word. -/
  | journalRecordWrite (kind : Fin 6)
  /-- R649. A fuse word is programmed within 20 µs, under the inhibit and reserve rules. -/
  | fuseProgram
  /-- R651. PWR_GOOD low or a VAON or VIO monitor resets every unit, the always-on domain, time base and
  Harebell. -/
  | powerOnReset
  /-- R651. WARM_N, the keeper, a monitor or the sentinel resets every unit of dies 0–5. -/
  | warmReset (byPin : Bool)
  /-- R651. A die reset from R44 or the keeper resets every unit of one die. -/
  | dieReset (die : Fin 6)
  /-- R651. The keeper or the VDD_CORE monitor resets a region's clusters and retention SRAM. -/
  | regionReset (g : Fin 8)
  /-- R651. The keeper resets a cluster's cores, L2, L3 slice and local mesh ports. -/
  | clusterReset (k : Fin 72)
  /-- R822. A partition's cores and mailboxes are reset, rings disabled, loader recopied and the partition
  released. -/
  | partitionReset (p : Fin 256)
  /-- R651. The keeper resets one physical core, its L1s and local store. -/
  | coreReset (c : CoreId)
  /-- R651. TRST_N or a debugger command resets the debug domain; halted cores resume and unlocks clear. -/
  | debugDomainReset
  /-- R793. PWR_GOOD goes high; after the filter the straps are latched and B0 starts. -/
  | pwrGoodRise
  /-- R661. B0 starts, chooses the slot, releases group 8 and copies the bundle and B1. -/
  | b0Start (golden bench button : Bool) (dir : Option (List Byte))
  /-- R662. The copy engine finishes copying and hashing an object, which is then checked. -/
  | copyEngineDone (e : Fin 62) (bytes : Option (List Byte))
  /-- R667. A stage locks the keeper SRAM sections and hands over to the next stage. -/
  | stageHandover
  /-- R684. B0 writes the checked bundle's message table and arms Harebell. -/
  | harebellArm
  /-- R676. The keeper programs a key slot from a key record that passes its checks. -/
  | keyRecord (e : Fin 62)
  /-- R676. The keeper programs a revocation bit from a revocation record that passes its checks. -/
  | revocationRecord (e : Fin 62)
  /-- R687. The keeper copies, checks and measures a partition loader into its target. -/
  | loaderCopy (p : Fin 256)
  /-- R688. The keeper releases a partition's cores at their reset vectors with k0 under R473. -/
  | partitionRelease (p : Fin 256)
  /-- R682. The service button held for 4 s while running causes a warm reset into slot B. -/
  | serviceButtonHeld
  /-- R683. 60 s after every boot-released partition, the keeper sets SETTLED and clears SENT_A. -/
  | slotSettled
  /-- R699. Writing 1 to ERR_STATUS.VALID frees the error record. -/
  | errValidClear (u : BitVec 16)
  /-- R709. A Harebell trigger becomes active or inactive. -/
  | harebellTriggerActive (t : Fin 7) (on : Bool)
  /-- R710. At a 1 ms media-count boundary a new winning trigger's message starts, or playing ends. -/
  | harebellWinnerChange
  /-- R711. A message without the loop flag ends; a latched trigger clears. -/
  | harebellMessageEnd
  /-- R711. HB_CMD SET bits set trigger latches. -/
  | hbCmdSet (set : BitVec 7) (msg6 : BitVec 4)
  /-- R711. HB_CMD CLEAR bits clear trigger latches, unless SET of the same trigger is written. -/
  | hbCmdClear (clear set : BitVec 7) (msg6 : BitVec 4)
  /-- R714. While playing, Harebell sends one AES67 packet on MGT0 every 1 ms. -/
  | harebellNetPacket
  /-- R718. A pet from the active keeper pair restarts the sentinel; others are refused. -/
  | sentinelPet (by_ : Agent)
  /-- R717. The sentinel expires; trigger 0 latches, the record is logged and a warm reset follows. -/
  | sentinelExpiry
  /-- R721. A pet restarts a partition watchdog and returns STAGE to 0. -/
  | watchdogPet (by_ : Agent) (l : Fin 256)
  /-- R721. A write to WDOG_CFG configures the watchdog and restarts its count. -/
  | watchdogConfigWrite (by_ : Agent) (l : Fin 256) (v : Word)
  /-- R721. The first period passes and the vector is delivered to the core's inbox. -/
  | watchdogFirstExpiry (l : Fin 256)
  /-- R721. The second period passes; record 0x0702 is raised and the keeper acts on ACT. -/
  | watchdogSecondExpiry (l : Fin 256)
  /-- R724. An entry reaches the A-class log over the log link, or is counted in LOST. -/
  | errorLogEntry (die : Fin 6)
  /-- R724. A keeper write to ELOG_IN[3] commits a new log entry. -/
  | elogInCommit (v : Word)
  /-- R728. A GPIO level held for the filter time reaches events, Harebell and the wake logic. -/
  | gpioFilterSettle (n : Fin 64) (level : Bool)
  /-- R728. An ALARM_IN level held for FILT_MS becomes active or inactive. -/
  | alarmFilterSettle (n : Fin 4) (level : Bool)
  /-- R729. A write of RH_KEY to CRB_KEY, or a full-level debug write, unlocks Crumble. -/
  | crumbleUnlock (u : BitVec 16) (key : Word)
  /-- R730. DURATION ms after unlock Crumble locks and clears page 3. -/
  | crumbleAutoLock (u : BitVec 16)
  /-- R734. At the device's second of the day the keeper starts, waits for the twin peer, or skips the
  rehearsal. -/
  | rehearsalStart (peerBusy : Bool)
  /-- R734. The peer still rehearses after 300 s and the night is skipped. -/
  | rehearsalPeerTimeout
  /-- R736. A rehearsal step completes and the next one begins. -/
  | rehearsalStep (good : Bool)
  /-- R739. EXTEST drives the pads in bench mode, otherwise acts as BYPASS. -/
  | tapExtest
  /-- R739. SAMPLE/PRELOAD samples the pads. -/
  | tapSamplePreload
  /-- R739. DBGACC selects the 128-bit debug access register. -/
  | tapDbgacc
  /-- R739. BYPASS, or any other instruction, selects the 1-bit bypass. -/
  | tapBypass
  /-- R740. A debug access frame reads or writes one register within the level in effect. -/
  | debugAccess (write side : Bool) (pa : BitVec 48) (v : Word) (silent : Bool)
  /-- R742. No answer within the class 5 bound; the access is answered unresponsive. -/
  | debugAccessTimeout
  /-- R744. NEWCHAL draws a new nonce into DBG_CHAL. -/
  | unlockNewchal (v : Word)
  /-- R745. GO starts the verification of the debugger's key and signature. -/
  | unlockGo (part : BitVec 8) (level : BitVec 2)
  /-- R745. Verification ends; the level is granted or refused and MEAS_7 extended. -/
  | unlockVerified
  /-- R747. RELOCK returns a partition to level none. -/
  | unlockRelock (part : BitVec 8)
  /-- R749. Run-control command halt posts a halt request to a core. -/
  | cdbgHalt (c : CoreId)
  /-- R749. The core reaches a permitted boundary and halts, squashing younger instructions. -/
  | haltTaken (c : CoreId) (inDivide : Bool)
  /-- R753. A halt not taken within the class 5 bound is answered unresponsive and stays posted. -/
  | haltUnresponsive (c : CoreId)
  /-- R761. Resume continues from CDBG_PC, or rebuilds a withdrawn replica by rejoin. -/
  | cdbgResume (c : CoreId)
  /-- R751. Step executes exactly one instruction and halts again. -/
  | cdbgStep (c : CoreId)
  /-- R751. Step-region runs until a successful SCOM or 64 retirements and halts. -/
  | cdbgStepRegion (c : CoreId)
  /-- R767. The debug bus master starts one checked 8- or 64-byte access. -/
  | dbmGo (ctl : Word)
  /-- R767. A debug bus master access completes and DBM_STAT records its result. -/
  | dbmDone
  /-- R771. A partition write stores up to seven bytes, or is discarded with OVERRUN when full. -/
  | vtOutWrite (c : CoreId) (p : Fin 256) (v : Word)
  /-- R771. The debugger writes 1 to FULL and empties VT_OUT. -/
  | vtOutEmpty (p : Fin 256)
  /-- R772. A debugger write stores bytes in VT_IN, or is refused when full. -/
  | vtInWrite (p : Fin 256) (v : Word)
  /-- R772. The partition writes 1 to FULL and empties VT_IN. -/
  | vtInEmpty (c : CoreId) (p : Fin 256)
  /-- R774. A write of TRC_SRC binds a source to a session, refused for a shared source already in use. -/
  | traceSourceConfig (u : BitVec 16) (v : Word)
  /-- R776. A write of TS_CTL configures a session, refused for a memory sink of a replicated partition. -/
  | traceSessionConfig (k : Fin 16) (v : Word)
  /-- R781. An armed session takes its first trigger, records DT_trig and writes a trigger packet. -/
  | traceTrigger (k : Fin 16) (cause : BitVec 2) (src : BitVec 12)
  /-- R781. A write of NOW triggers the session at once. -/
  | traceNow (k : Fin 16)
  /-- R782. DT_trig + POST passes; funnels accept no more packets and write stop packets. -/
  | traceWindowClose (k : Fin 16)
  /-- R782. Every accepted packet reaches the sink, or a ring fills with WRAP = 0, and STOPPED is set. -/
  | traceSessionStopped (k : Fin 16)
  /-- R778. Every 16 s each funnel emits a time packet for each session. -/
  | traceTimePacket (f : Fin 10)
  /-- R621. The external supplies are removed; the device enters Off, class A contents, retained memory, the
  error log and unlocked debug levels are lost, and the energy reserve carries any non-volatile write in
  progress. -/
  | powerRemoval
  /-- R646. A monitored rail rises back above its inhibit or reset level, so its SUPPLY_STAT low bit clears
  and, when no other rail is low and the reserve is charged, INHIBIT clears and non-volatile writes may
  start again. -/
  | supplyMonitorRecovery (r : Fin 15)
  /-- R551. Every 1 ms a device that serves as the time peer sends a Maintenance time frame carrying its
  network time at the frame's first bit on the link. -/
  | trelubTimeFrameSend (l : Fin 40)
  deriving DecidableEq, Repr

end Sys2Proof
end

