-- ==== Sys2Proof/WellFormed.lean ====
section
/-!
DEFINITION. Well-formed commands: an instruction whose field values are legal. An ill-formed one is an instruction that raises the
illegal-instruction cause; events and register commands are always well-formed.
-/
namespace Sys2Proof

open Sys2Proof.Machine

/-- Whether the operands of a command are legal values of its encoding. -/
def Instr.wf : Instr → Bool
  | .slli _ _ _ wide sh | .srli _ _ _ wide sh | .srai _ _ _ wide sh => shiftOk wide sh
  | .fence _ sets => fenceOk sets
  | .vslli _ _ _ n half | .vsrli _ _ _ n half | .vsrai _ _ _ n half | .vslsi _ _ _ n half => laneShiftOk n half
  | .vmul _ _ _ _ ty hi | .vmac _ _ _ _ ty hi | .vmsu _ _ _ _ ty hi => mulOk ty hi
  | .vmacx _ _ _ _ ty hi _ | .vmsux _ _ _ _ ty hi _ | .vdot _ _ _ _ ty hi _ | .vdotn _ _ _ _ ty hi _ => mulOk ty hi
  | .vbiq _ vd _ vs vc rm => biqOk vd vs vc rm
  | .vnrw _ _ _ fmt hi rm byReg sh | .vnrwc _ _ _ fmt hi rm byReg sh => narrowOk fmt hi rm byReg sh
  | .vqwid _ _ _ fmt hi | .vqacc _ _ _ fmt hi => fmtHiOk fmt hi
  | .vramp _ vd _ vg rm => rampOk vd vg rm
  | .vmvlw _ _ _ k half | .vinsw _ _ _ k half => laneIxOk k half
  | _ => true

end Sys2Proof
end

