-- ==== Sys2Proof/Decode.lean ====
section
/-!
DEFINITION. The encoding of Lysratre instructions (R105-R111, R131, R139-R141, R177-R198, R815): a decoder from a 32-bit word, which
refuses every word that R108 and R179 make illegal, and an encoder from the same tables. The rows of the opcode table give no
bits, so no table word spells a command.
-/
namespace Sys2Proof

/-- The command that a word of the opcode table spells: its rows give no bits. DESIGN CHOICE, log entry 5. -/
def decodeTableWord (_nbits _w : Nat) : Option Instr := none

/-! Fields of a word. -/

/-- `n` bits from place `lo`. -/
def fNat (w lo n : Nat) : Nat := w / 2 ^ lo % 2 ^ n
/-- A register field of 5 bits. -/
def fReg (w lo : Nat) : RIx := ⟨w / 2 ^ lo % 32, Nat.mod_lt _ (by decide)⟩
/-- An accumulator field of 3 bits. -/
def fAcc (w lo : Nat) : QIx := ⟨w / 2 ^ lo % 8, Nat.mod_lt _ (by decide)⟩
/-- A field of one bit. -/
def fBit (w lo : Nat) : Bool := w / 2 ^ lo % 2 == 1
/-- A field of `n` bits as a bit vector. -/
def fBits (w lo n : Nat) : BitVec n := BitVec.ofNat n (w / 2 ^ lo)
/-- Whether fields that must hold fixed values do: place, width and value of each. -/
def fixed (w : Nat) (fs : List (Nat × Nat × Nat)) : Bool := fs.all (fun f => fNat w f.1 f.2.1 == f.2.2)
/-- An instruction, provided that fixed fields hold their values. -/
def need (w : Nat) (fs : List (Nat × Nat × Nat)) (i : Instr) : Option Instr := if fixed w fs then some i else none

/-- Major opcode 0x1: ALU (Table 3-3). -/
def decX1 (c : CoreId) (w : Nat) : Option Instr :=
  match fNat w 0 11 with
  | 0x0 => some (.add c (fReg w 21) (fReg w 16) (fReg w 11))
  | 0x1 => some (.sub c (fReg w 21) (fReg w 16) (fReg w 11))
  | 0x2 => some (.and c (fReg w 21) (fReg w 16) (fReg w 11))
  | 0x3 => some (.or c (fReg w 21) (fReg w 16) (fReg w 11))
  | 0x4 => some (.xor c (fReg w 21) (fReg w 16) (fReg w 11))
  | 0x5 => some (.andn c (fReg w 21) (fReg w 16) (fReg w 11))
  | 0x8 => some (.sll c (fReg w 21) (fReg w 16) (fReg w 11))
  | 0x9 => some (.srl c (fReg w 21) (fReg w 16) (fReg w 11))
  | 0xA => some (.sra c (fReg w 21) (fReg w 16) (fReg w 11))
  | 0xB => some (.ror c (fReg w 21) (fReg w 16) (fReg w 11))
  | 0x10 => some (.seq c (fReg w 21) (fReg w 16) (fReg w 11))
  | 0x11 => some (.sne c (fReg w 21) (fReg w 16) (fReg w 11))
  | 0x12 => some (.slt c (fReg w 21) (fReg w 16) (fReg w 11))
  | 0x13 => some (.sltu c (fReg w 21) (fReg w 16) (fReg w 11))
  | 0x14 => some (.sle c (fReg w 21) (fReg w 16) (fReg w 11))
  | 0x15 => some (.sleu c (fReg w 21) (fReg w 16) (fReg w 11))
  | 0x18 => some (.min c (fReg w 21) (fReg w 16) (fReg w 11))
  | 0x19 => some (.max c (fReg w 21) (fReg w 16) (fReg w 11))
  | 0x1A => some (.minu c (fReg w 21) (fReg w 16) (fReg w 11))
  | 0x1B => some (.maxu c (fReg w 21) (fReg w 16) (fReg w 11))
  | 0x20 => some (.addv c (fReg w 21) (fReg w 16) (fReg w 11))
  | 0x21 => some (.subv c (fReg w 21) (fReg w 16) (fReg w 11))
  | 0x100 => some (.addw c (fReg w 21) (fReg w 16) (fReg w 11))
  | 0x101 => some (.subw c (fReg w 21) (fReg w 16) (fReg w 11))
  | 0x108 => some (.sllw c (fReg w 21) (fReg w 16) (fReg w 11))
  | 0x109 => some (.srlw c (fReg w 21) (fReg w 16) (fReg w 11))
  | 0x10A => some (.sraw c (fReg w 21) (fReg w 16) (fReg w 11))
  | 0x120 => some (.addvw c (fReg w 21) (fReg w 16) (fReg w 11))
  | 0x121 => some (.subvw c (fReg w 21) (fReg w 16) (fReg w 11))
  | 0x28 => need w [(11, 5, 0)] (.clz c (fReg w 21) (fReg w 16))
  | 0x29 => need w [(11, 5, 0)] (.ctz c (fReg w 21) (fReg w 16))
  | 0x2A => need w [(11, 5, 0)] (.popc c (fReg w 21) (fReg w 16))
  | 0x2B => need w [(11, 5, 0)] (.rev8 c (fReg w 21) (fReg w 16))
  | _ => none

/-- Major opcode 0x2: MULDIV (Table 3-4). -/
def decX2 (c : CoreId) (w : Nat) : Option Instr :=
  match fNat w 0 11 with
  | 0x0 => some (.mul c (fReg w 21) (fReg w 16) (fReg w 11))
  | 0x1 => some (.mulh c (fReg w 21) (fReg w 16) (fReg w 11))
  | 0x2 => some (.mulhu c (fReg w 21) (fReg w 16) (fReg w 11))
  | 0x4 => some (.mulv c (fReg w 21) (fReg w 16) (fReg w 11))
  | 0x8 => some (.div c (fReg w 21) (fReg w 16) (fReg w 11))
  | 0x9 => some (.divu c (fReg w 21) (fReg w 16) (fReg w 11))
  | 0xA => some (.rem c (fReg w 21) (fReg w 16) (fReg w 11))
  | 0xB => some (.remu c (fReg w 21) (fReg w 16) (fReg w 11))
  | 0x100 => some (.mulw c (fReg w 21) (fReg w 16) (fReg w 11))
  | 0x104 => some (.mulvw c (fReg w 21) (fReg w 16) (fReg w 11))
  | 0x108 => some (.divw c (fReg w 21) (fReg w 16) (fReg w 11))
  | 0x109 => some (.divuw c (fReg w 21) (fReg w 16) (fReg w 11))
  | 0x10A => some (.remw c (fReg w 21) (fReg w 16) (fReg w 11))
  | 0x10B => some (.remuw c (fReg w 21) (fReg w 16) (fReg w 11))
  | _ => none

/-- Major opcode 0x3: SEL (R118). -/
def decX3 (c : CoreId) (w : Nat) : Option Instr :=
  match fNat w 0 6 with
  | 0x0 => some (.sel c (fReg w 21) (fReg w 16) (fReg w 11) (fReg w 6))
  | _ => none

/-- Major opcode 0xB: SHI (R111). -/
def decXB (c : CoreId) (w : Nat) : Option Instr :=
  match fNat w 6 2 with
  | 0x0 => need w [(9, 7, 0)] (.slli c (fReg w 21) (fReg w 16) (fBit w 8) (fBits w 0 6))
  | 0x1 => need w [(9, 7, 0)] (.srli c (fReg w 21) (fReg w 16) (fBit w 8) (fBits w 0 6))
  | 0x2 => need w [(9, 7, 0)] (.srai c (fReg w 21) (fReg w 16) (fBit w 8) (fBits w 0 6))
  | 0x3 => need w [(8, 8, 0)] (.rori c (fReg w 21) (fReg w 16) (fBits w 0 6))
  | _ => none

/-- Major opcode 0x1C: MEMX (Table 3-6). -/
def decX1C (c : CoreId) (w : Nat) : Option Instr :=
  match fNat w 0 4 with
  | 0x0 => need w [(11, 5, 0), (6, 5, 0)] (.lres c (fReg w 21) (fReg w 16) (fBits w 4 2))
  | 0x1 => need w [(11, 5, 0), (6, 5, 0)] (.lresw c (fReg w 21) (fReg w 16) (fBits w 4 2))
  | 0x2 => need w [(6, 5, 0)] (.scom c (fReg w 21) (fReg w 16) (fReg w 11) (fBits w 4 2))
  | 0x3 => need w [(6, 5, 0)] (.scomw c (fReg w 21) (fReg w 16) (fReg w 11) (fBits w 4 2))
  | 0x4 => need w [(6, 5, 0)] (.aadd c (fReg w 21) (fReg w 16) (fReg w 11) (fBits w 4 2))
  | 0x5 => need w [(6, 5, 0)] (.aaddw c (fReg w 21) (fReg w 16) (fReg w 11) (fBits w 4 2))
  | 0x6 => need w [(6, 5, 0)] (.aswp c (fReg w 21) (fReg w 16) (fReg w 11) (fBits w 4 2))
  | 0x7 => need w [(6, 5, 0)] (.aswpw c (fReg w 21) (fReg w 16) (fReg w 11) (fBits w 4 2))
  | 0x8 => some (.acas c (fReg w 21) (fReg w 16) (fReg w 11) (fReg w 6) (fBits w 4 2))
  | 0x9 => some (.acasw c (fReg w 21) (fReg w 16) (fReg w 11) (fReg w 6) (fBits w 4 2))
  | 0xA => need w [(11, 5, 0), (6, 5, 0), (4, 2, 1)] (.lda c (fReg w 21) (fReg w 16))
  | 0xB => need w [(11, 5, 0), (6, 5, 0), (4, 2, 1)] (.ldaw c (fReg w 21) (fReg w 16))
  | 0xC => need w [(21, 5, 0), (6, 5, 0), (4, 2, 2)] (.stl c (fReg w 16) (fReg w 11))
  | 0xD => need w [(21, 5, 0), (6, 5, 0), (4, 2, 2)] (.stlw c (fReg w 16) (fReg w 11))
  | 0xE => need w [(11, 5, 0), (6, 5, 0), (4, 2, 0)] (.ldnt c (fReg w 21) (fReg w 16))
  | _ => none

/-- Major opcode 0x1D: CMO (Table 3-7). -/
def decX1D (c : CoreId) (w : Nat) : Option Instr :=
  match fNat w 21 5 with
  | 0x0 => some (.zline c (fReg w 16) (fBits w 0 16))
  | 0x1 => some (.clean c (fReg w 16) (fBits w 0 16))
  | 0x2 => some (.inv c (fReg w 16) (fBits w 0 16))
  | 0x3 => some (.flush c (fReg w 16) (fBits w 0 16))
  | 0x4 => some (.pref c (fReg w 16) (fBits w 0 16))
  | 0x5 => some (.prefw c (fReg w 16) (fBits w 0 16))
  | _ => none

/-- Major opcode 0x28: SYS (Table 3-8, R815). -/
def decX28 (c : CoreId) (w : Nat) : Option Instr :=
  match fNat w 12 4 with
  | 0x0 => need w [(16, 5, 0)] (.mfc c (fReg w 21) (fBits w 0 12))
  | 0x1 => need w [(21, 5, 0)] (.mtc c (fReg w 16) (fBits w 0 12))
  | 0x2 => some (.cset c (fReg w 21) (fReg w 16) (fBits w 0 12))
  | 0x3 => some (.cclr c (fReg w 21) (fReg w 16) (fBits w 0 12))
  | 0x4 => need w [(16, 10, 0)] (.svc c (fBits w 0 12))
  | 0x5 => need w [(16, 10, 0)] (.brk c (fBits w 0 12))
  | 0x6 => need w [(16, 10, 0), (0, 12, 0)] (.eret c)
  | 0x7 => need w [(16, 10, 0), (0, 12, 0)] (.waite c)
  | 0x8 => need w [(16, 5, 0), (4, 8, 0)] (.waitb c (fReg w 21) (fBits w 0 4))
  | 0x9 => need w [(16, 10, 0), (0, 12, 0)] (.syncC c)
  | 0xA => need w [(16, 10, 0), (0, 12, 0)] (.ifence c)
  | 0xB =>
    match fNat w 0 12 with
    | 0 => need w [(16, 10, 0)] (.tlbiAll c)
    | 1 => need w [(21, 5, 0)] (.tlbiAsid c (fReg w 16))
    | 2 => some (.tlbiVaAsid c (fReg w 21) (fReg w 16))
    | 3 => need w [(21, 5, 0)] (.tlbiVa c (fReg w 16))
    | _ => none
  | _ => none

/-- Major opcode 0x30: VALU (Table 4-5). -/
def decX30 (c : CoreId) (w : Nat) : Option Instr :=
  match fNat w 0 10 with
  | 0x0 => some (.vadd c (fReg w 21) (fReg w 16) (fReg w 11) (fBit w 10))
  | 0x1 => some (.vsub c (fReg w 21) (fReg w 16) (fReg w 11) (fBit w 10))
  | 0x2 => some (.vadds c (fReg w 21) (fReg w 16) (fReg w 11) (fBit w 10))
  | 0x3 => some (.vsubs c (fReg w 21) (fReg w 16) (fReg w 11) (fBit w 10))
  | 0x4 => some (.vmin c (fReg w 21) (fReg w 16) (fReg w 11) (fBit w 10))
  | 0x5 => some (.vmax c (fReg w 21) (fReg w 16) (fReg w 11) (fBit w 10))
  | 0x8 => some (.vand c (fReg w 21) (fReg w 16) (fReg w 11) (fBit w 10))
  | 0x9 => some (.vor c (fReg w 21) (fReg w 16) (fReg w 11) (fBit w 10))
  | 0xA => some (.vxor c (fReg w 21) (fReg w 16) (fReg w 11) (fBit w 10))
  | 0x20 => some (.vzipl c (fReg w 21) (fReg w 16) (fReg w 11) (fBit w 10))
  | 0x21 => some (.vziph c (fReg w 21) (fReg w 16) (fReg w 11) (fBit w 10))
  | 0x22 => some (.vuzpe c (fReg w 21) (fReg w 16) (fReg w 11) (fBit w 10))
  | 0x23 => some (.vuzpo c (fReg w 21) (fReg w 16) (fReg w 11) (fBit w 10))
  | 0x6 => need w [(11, 5, 0)] (.vabs c (fReg w 21) (fReg w 16) (fBit w 10))
  | 0x7 => need w [(11, 5, 0)] (.vneg c (fReg w 21) (fReg w 16) (fBit w 10))
  | 0x18 => need w [(11, 5, 0)] (.vnorm c (fReg w 21) (fReg w 16) (fBit w 10))
  | 0x10 => some (.vslli c (fReg w 21) (fReg w 16) (fBits w 11 5) (fBit w 10))
  | 0x11 => some (.vsrli c (fReg w 21) (fReg w 16) (fBits w 11 5) (fBit w 10))
  | 0x12 => some (.vsrai c (fReg w 21) (fReg w 16) (fBits w 11 5) (fBit w 10))
  | 0x13 => some (.vslsi c (fReg w 21) (fReg w 16) (fBits w 11 5) (fBit w 10))
  | _ => none

/-- Major opcode 0x31: VM (Table 4-6). -/
def decX31 (c : CoreId) (w : Nat) : Option Instr :=
  match fNat w 0 5 with
  | 0x0 => need w [(5, 4, 0)] (.vmul c (fAcc w 23) (fReg w 18) (fReg w 13) (fBits w 10 3) (fBit w 9))
  | 0x1 => need w [(5, 4, 0)] (.vmac c (fAcc w 23) (fReg w 18) (fReg w 13) (fBits w 10 3) (fBit w 9))
  | 0x2 => need w [(5, 4, 0)] (.vmsu c (fAcc w 23) (fReg w 18) (fReg w 13) (fBits w 10 3) (fBit w 9))
  | 0x3 => some (.vmacx c (fAcc w 23) (fReg w 18) (fReg w 13) (fBits w 10 3) (fBit w 9) (fBits w 5 4))
  | 0x4 => some (.vmsux c (fAcc w 23) (fReg w 18) (fReg w 13) (fBits w 10 3) (fBit w 9) (fBits w 5 4))
  | 0x5 => some (.vdot c (fAcc w 23) (fReg w 18) (fReg w 13) (fBits w 10 3) (fBit w 9) (fBits w 5 4))
  | 0x6 => some (.vdotn c (fAcc w 23) (fReg w 18) (fReg w 13) (fBits w 10 3) (fBit w 9) (fBits w 5 4))
  | _ => none

/-- Major opcode 0x33: VN (R187). -/
def decX33 (c : CoreId) (w : Nat) : Option Instr :=
  match fNat w 0 4 with
  | 0x0 => some (.vnrw c (fReg w 21) (fAcc w 18) (fBits w 15 3) (fBit w 14) (fBits w 12 2) (fBit w 11) (fBits w 4 7))
  | 0x1 => some (.vnrwc c (fReg w 21) (fAcc w 18) (fBits w 15 3) (fBit w 14) (fBits w 12 2) (fBit w 11) (fBits w 4 7))
  | _ => none

/-- Major opcode 0x34: VQ (Table 4-7). -/
def decX34 (c : CoreId) (w : Nat) : Option Instr :=
  match fNat w 0 4 with
  | 0x0 => need w [(4, 19, 0)] (.vqclr c (fAcc w 23))
  | 0x1 => need w [(21, 2, 0), (4, 14, 0)] (.vqmov c (fAcc w 23) (fAcc w 18))
  | 0x2 => need w [(21, 2, 0), (4, 14, 0)] (.vqadd c (fAcc w 23) (fAcc w 18))
  | 0x3 => need w [(21, 2, 0), (4, 14, 0)] (.vqsub c (fAcc w 23) (fAcc w 18))
  | 0x4 => need w [(18, 5, 0), (4, 5, 0)] (.vqwid c (fAcc w 23) (fReg w 13) (fBits w 10 3) (fBit w 9))
  | 0x5 => need w [(18, 5, 0), (4, 5, 0)] (.vqacc c (fAcc w 23) (fReg w 13) (fBits w 10 3) (fBit w 9))
  | 0x6 => need w [(4, 14, 0)] (.vnormq c (fReg w 21) (fAcc w 18))
  | _ => none

/-- Major opcode 0x36: Lane moves (Table 4-9). -/
def decX36 (c : CoreId) (w : Nat) : Option Instr :=
  match fNat w 0 10 with
  | 0x0 => need w [(11, 5, 0)] (.vsplat c (fReg w 21) (fReg w 16) (fBit w 10))
  | 0x1 => some (.vmvlw c (fReg w 21) (fReg w 16) (fBits w 11 5) (fBit w 10))
  | 0x2 => some (.vinsw c (fReg w 21) (fReg w 16) (fBits w 11 5) (fBit w 10))
  | _ => none

/-- Major opcode 0x39: VS (Table 4-10). -/
def decX39 (c : CoreId) (w : Nat) : Option Instr :=
  match fNat w 0 1 with
  | 0x0 => need w [(1, 9, 0)] (.vlds c (fReg w 21) (fReg w 16) (fReg w 11) (fBit w 10))
  | 0x1 => need w [(1, 9, 0)] (.vsts c (fReg w 21) (fReg w 16) (fReg w 11) (fBit w 10))
  | _ => none

/-- Major opcode 0x3A: VA (Table 4-10). -/
def decX3A (c : CoreId) (w : Nat) : Option Instr :=
  match fNat w 25 1 with
  | 0x0 => need w [(24, 1, 0)] (.vqld c (fAcc w 21) (fReg w 16) (fBits w 0 16))
  | 0x1 => need w [(24, 1, 0)] (.vqst c (fAcc w 21) (fReg w 16) (fBits w 0 16))
  | _ => none

/-- Major opcode 0x3B: VSYS (Table 4-9). -/
def decX3B (c : CoreId) (w : Nat) : Option Instr :=
  match fNat w 0 10 with
  | 0x0 => need w [(10, 11, 0)] (.vrstat c (fReg w 21))
  | 0x1 => need w [(21, 5, 0), (10, 6, 0)] (.vwstat c (fReg w 16))
  | 0x2 => need w [(10, 11, 0)] (.vcstat c (fReg w 21))
  | _ => none

/-- The instruction that a word spells by its fields (Table 3-2). -/
def decodeRaw (c : CoreId) (w : Nat) : Option Instr :=
  match fNat w 26 6 with
  | 0x1 => decX1 c w
  | 0x2 => decX2 c w
  | 0x3 => decX3 c w
  | 0x4 => some (.addi c (fReg w 21) (fReg w 16) (fBits w 0 16))
  | 0x5 => some (.addiw c (fReg w 21) (fReg w 16) (fBits w 0 16))
  | 0x6 => some (.andi c (fReg w 21) (fReg w 16) (fBits w 0 16))
  | 0x7 => some (.ori c (fReg w 21) (fReg w 16) (fBits w 0 16))
  | 0x8 => some (.xori c (fReg w 21) (fReg w 16) (fBits w 0 16))
  | 0x9 => some (.slti c (fReg w 21) (fReg w 16) (fBits w 0 16))
  | 0xA => some (.sltiu c (fReg w 21) (fReg w 16) (fBits w 0 16))
  | 0xB => decXB c w
  | 0xC => some (.lui c (fReg w 21) (fBits w 0 21))
  | 0xD => some (.auipc c (fReg w 21) (fBits w 0 21))
  | 0x10 => some (.ld8 c (fReg w 21) (fReg w 16) (fBits w 0 16))
  | 0x11 => some (.ld8u c (fReg w 21) (fReg w 16) (fBits w 0 16))
  | 0x12 => some (.ld16 c (fReg w 21) (fReg w 16) (fBits w 0 16))
  | 0x13 => some (.ld16u c (fReg w 21) (fReg w 16) (fBits w 0 16))
  | 0x14 => some (.ld32 c (fReg w 21) (fReg w 16) (fBits w 0 16))
  | 0x15 => some (.ld32u c (fReg w 21) (fReg w 16) (fBits w 0 16))
  | 0x16 => some (.ld64 c (fReg w 21) (fReg w 16) (fBits w 0 16))
  | 0x18 => some (.st8 c (fReg w 21) (fReg w 16) (fBits w 0 16))
  | 0x19 => some (.st16 c (fReg w 21) (fReg w 16) (fBits w 0 16))
  | 0x1A => some (.st32 c (fReg w 21) (fReg w 16) (fBits w 0 16))
  | 0x1B => some (.st64 c (fReg w 21) (fReg w 16) (fBits w 0 16))
  | 0x1C => decX1C c w
  | 0x1D => decX1D c w
  | 0x1E => need w [(16, 10, 0), (5, 11, 0)] (.fence c (fBits w 0 5))
  | 0x20 => some (.bez c (fReg w 21) (fBits w 0 21))
  | 0x21 => some (.bnz c (fReg w 21) (fBits w 0 21))
  | 0x22 => some (.bltz c (fReg w 21) (fBits w 0 21))
  | 0x23 => some (.bgez c (fReg w 21) (fBits w 0 21))
  | 0x24 => some (.j c (fBits w 0 26))
  | 0x25 => some (.jal c (fBits w 0 26))
  | 0x26 => some (.jalr c (fReg w 21) (fReg w 16) (fBits w 0 16))
  | 0x28 => decX28 c w
  | 0x30 => decX30 c w
  | 0x31 => decX31 c w
  | 0x32 => need w [(0, 4, 0)] (.vbiq c (fReg w 21) (fReg w 16) (fReg w 11) (fReg w 6) (fBits w 4 2))
  | 0x33 => decX33 c w
  | 0x34 => decX34 c w
  | 0x35 => need w [(6, 5, 0), (0, 4, 0)] (.vramp c (fReg w 21) (fReg w 16) (fReg w 11) (fBits w 4 2))
  | 0x36 => decX36 c w
  | 0x37 => some (.vld c (fReg w 21) (fReg w 16) (fBits w 0 16))
  | 0x38 => some (.vst c (fReg w 21) (fReg w 16) (fBits w 0 16))
  | 0x39 => decX39 c w
  | 0x3A => decX3A c w
  | 0x3B => decX3B c w
  | _ => none

/-- The instruction that a word is on core `c`; `none` for an illegal one (R108, R179). DEDUCED, log entry 34. -/
def decodeLys (c : CoreId) (w : Nat) : Option Instr :=
  match decodeRaw c w with
  | some i => if i.wf then some i else none
  | none => none

/-! The encoder. -/

/-- The word of some fields, each a value and its place. -/
def word : List (Nat × Nat) → Nat
  | [] => 0
  | f :: fs => f.1 * 2 ^ f.2 + word fs

/-- An instruction of core `c` with its word. -/
def enc (c : CoreId) (fs : List (Nat × Nat)) : Option (CoreId × Nat) := some (c, word fs)

/-- The core that executes an instruction, and the word that encodes it; `none` for a command that is no instruction. -/
def encodeLys : Instr → Option (CoreId × Nat)
  | .add c x0 x1 x2 => enc c [(0x1, 26), (x0.val, 21), (x1.val, 16), (x2.val, 11)]
  | .sub c x0 x1 x2 => enc c [(0x1, 26), (x0.val, 21), (x1.val, 16), (x2.val, 11), (0x1, 0)]
  | .and c x0 x1 x2 => enc c [(0x1, 26), (x0.val, 21), (x1.val, 16), (x2.val, 11), (0x2, 0)]
  | .or c x0 x1 x2 => enc c [(0x1, 26), (x0.val, 21), (x1.val, 16), (x2.val, 11), (0x3, 0)]
  | .xor c x0 x1 x2 => enc c [(0x1, 26), (x0.val, 21), (x1.val, 16), (x2.val, 11), (0x4, 0)]
  | .andn c x0 x1 x2 => enc c [(0x1, 26), (x0.val, 21), (x1.val, 16), (x2.val, 11), (0x5, 0)]
  | .sll c x0 x1 x2 => enc c [(0x1, 26), (x0.val, 21), (x1.val, 16), (x2.val, 11), (0x8, 0)]
  | .srl c x0 x1 x2 => enc c [(0x1, 26), (x0.val, 21), (x1.val, 16), (x2.val, 11), (0x9, 0)]
  | .sra c x0 x1 x2 => enc c [(0x1, 26), (x0.val, 21), (x1.val, 16), (x2.val, 11), (0xA, 0)]
  | .ror c x0 x1 x2 => enc c [(0x1, 26), (x0.val, 21), (x1.val, 16), (x2.val, 11), (0xB, 0)]
  | .seq c x0 x1 x2 => enc c [(0x1, 26), (x0.val, 21), (x1.val, 16), (x2.val, 11), (0x10, 0)]
  | .sne c x0 x1 x2 => enc c [(0x1, 26), (x0.val, 21), (x1.val, 16), (x2.val, 11), (0x11, 0)]
  | .slt c x0 x1 x2 => enc c [(0x1, 26), (x0.val, 21), (x1.val, 16), (x2.val, 11), (0x12, 0)]
  | .sltu c x0 x1 x2 => enc c [(0x1, 26), (x0.val, 21), (x1.val, 16), (x2.val, 11), (0x13, 0)]
  | .sle c x0 x1 x2 => enc c [(0x1, 26), (x0.val, 21), (x1.val, 16), (x2.val, 11), (0x14, 0)]
  | .sleu c x0 x1 x2 => enc c [(0x1, 26), (x0.val, 21), (x1.val, 16), (x2.val, 11), (0x15, 0)]
  | .min c x0 x1 x2 => enc c [(0x1, 26), (x0.val, 21), (x1.val, 16), (x2.val, 11), (0x18, 0)]
  | .max c x0 x1 x2 => enc c [(0x1, 26), (x0.val, 21), (x1.val, 16), (x2.val, 11), (0x19, 0)]
  | .minu c x0 x1 x2 => enc c [(0x1, 26), (x0.val, 21), (x1.val, 16), (x2.val, 11), (0x1A, 0)]
  | .maxu c x0 x1 x2 => enc c [(0x1, 26), (x0.val, 21), (x1.val, 16), (x2.val, 11), (0x1B, 0)]
  | .addv c x0 x1 x2 => enc c [(0x1, 26), (x0.val, 21), (x1.val, 16), (x2.val, 11), (0x20, 0)]
  | .subv c x0 x1 x2 => enc c [(0x1, 26), (x0.val, 21), (x1.val, 16), (x2.val, 11), (0x21, 0)]
  | .addw c x0 x1 x2 => enc c [(0x1, 26), (x0.val, 21), (x1.val, 16), (x2.val, 11), (0x100, 0)]
  | .subw c x0 x1 x2 => enc c [(0x1, 26), (x0.val, 21), (x1.val, 16), (x2.val, 11), (0x101, 0)]
  | .sllw c x0 x1 x2 => enc c [(0x1, 26), (x0.val, 21), (x1.val, 16), (x2.val, 11), (0x108, 0)]
  | .srlw c x0 x1 x2 => enc c [(0x1, 26), (x0.val, 21), (x1.val, 16), (x2.val, 11), (0x109, 0)]
  | .sraw c x0 x1 x2 => enc c [(0x1, 26), (x0.val, 21), (x1.val, 16), (x2.val, 11), (0x10A, 0)]
  | .addvw c x0 x1 x2 => enc c [(0x1, 26), (x0.val, 21), (x1.val, 16), (x2.val, 11), (0x120, 0)]
  | .subvw c x0 x1 x2 => enc c [(0x1, 26), (x0.val, 21), (x1.val, 16), (x2.val, 11), (0x121, 0)]
  | .clz c x0 x1 => enc c [(0x1, 26), (x0.val, 21), (x1.val, 16), (0x28, 0)]
  | .ctz c x0 x1 => enc c [(0x1, 26), (x0.val, 21), (x1.val, 16), (0x29, 0)]
  | .popc c x0 x1 => enc c [(0x1, 26), (x0.val, 21), (x1.val, 16), (0x2A, 0)]
  | .rev8 c x0 x1 => enc c [(0x1, 26), (x0.val, 21), (x1.val, 16), (0x2B, 0)]
  | .mul c x0 x1 x2 => enc c [(0x2, 26), (x0.val, 21), (x1.val, 16), (x2.val, 11)]
  | .mulh c x0 x1 x2 => enc c [(0x2, 26), (x0.val, 21), (x1.val, 16), (x2.val, 11), (0x1, 0)]
  | .mulhu c x0 x1 x2 => enc c [(0x2, 26), (x0.val, 21), (x1.val, 16), (x2.val, 11), (0x2, 0)]
  | .mulv c x0 x1 x2 => enc c [(0x2, 26), (x0.val, 21), (x1.val, 16), (x2.val, 11), (0x4, 0)]
  | .div c x0 x1 x2 => enc c [(0x2, 26), (x0.val, 21), (x1.val, 16), (x2.val, 11), (0x8, 0)]
  | .divu c x0 x1 x2 => enc c [(0x2, 26), (x0.val, 21), (x1.val, 16), (x2.val, 11), (0x9, 0)]
  | .rem c x0 x1 x2 => enc c [(0x2, 26), (x0.val, 21), (x1.val, 16), (x2.val, 11), (0xA, 0)]
  | .remu c x0 x1 x2 => enc c [(0x2, 26), (x0.val, 21), (x1.val, 16), (x2.val, 11), (0xB, 0)]
  | .mulw c x0 x1 x2 => enc c [(0x2, 26), (x0.val, 21), (x1.val, 16), (x2.val, 11), (0x100, 0)]
  | .mulvw c x0 x1 x2 => enc c [(0x2, 26), (x0.val, 21), (x1.val, 16), (x2.val, 11), (0x104, 0)]
  | .divw c x0 x1 x2 => enc c [(0x2, 26), (x0.val, 21), (x1.val, 16), (x2.val, 11), (0x108, 0)]
  | .divuw c x0 x1 x2 => enc c [(0x2, 26), (x0.val, 21), (x1.val, 16), (x2.val, 11), (0x109, 0)]
  | .remw c x0 x1 x2 => enc c [(0x2, 26), (x0.val, 21), (x1.val, 16), (x2.val, 11), (0x10A, 0)]
  | .remuw c x0 x1 x2 => enc c [(0x2, 26), (x0.val, 21), (x1.val, 16), (x2.val, 11), (0x10B, 0)]
  | .sel c x0 x1 x2 x3 => enc c [(0x3, 26), (x0.val, 21), (x1.val, 16), (x2.val, 11), (x3.val, 6)]
  | .addi c x0 x1 x2 => enc c [(0x4, 26), (x0.val, 21), (x1.val, 16), (x2.toNat, 0)]
  | .addiw c x0 x1 x2 => enc c [(0x5, 26), (x0.val, 21), (x1.val, 16), (x2.toNat, 0)]
  | .andi c x0 x1 x2 => enc c [(0x6, 26), (x0.val, 21), (x1.val, 16), (x2.toNat, 0)]
  | .ori c x0 x1 x2 => enc c [(0x7, 26), (x0.val, 21), (x1.val, 16), (x2.toNat, 0)]
  | .xori c x0 x1 x2 => enc c [(0x8, 26), (x0.val, 21), (x1.val, 16), (x2.toNat, 0)]
  | .slti c x0 x1 x2 => enc c [(0x9, 26), (x0.val, 21), (x1.val, 16), (x2.toNat, 0)]
  | .sltiu c x0 x1 x2 => enc c [(0xA, 26), (x0.val, 21), (x1.val, 16), (x2.toNat, 0)]
  | .jalr c x0 x1 x2 => enc c [(0x26, 26), (x0.val, 21), (x1.val, 16), (x2.toNat, 0)]
  | .ld8 c x0 x1 x2 => enc c [(0x10, 26), (x0.val, 21), (x1.val, 16), (x2.toNat, 0)]
  | .ld8u c x0 x1 x2 => enc c [(0x11, 26), (x0.val, 21), (x1.val, 16), (x2.toNat, 0)]
  | .ld16 c x0 x1 x2 => enc c [(0x12, 26), (x0.val, 21), (x1.val, 16), (x2.toNat, 0)]
  | .ld16u c x0 x1 x2 => enc c [(0x13, 26), (x0.val, 21), (x1.val, 16), (x2.toNat, 0)]
  | .ld32 c x0 x1 x2 => enc c [(0x14, 26), (x0.val, 21), (x1.val, 16), (x2.toNat, 0)]
  | .ld32u c x0 x1 x2 => enc c [(0x15, 26), (x0.val, 21), (x1.val, 16), (x2.toNat, 0)]
  | .ld64 c x0 x1 x2 => enc c [(0x16, 26), (x0.val, 21), (x1.val, 16), (x2.toNat, 0)]
  | .st8 c x0 x1 x2 => enc c [(0x18, 26), (x0.val, 21), (x1.val, 16), (x2.toNat, 0)]
  | .st16 c x0 x1 x2 => enc c [(0x19, 26), (x0.val, 21), (x1.val, 16), (x2.toNat, 0)]
  | .st32 c x0 x1 x2 => enc c [(0x1A, 26), (x0.val, 21), (x1.val, 16), (x2.toNat, 0)]
  | .st64 c x0 x1 x2 => enc c [(0x1B, 26), (x0.val, 21), (x1.val, 16), (x2.toNat, 0)]
  | .vld c x0 x1 x2 => enc c [(0x37, 26), (x0.val, 21), (x1.val, 16), (x2.toNat, 0)]
  | .vst c x0 x1 x2 => enc c [(0x38, 26), (x0.val, 21), (x1.val, 16), (x2.toNat, 0)]
  | .slli c x0 x1 x2 x3 => enc c [(0xB, 26), (x0.val, 21), (x1.val, 16), (x2.toNat, 8), (x3.toNat, 0)]
  | .srli c x0 x1 x2 x3 => enc c [(0xB, 26), (x0.val, 21), (x1.val, 16), (x2.toNat, 8), (0x1, 6), (x3.toNat, 0)]
  | .srai c x0 x1 x2 x3 => enc c [(0xB, 26), (x0.val, 21), (x1.val, 16), (x2.toNat, 8), (0x2, 6), (x3.toNat, 0)]
  | .rori c x0 x1 x2 => enc c [(0xB, 26), (x0.val, 21), (x1.val, 16), (0x3, 6), (x2.toNat, 0)]
  | .lui c x0 x1 => enc c [(0xC, 26), (x0.val, 21), (x1.toNat, 0)]
  | .auipc c x0 x1 => enc c [(0xD, 26), (x0.val, 21), (x1.toNat, 0)]
  | .lres c x0 x1 x2 => enc c [(0x1C, 26), (x0.val, 21), (x1.val, 16), (x2.toNat, 4)]
  | .lresw c x0 x1 x2 => enc c [(0x1C, 26), (x0.val, 21), (x1.val, 16), (x2.toNat, 4), (0x1, 0)]
  | .scom c x0 x1 x2 x3 => enc c [(0x1C, 26), (x0.val, 21), (x1.val, 16), (x2.val, 11), (x3.toNat, 4), (0x2, 0)]
  | .scomw c x0 x1 x2 x3 => enc c [(0x1C, 26), (x0.val, 21), (x1.val, 16), (x2.val, 11), (x3.toNat, 4), (0x3, 0)]
  | .aadd c x0 x1 x2 x3 => enc c [(0x1C, 26), (x0.val, 21), (x1.val, 16), (x2.val, 11), (x3.toNat, 4), (0x4, 0)]
  | .aaddw c x0 x1 x2 x3 => enc c [(0x1C, 26), (x0.val, 21), (x1.val, 16), (x2.val, 11), (x3.toNat, 4), (0x5, 0)]
  | .aswp c x0 x1 x2 x3 => enc c [(0x1C, 26), (x0.val, 21), (x1.val, 16), (x2.val, 11), (x3.toNat, 4), (0x6, 0)]
  | .aswpw c x0 x1 x2 x3 => enc c [(0x1C, 26), (x0.val, 21), (x1.val, 16), (x2.val, 11), (x3.toNat, 4), (0x7, 0)]
  | .acas c x0 x1 x2 x3 x4 => enc c [(0x1C, 26), (x0.val, 21), (x1.val, 16), (x2.val, 11), (x3.val, 6), (x4.toNat, 4), (0x8, 0)]
  | .acasw c x0 x1 x2 x3 x4 => enc c [(0x1C, 26), (x0.val, 21), (x1.val, 16), (x2.val, 11), (x3.val, 6), (x4.toNat, 4), (0x9, 0)]
  | .lda c x0 x1 => enc c [(0x1C, 26), (x0.val, 21), (x1.val, 16), (1, 4), (0xA, 0)]
  | .ldaw c x0 x1 => enc c [(0x1C, 26), (x0.val, 21), (x1.val, 16), (1, 4), (0xB, 0)]
  | .stl c x0 x1 => enc c [(0x1C, 26), (x0.val, 16), (x1.val, 11), (2, 4), (0xC, 0)]
  | .stlw c x0 x1 => enc c [(0x1C, 26), (x0.val, 16), (x1.val, 11), (2, 4), (0xD, 0)]
  | .ldnt c x0 x1 => enc c [(0x1C, 26), (x0.val, 21), (x1.val, 16), (0xE, 0)]
  | .zline c x0 x1 => enc c [(0x1D, 26), (x0.val, 16), (x1.toNat, 0)]
  | .clean c x0 x1 => enc c [(0x1D, 26), (0x1, 21), (x0.val, 16), (x1.toNat, 0)]
  | .inv c x0 x1 => enc c [(0x1D, 26), (0x2, 21), (x0.val, 16), (x1.toNat, 0)]
  | .flush c x0 x1 => enc c [(0x1D, 26), (0x3, 21), (x0.val, 16), (x1.toNat, 0)]
  | .pref c x0 x1 => enc c [(0x1D, 26), (0x4, 21), (x0.val, 16), (x1.toNat, 0)]
  | .prefw c x0 x1 => enc c [(0x1D, 26), (0x5, 21), (x0.val, 16), (x1.toNat, 0)]
  | .fence c x0 => enc c [(0x1E, 26), (x0.toNat, 0)]
  | .bez c x0 x1 => enc c [(0x20, 26), (x0.val, 21), (x1.toNat, 0)]
  | .bnz c x0 x1 => enc c [(0x21, 26), (x0.val, 21), (x1.toNat, 0)]
  | .bltz c x0 x1 => enc c [(0x22, 26), (x0.val, 21), (x1.toNat, 0)]
  | .bgez c x0 x1 => enc c [(0x23, 26), (x0.val, 21), (x1.toNat, 0)]
  | .j c x0 => enc c [(0x24, 26), (x0.toNat, 0)]
  | .jal c x0 => enc c [(0x25, 26), (x0.toNat, 0)]
  | .mfc c x0 x1 => enc c [(0x28, 26), (x0.val, 21), (x1.toNat, 0)]
  | .mtc c x0 x1 => enc c [(0x28, 26), (x0.val, 16), (0x1, 12), (x1.toNat, 0)]
  | .cset c x0 x1 x2 => enc c [(0x28, 26), (x0.val, 21), (x1.val, 16), (0x2, 12), (x2.toNat, 0)]
  | .cclr c x0 x1 x2 => enc c [(0x28, 26), (x0.val, 21), (x1.val, 16), (0x3, 12), (x2.toNat, 0)]
  | .svc c x0 => enc c [(0x28, 26), (0x4, 12), (x0.toNat, 0)]
  | .brk c x0 => enc c [(0x28, 26), (0x5, 12), (x0.toNat, 0)]
  | .eret c => enc c [(0x28, 26), (0x6, 12)]
  | .waite c => enc c [(0x28, 26), (0x7, 12)]
  | .waitb c x0 x1 => enc c [(0x28, 26), (x0.val, 21), (0x8, 12), (x1.toNat, 0)]
  | .syncC c => enc c [(0x28, 26), (0x9, 12)]
  | .ifence c => enc c [(0x28, 26), (0xA, 12)]
  | .tlbiAll c => enc c [(0x28, 26), (0xB, 12)]
  | .tlbiAsid c x0 => enc c [(0x28, 26), (x0.val, 16), (0xB, 12), (1, 0)]
  | .tlbiVaAsid c x0 x1 => enc c [(0x28, 26), (x0.val, 21), (x1.val, 16), (0xB, 12), (2, 0)]
  | .tlbiVa c x0 => enc c [(0x28, 26), (x0.val, 16), (0xB, 12), (3, 0)]
  | .vadd c x0 x1 x2 x3 => enc c [(0x30, 26), (x0.val, 21), (x1.val, 16), (x2.val, 11), (x3.toNat, 10)]
  | .vsub c x0 x1 x2 x3 => enc c [(0x30, 26), (x0.val, 21), (x1.val, 16), (x2.val, 11), (x3.toNat, 10), (0x1, 0)]
  | .vadds c x0 x1 x2 x3 => enc c [(0x30, 26), (x0.val, 21), (x1.val, 16), (x2.val, 11), (x3.toNat, 10), (0x2, 0)]
  | .vsubs c x0 x1 x2 x3 => enc c [(0x30, 26), (x0.val, 21), (x1.val, 16), (x2.val, 11), (x3.toNat, 10), (0x3, 0)]
  | .vmin c x0 x1 x2 x3 => enc c [(0x30, 26), (x0.val, 21), (x1.val, 16), (x2.val, 11), (x3.toNat, 10), (0x4, 0)]
  | .vmax c x0 x1 x2 x3 => enc c [(0x30, 26), (x0.val, 21), (x1.val, 16), (x2.val, 11), (x3.toNat, 10), (0x5, 0)]
  | .vand c x0 x1 x2 x3 => enc c [(0x30, 26), (x0.val, 21), (x1.val, 16), (x2.val, 11), (x3.toNat, 10), (0x8, 0)]
  | .vor c x0 x1 x2 x3 => enc c [(0x30, 26), (x0.val, 21), (x1.val, 16), (x2.val, 11), (x3.toNat, 10), (0x9, 0)]
  | .vxor c x0 x1 x2 x3 => enc c [(0x30, 26), (x0.val, 21), (x1.val, 16), (x2.val, 11), (x3.toNat, 10), (0xA, 0)]
  | .vzipl c x0 x1 x2 x3 => enc c [(0x30, 26), (x0.val, 21), (x1.val, 16), (x2.val, 11), (x3.toNat, 10), (0x20, 0)]
  | .vziph c x0 x1 x2 x3 => enc c [(0x30, 26), (x0.val, 21), (x1.val, 16), (x2.val, 11), (x3.toNat, 10), (0x21, 0)]
  | .vuzpe c x0 x1 x2 x3 => enc c [(0x30, 26), (x0.val, 21), (x1.val, 16), (x2.val, 11), (x3.toNat, 10), (0x22, 0)]
  | .vuzpo c x0 x1 x2 x3 => enc c [(0x30, 26), (x0.val, 21), (x1.val, 16), (x2.val, 11), (x3.toNat, 10), (0x23, 0)]
  | .vabs c x0 x1 x2 => enc c [(0x30, 26), (x0.val, 21), (x1.val, 16), (x2.toNat, 10), (0x6, 0)]
  | .vneg c x0 x1 x2 => enc c [(0x30, 26), (x0.val, 21), (x1.val, 16), (x2.toNat, 10), (0x7, 0)]
  | .vnorm c x0 x1 x2 => enc c [(0x30, 26), (x0.val, 21), (x1.val, 16), (x2.toNat, 10), (0x18, 0)]
  | .vslli c x0 x1 x2 x3 => enc c [(0x30, 26), (x0.val, 21), (x1.val, 16), (x2.toNat, 11), (x3.toNat, 10), (0x10, 0)]
  | .vsrli c x0 x1 x2 x3 => enc c [(0x30, 26), (x0.val, 21), (x1.val, 16), (x2.toNat, 11), (x3.toNat, 10), (0x11, 0)]
  | .vsrai c x0 x1 x2 x3 => enc c [(0x30, 26), (x0.val, 21), (x1.val, 16), (x2.toNat, 11), (x3.toNat, 10), (0x12, 0)]
  | .vslsi c x0 x1 x2 x3 => enc c [(0x30, 26), (x0.val, 21), (x1.val, 16), (x2.toNat, 11), (x3.toNat, 10), (0x13, 0)]
  | .vmul c x0 x1 x2 x3 x4 => enc c [(0x31, 26), (x0.val, 23), (x1.val, 18), (x2.val, 13), (x3.toNat, 10), (x4.toNat, 9)]
  | .vmac c x0 x1 x2 x3 x4 => enc c [(0x31, 26), (x0.val, 23), (x1.val, 18), (x2.val, 13), (x3.toNat, 10), (x4.toNat, 9), (0x1, 0)]
  | .vmsu c x0 x1 x2 x3 x4 => enc c [(0x31, 26), (x0.val, 23), (x1.val, 18), (x2.val, 13), (x3.toNat, 10), (x4.toNat, 9), (0x2, 0)]
  | .vmacx c x0 x1 x2 x3 x4 x5 => enc c [(0x31, 26), (x0.val, 23), (x1.val, 18), (x2.val, 13), (x3.toNat, 10), (x4.toNat, 9), (x5.toNat, 5), (0x3, 0)]
  | .vmsux c x0 x1 x2 x3 x4 x5 => enc c [(0x31, 26), (x0.val, 23), (x1.val, 18), (x2.val, 13), (x3.toNat, 10), (x4.toNat, 9), (x5.toNat, 5), (0x4, 0)]
  | .vdot c x0 x1 x2 x3 x4 x5 => enc c [(0x31, 26), (x0.val, 23), (x1.val, 18), (x2.val, 13), (x3.toNat, 10), (x4.toNat, 9), (x5.toNat, 5), (0x5, 0)]
  | .vdotn c x0 x1 x2 x3 x4 x5 => enc c [(0x31, 26), (x0.val, 23), (x1.val, 18), (x2.val, 13), (x3.toNat, 10), (x4.toNat, 9), (x5.toNat, 5), (0x6, 0)]
  | .vbiq c x0 x1 x2 x3 x4 => enc c [(0x32, 26), (x0.val, 21), (x1.val, 16), (x2.val, 11), (x3.val, 6), (x4.toNat, 4)]
  | .vnrw c x0 x1 x2 x3 x4 x5 x6 => enc c [(0x33, 26), (x0.val, 21), (x1.val, 18), (x2.toNat, 15), (x3.toNat, 14), (x4.toNat, 12), (x5.toNat, 11), (x6.toNat, 4)]
  | .vnrwc c x0 x1 x2 x3 x4 x5 x6 => enc c [(0x33, 26), (x0.val, 21), (x1.val, 18), (x2.toNat, 15), (x3.toNat, 14), (x4.toNat, 12), (x5.toNat, 11), (x6.toNat, 4), (0x1, 0)]
  | .vqclr c x0 => enc c [(0x34, 26), (x0.val, 23)]
  | .vqmov c x0 x1 => enc c [(0x34, 26), (x0.val, 23), (x1.val, 18), (0x1, 0)]
  | .vqadd c x0 x1 => enc c [(0x34, 26), (x0.val, 23), (x1.val, 18), (0x2, 0)]
  | .vqsub c x0 x1 => enc c [(0x34, 26), (x0.val, 23), (x1.val, 18), (0x3, 0)]
  | .vqwid c x0 x1 x2 x3 => enc c [(0x34, 26), (x0.val, 23), (x1.val, 13), (x2.toNat, 10), (x3.toNat, 9), (0x4, 0)]
  | .vqacc c x0 x1 x2 x3 => enc c [(0x34, 26), (x0.val, 23), (x1.val, 13), (x2.toNat, 10), (x3.toNat, 9), (0x5, 0)]
  | .vnormq c x0 x1 => enc c [(0x34, 26), (x0.val, 21), (x1.val, 18), (0x6, 0)]
  | .vramp c x0 x1 x2 x3 => enc c [(0x35, 26), (x0.val, 21), (x1.val, 16), (x2.val, 11), (x3.toNat, 4)]
  | .vsplat c x0 x1 x2 => enc c [(0x36, 26), (x0.val, 21), (x1.val, 16), (x2.toNat, 10)]
  | .vmvlw c x0 x1 x2 x3 => enc c [(0x36, 26), (x0.val, 21), (x1.val, 16), (x2.toNat, 11), (x3.toNat, 10), (0x1, 0)]
  | .vinsw c x0 x1 x2 x3 => enc c [(0x36, 26), (x0.val, 21), (x1.val, 16), (x2.toNat, 11), (x3.toNat, 10), (0x2, 0)]
  | .vlds c x0 x1 x2 x3 => enc c [(0x39, 26), (x0.val, 21), (x1.val, 16), (x2.val, 11), (x3.toNat, 10)]
  | .vsts c x0 x1 x2 x3 => enc c [(0x39, 26), (x0.val, 21), (x1.val, 16), (x2.val, 11), (x3.toNat, 10), (0x1, 0)]
  | .vqld c x0 x1 x2 => enc c [(0x3A, 26), (x0.val, 21), (x1.val, 16), (x2.toNat, 0)]
  | .vqst c x0 x1 x2 => enc c [(0x3A, 26), (0x1, 25), (x0.val, 21), (x1.val, 16), (x2.toNat, 0)]
  | .vrstat c x0 => enc c [(0x3B, 26), (x0.val, 21)]
  | .vwstat c x0 => enc c [(0x3B, 26), (x0.val, 16), (0x1, 0)]
  | .vcstat c x0 => enc c [(0x3B, 26), (x0.val, 21), (0x2, 0)]
  | _ => none

end Sys2Proof
end

