-- ==== Sys2Proof/Config.lean ====
section
/-!
DEFINITION. What the model leaves free: functions with no body, so that no proof can know a value of theirs.
Each is applied to a counter of the state or to the operands it depends on.
-/
namespace Sys2Proof.Config

/-- A fresh open value (an entropy draw, a prediction outcome, a count that the spec does not fix), applied to
the counter `freeCnt` of the state, which the step that reads it advances. DESIGN CHOICE, log entry 7. -/
opaque free : Nat → Nat

/-- The SHA-384 digest of a byte string: 48 bytes as a number, first byte most significant. The spec names the
function and does not define it. DESIGN CHOICE, log entry 8. -/
opaque sha384 : List Byte → Nat

/-- Whether an ECDSA P-384 signature (96 bytes) over a digest verifies under a public key (96 bytes).
DESIGN CHOICE, log entry 8. -/
opaque ecdsaVerify : (key : List Byte) → (digest : Nat) → (sig : List Byte) → Bool

/-- The signature that the device's quote key makes over a digest. -/
opaque quoteSign : (digest : Nat) → List Byte

/-- The contents of the boot ROM, by offset (R50 gives the range and its readers, not its bytes). -/
opaque romByte : Nat → Byte

/-- The serial number fused in the boot and security block (R45). -/
opaque serial : BitVec 64

/-- The ordering code of the part, as a bit number of TCODES: 0 CX288-SA, 1 CX288-EA (Table 0-1). -/
opaque orderingCode : Nat

/-- The vendor public keys held in the boot ROM, by number (96 bytes each). -/
opaque vendorKey : Nat → List Byte

end Sys2Proof.Config
end

