-- ==== Sys2Proof/Machine/Units.lean ====
section
/-!
DEFINITION. Unit identifiers, unit kinds, the numbering of cores, clusters and regions (R20-R22, R49),
and the handshake ports of every unit (R78, R814).
-/
namespace Sys2Proof.Machine

/-- The unit types of Table 1-3. -/
inductive UnitKind where
  | core | l2 | l3 | xslice | cstop | hlstop | hstop | funnel | region | mc | quad | pcie | se | tdm
  | evc | mbx | keeper | boot | harebell | dieCtl | hubCtl | mgt | dbg
  deriving DecidableEq, Repr

/-- DIE field of a unit ID (Table 1-2). -/
def uidDie (u : Nat) : Nat := u / 8192 % 8
/-- REGION field of a unit ID. -/
def uidRegion (u : Nat) : Nat := u / 4096 % 2
/-- CLUSTER field of a unit ID. -/
def uidCluster (u : Nat) : Nat := u / 256 % 16
/-- TYPE field of a unit ID. -/
def uidType (u : Nat) : Nat := u / 16 % 16
/-- INDEX field of a unit ID. -/
def uidIndex (u : Nat) : Nat := u % 16

/-- A unit ID from its fields. -/
def mkUid (die region cluster ty ix : Nat) : Nat :=
  die * 8192 + region * 4096 + cluster * 256 + ty * 16 + ix

/-- The kind of unit that a unit ID names, `none` where Table 1-3 lists no such unit (R21). -/
def unitKind (u : Nat) : Option UnitKind :=
  let d := uidDie u; let r := uidRegion u; let c := uidCluster u; let i := uidIndex u
  if 65536 ≤ u then none else
  if d < 4 then
    if c ≤ 8 then
      match uidType u with
      | 0 => if i ≤ 3 then some .core else none
      | 1 => if i = 0 then some .l2 else none
      | 2 => if i = 0 then some .l3 else none
      | 3 => if i = 0 then some .cstop else none
      | _ => none
    else if c = 15 then
      match uidType u with
      | 3 => if r = 0 ∧ i ≤ 1 then some .hlstop else none
      | 4 => if i = 0 then some .funnel else none
      | 5 => if i = 0 then some .region else none
      | 15 => if r = 0 ∧ i = 0 then some .dieCtl else none
      | _ => none
    else none
  else if d ≤ 5 ∧ c = 15 ∧ r = 0 then
    match uidType u with
    | 2 => if i ≤ 3 then some .xslice else none
    | 3 => if i ≤ 6 then some .hstop else none
    | 4 => if i = 0 then some .funnel else none
    | 6 => if i ≤ 5 then some .mc else none
    | 7 => if i ≤ 4 then some .quad else if i = 8 ∨ i = 9 then some .pcie else none
    | 8 => if i ≤ 1 then some .se else none
    | 9 => if i ≤ 1 then some .tdm else none
    | 10 => if i = 0 then some .evc else none
    | 11 => if i = 0 then some .mbx else none
    | 12 => if i = 0 then some .keeper else none
    | 13 => if d = 4 ∧ i = 0 then some .boot else none
    | 14 => if d = 4 ∧ i = 0 then some .harebell else none
    | 15 => if i = 0 then some .hubCtl else if i = 1 then some .mgt
            else if d = 4 ∧ i = 2 then some .dbg else none
    | _ => none
  else none

/-- Unit ID of a physical core (R49). -/
def coreUid (c : Nat) : Nat := mkUid (c / 72) (c / 36 % 2) (c / 4 % 9) 0 (c % 4)
/-- Physical core number of a core's unit ID (R49). -/
def uidCore (u : Nat) : Nat := uidDie u * 72 + uidRegion u * 36 + uidCluster u * 4 + uidIndex u
/-- Package-wide cluster number 0-71 (region × 9 + cluster) of a physical core. -/
def coreCluster (c : Nat) : Nat := c / 4
/-- Global region 0-7 of a physical core (R49). -/
def coreRegion (c : Nat) : Nat := c / 36
/-- A unit of cluster `k` (0-71) of the given type and index. -/
def clusterUid (k ty ix : Nat) : Nat := mkUid (k / 18) (k / 9 % 2) (k % 9) ty ix
/-- Unit ID of the L2 of cluster `k`. -/
def l2Uid (k : Nat) : Nat := clusterUid k 1 0
/-- Unit ID of the L3 slice of cluster `k`. -/
def l3Uid (k : Nat) : Nat := clusterUid k 2 0
/-- Unit ID of the mesh stop of cluster `k`. -/
def cstopUid (k : Nat) : Nat := clusterUid k 3 0
/-- The cluster number of a unit that lies in a cluster. -/
def uidClusterNo (u : Nat) : Nat := uidDie u * 18 + uidRegion u * 9 + uidCluster u
/-- Unit ID of the region control of global region `g`. -/
def regionUid (g : Nat) : Nat := mkUid (g / 2) (g % 2) 15 5 0
/-- Unit ID of the die or hub control of a die. -/
def dieUid (d : Nat) : Nat := mkUid d 0 15 15 0
/-- Unit ID of hub control `h`. -/
def hubUid (h : Nat) : Nat := dieUid (4 + h)
/-- Unit ID of memory channel 0-11. -/
def mcUid (ch : Nat) : Nat := mkUid (4 + ch / 6) 0 15 6 (ch % 6)
/-- Channel number of a memory channel's unit ID (Table 1-3). -/
def uidMc (u : Nat) : Nat := (uidDie u - 4) * 6 + uidIndex u
/-- Unit ID of lane quad 0-9. -/
def quadUid (q : Nat) : Nat := mkUid (4 + q / 5) 0 15 7 (q % 5)
/-- Quad number of a lane quad's unit ID. -/
def uidQuad (u : Nat) : Nat := (uidDie u - 4) * 5 + uidIndex u
/-- Unit ID of PCIe ×4 group 0-3. -/
def pcieUid (g : Nat) : Nat := mkUid (4 + g / 2) 0 15 7 (8 + g % 2)
/-- Unit ID of stream engine SE0-SE3. -/
def seUid (n : Nat) : Nat := mkUid (4 + n / 2) 0 15 8 (n % 2)
/-- Engine number of a stream engine's unit ID. -/
def uidSe (u : Nat) : Nat := (uidDie u - 4) * 2 + uidIndex u
/-- Unit ID of TDM group 0-3. -/
def tdmUid (g : Nat) : Nat := mkUid (4 + g / 2) 0 15 9 (g % 2)
/-- Unit ID of exchange slice `i` of hub `h`. -/
def xsliceUid (h i : Nat) : Nat := mkUid (4 + h) 0 15 2 i
/-- Unit ID of the event controller of hub `h`. -/
def evcUid (h : Nat) : Nat := mkUid (4 + h) 0 15 10 0
/-- Unit ID of the mailbox block of hub `h`. -/
def mbxUid (h : Nat) : Nat := mkUid (4 + h) 0 15 11 0
/-- Unit ID of the keeper pair of hub `h`. -/
def keeperUid (h : Nat) : Nat := mkUid (4 + h) 0 15 12 0
/-- Unit ID of the boot and security block. -/
def bootUid : Nat := mkUid 4 0 15 13 0
/-- Unit ID of Harebell, whose block also holds the time base and the always-on registers. -/
def hbUid : Nat := mkUid 4 0 15 14 0
/-- Unit ID of the debug domain control. -/
def dbgUid : Nat := mkUid 4 0 15 15 2
/-- Unit ID of management port `h`. -/
def mgtUid (h : Nat) : Nat := mkUid (4 + h) 0 15 15 1
/-- Unit ID of the trace funnel of region 0-7, or of hub 8 or 9. -/
def funnelUid (f : Nat) : Nat := if f < 8 then mkUid (f / 2) (f % 2) 15 4 0 else mkUid (4 + (f - 8)) 0 15 4 0

/-- Every cluster unit of cluster `k`: cores, L2, L3 slice, mesh stop. -/
def clusterUnits (k : Nat) : List Nat :=
  [clusterUid k 0 0, clusterUid k 0 1, clusterUid k 0 2, clusterUid k 0 3, l2Uid k, l3Uid k, cstopUid k]

/-! Ports (R814): `(partner, class)`; partner 0xFFFF where the port has none. -/

/-- The mesh stop at a row and column of a compute die's grid, 0xFFFF outside it. -/
def stopAt (die : Nat) (row col : Int) : Nat :=
  if row < 0 ∨ 2 < row ∨ col < 0 ∨ 5 < col then 0xFFFF
  else mkUid die (col.toNat / 3) (row.toNat * 3 + col.toNat % 3) 3 0

/-- The unit attached at port 6 of a cluster's mesh stop (Table 2-6). -/
def attached (die region cl : Nat) : Nat :=
  if cl = 4 then mkUid die region 15 5 0
  else if cl = 1 then mkUid die region 15 4 0
  else if cl = 7 ∧ region = 1 then dieUid die
  else if cl = 6 ∧ region = 0 then mkUid die 0 15 3 0
  else if cl = 8 ∧ region = 0 then mkUid die 0 15 3 1
  else 0xFFFF

/-- NPORTS of a unit (Table 2-6). -/
def nports (u : Nat) : Nat :=
  match unitKind u with
  | none => 0
  | some .core => 1
  | some .l2 => 6
  | some .l3 => 2
  | some .cstop => 7
  | some .region | some .dieCtl | some .hubCtl | some .keeper | some .xslice | some .harebell
  | some .funnel => 1
  | some .hlstop => 2
  | some .hstop =>
    if uidIndex u ≤ 4 then 7 else if uidIndex u = 5 then 19 else if uidDie u = 4 then 25 else 22
  | some .mc | some .quad | some .pcie | some .mgt | some .tdm | some .evc | some .mbx | some .dbg => 2
  | some .se | some .boot => 3

/-- Partner of port `p` at the I/O side mesh stop of a hub, from port 7 on. -/
def ioPartner (die p : Nat) : Nat :=
  if p < 12 then mkUid die 0 15 7 (p - 7)
  else if p < 14 then mkUid die 0 15 7 (p - 4)
  else if p < 16 then mkUid die 0 15 8 (p - 14)
  else match p with
    | 16 => mkUid die 0 15 10 0 | 17 => mkUid die 0 15 11 0 | 18 => mkUid die 0 15 12 0
    | 19 => dieUid die | 20 => mkUid die 0 15 4 0 | 21 => mkUid die 0 15 15 1
    | 22 => bootUid | 23 => hbUid | 24 => dbgUid | _ => 0xFFFF

/-- Partner and class of port `p` of unit `u` (Table 2-6). -/
def port (u p : Nat) : Nat × Nat :=
  let d := uidDie u; let r := uidRegion u; let c := uidCluster u; let i := uidIndex u
  let k := uidClusterNo u
  let hs (j : Nat) : Nat := mkUid d 0 15 3 j
  match unitKind u with
  | none => (0xFFFF, 0)
  | some .core => (l2Uid k, 0)
  | some .l2 => if p < 4 then (clusterUid k 0 p, 0) else if p = 4 then (l3Uid k, 0) else (cstopUid k, 0)
  | some .l3 => if p = 0 then (l2Uid k, 0) else (cstopUid k, 0)
  | some .cstop =>
    let row : Int := c / 3; let col : Int := r * 3 + c % 3
    match p with
    | 0 => (stopAt d (row - 1) col, 1) | 1 => (stopAt d row (col + 1), 1)
    | 2 => (stopAt d (row + 1) col, 1) | 3 => (stopAt d row (col - 1), 1)
    | 4 => (l2Uid k, 0) | 5 => (l3Uid k, 0) | _ => (attached d r c, 1)
  | some .region => (mkUid d r 4 3 0, 1)
  | some .funnel => if d < 4 then (mkUid d r 1 3 0, 1) else (hs 6, 1)
  | some .dieCtl => (mkUid d 1 7 3 0, 1)
  | some .hlstop => if p = 0 then (mkUid d 0 (if i = 0 then 6 else 8) 3 0, 1) else (mkUid (4 + i) 0 15 3 d, 2)
  | some .hstop =>
    if p = 0 then
      if i < 4 then (mkUid i 0 15 3 (d - 4), 2) else if i = 4 then (mkUid (9 - d) 0 15 3 4, 2) else (0xFFFF, 1)
    else if p ≤ 6 then (hs (if p ≤ i then p - 1 else p), 1)
    else if i = 5 then
      if p ≤ 12 then (mkUid d 0 15 6 (p - 7), 1) else if p ≤ 16 then (mkUid d 0 15 2 (p - 13), 1)
      else (mkUid d 0 15 8 (p - 17), 1)
    else (ioPartner d p, 1)
  | some .xslice => (hs 5, 1)
  | some .mc => if p = 0 then (hs 5, 1) else (u, 3)
  | some .quad | some .pcie | some .mgt => if p = 0 then (hs 6, 1) else (u, 3)
  | some .se => if p = 0 then (hs 5, 1) else if p = 1 then (hs 6, 1) else (mkUid d 0 15 9 i, 1)
  | some .tdm => if p = 0 then (mkUid d 0 15 8 i, 1) else (u, 3)
  | some .evc => if p = 0 then (hs 6, 4) else (mkUid (9 - d) 0 15 10 0, 4)
  | some .mbx => if p = 0 then (hs 6, 4) else (mkUid (9 - d) 0 15 11 0, 4)
  | some .keeper | some .hubCtl => (hs 6, 1)
  | some .boot => if p = 0 then (hs 6, 1) else (u, 3)
  | some .harebell => (hs 6, 3)
  | some .dbg => if p = 0 then (hs 6, 5) else (u, 5)

/-- Default BOUND of a port class (Table 2-4). -/
def classDefault (c : Nat) : Nat :=
  match c with | 0 => 250 | 1 => 500 | 2 => 1000 | 3 => 2000 | 4 => 125 | _ => 2000

/-- Least BOUND of a port class (Table 2-4). -/
def classMin (c : Nat) : Nat :=
  match c with | 0 => 125 | 1 => 250 | 2 => 500 | 3 => 500 | 4 => 63 | _ => 500

/-- Greatest BOUND of a port class (Table 2-4). -/
def classMax (c : Nat) : Nat :=
  match c with | 0 => 12500 | 1 => 25000 | 2 => 50000 | 3 => 125000 | 4 => 218 | _ => 6218

/-- Greatest class default among the first `n` ports of a unit. -/
def maxDefault (u : Nat) : Nat → Nat
  | 0 => 0
  | n + 1 => max (maxDefault u n) (classDefault (port u n).2)

/-- Floor pace of a VDD_CORE set point in mV (Table 2-1, R57). -/
def floorPace (mv : Nat) : Nat :=
  if mv < 550 then 0 else if mv < 650 then 1150 else if mv < 750 then 1900 else if mv < 800 then 2600
  else if mv < 900 then 2950 else 3500

/-- The fallback set point: lowest voltage of Table 2-1 whose floor is at least `p` (R65). -/
def fallbackMv (p : Nat) : Nat :=
  if p ≤ 1150 then 550 else if p ≤ 1900 then 650 else if p ≤ 2600 then 750 else if p ≤ 2950 then 800 else 900

end Sys2Proof.Machine
end

