-- ==== Sys2Proof/Machine/RegTable.lean ====
section
/-!
DEFINITION. The registers of every unit register block, as the register entries of the spec's chapters list
them: name, offset, stride and count, levels, retention class, and fields with access code, reset value
and permitted values (R7-R14, R24, R25).
-/
namespace Sys2Proof.Machine

/-- The access codes of Table 0-3. -/
inductive Acc where
  | rw | ro | wo | w1c | w1s | rc
  deriving DecidableEq, Repr

/-- The retention classes of Table 0-4. -/
inductive RClass where
  | A | W | S | L | V | D | F
  deriving DecidableEq, Repr

/-- The lowest level that may make an access: the privilege levels, or for class D registers the debug
levels none, observe and full (R743). -/
inductive Lvl where
  | k | s | u | dbgNone | dbgObs | dbgFull
  deriving DecidableEq, Repr

/-- The registers of the register blocks. -/
inductive RegName where
  | unitId | unitState | unitOwner | dieTemp | dieTherm | paceMon | paceCfg | stallUnit | stallStatus
  | stallLast | stallBound | tbCtl | tbStatus | tbNow | tbLoad | tbTrim | tbOffset | tbPpsStamp | coreSpecctl
  | coreExec | winBase | winAttr | winReloc | homeSlice | slcPart | xrBase | xrAttr | l2Ctl | l2Waymask
  | slcCtl | cmOp | cmStatus | coreMesh | memRangeBase | memRangeAttr | mcMark | mcEcc | mcLastUe | mcScrub
  | mcSched | mcShare | mcCfg | mcStatus | evSrc | coreInbox | mbxMsg | mbxStatus | mbxAck | mbxBell
  | mbxBellmask | mbxBellclr | mbxPerm | mbxLastack | cadCfg | cadPhase | cadBsn | bufBase | bufAttr
  | seTbl | seReload | seRtport | seChk | seLate | seLast | tdmCfg | tdmStatus | tdmSlot | cgCfg | cgHist
  | commitCtl | cgStat | commitLast | twinCtl | twinInmask | lqCfg | lqLink | lqErr | portMac | mgtMac
  | ringBase | mgtRingBase | ringIdx | mgtRingIdx | rmbxDest | rmbxMsg | rmbxStat | trlDev | trlBound
  | trlRtSel | trlRt | remWin | expWin | pcieCfg | pcieCfga | pcieCfgd | pcieAp | mgtCfg | aedStatus
  | aedSeq | epochPost | epochCtl | epochAck | corePwr | regHold | deepCtl | pwrCause | pwrRecDoze | pwrRecNap
  | pwrRecHold | pwrRecOff | pwrRecDeep | padHold | padRelease | supplyStat | bootStatus | bootAttempt
  | fuseKeys | meas | errStatus | errCode | errAddr | errDt | hbStatus | hbCmd | hbTrig | hbTdm | hbNetA
  | hbNetB | hbSmac | sentCtl | sentPet | sentStat | wdogCfg | wdogPet | elogCtl | elogSel | elogData
  | elogIn | gpioFilt | alarmCfg | crbCtl | crbKey | crbPorts | crbHs | crbEcc | crbEccAddr | crbVote
  | rhStat | rhKey | dbgChal | dbgUnlkCtl | dbgUnlkKey | dbgUnlkSig | dbgLevel | cdbgCmd | cdbgCfg | cdbgStat
  | cdbgPc | cdbgPcs | cdbgRsel | cdbgRdata | cdbgCmp | cdbgCmpc | dbmCtl | dbmAddr | dbmStat | dbmData
  | vtOut | vtIn | trcSrc | tsCtl | tsBase | tsPtr | tsTrig | tsTdt | tsDrop
  deriving DecidableEq, Repr

/-- One field of a register: place, width, access code, reset value, retention class where it differs
from the register's, and the permitted values (none listed: every value) (R12). -/
structure FieldRow where
  lo : Nat
  w : Nat
  acc : Acc
  reset : Nat
  cls : Option RClass
  ok : List (Nat × Nat)
  deriving DecidableEq, Repr

/-- One register, or an array of like registers. -/
structure RegRow where
  name : RegName
  off : Nat
  stride : Nat
  count : Nat
  rd : Lvl
  wr : Lvl
  cls : RClass
  fields : List FieldRow
  deriving DecidableEq, Repr

/-- UNIT_ID: unit identity (01_six_levels.md). Fields UID, TYPE_REV. -/
def regUnitId : RegRow := ⟨.unitId, 0x0, 8, 1, .s, .k, .F,
  [⟨0, 16, .ro, 0, none, []⟩,
   ⟨16, 8, .ro, 1, none, []⟩]⟩
/-- UNIT_STATE: unit role, fence and power state (01_six_levels.md). Fields ROLE, FENCED, POWER. -/
def regUnitState : RegRow := ⟨.unitState, 0x8, 8, 1, .s, .k, .S,
  [⟨0, 2, .rw, 0, none, [(0, 2)]⟩,
   ⟨4, 1, .rw, 0, none, []⟩,
   ⟨8, 3, .ro, 0, some .V, []⟩]⟩
/-- UNIT_OWNER: owning partition (01_six_levels.md). Fields PART, MODE. -/
def regUnitOwner : RegRow := ⟨.unitOwner, 0x10, 8, 1, .s, .k, .S,
  [⟨0, 8, .rw, 0, none, []⟩,
   ⟨8, 2, .rw, 0, none, [(0, 2)]⟩]⟩
/-- DIE_TEMP: die temperature (01_six_levels.md). Fields TMAX, VALID, HOTTEST. -/
def regDieTemp : RegRow := ⟨.dieTemp, 0x4000, 8, 1, .s, .k, .V,
  [⟨0, 12, .ro, 0, none, []⟩,
   ⟨12, 1, .ro, 0, none, []⟩,
   ⟨16, 4, .ro, 0, none, []⟩]⟩
/-- DIE_THERM: die thermal thresholds (01_six_levels.md). Fields WARN, CRIT, WARN_EV, CRIT_EN. -/
def regDieTherm : RegRow := ⟨.dieTherm, 0x4008, 8, 1, .k, .k, .S,
  [⟨0, 8, .rw, 0x64, none, [(60, 104)]⟩,
   ⟨8, 8, .rw, 0x6C, none, [(106, 115)]⟩,
   ⟨16, 1, .rw, 1, none, []⟩,
   ⟨17, 1, .rw, 1, none, []⟩]⟩
/-- PACE_MON: pace of cluster c (02_handshake_timing.md). Fields PACE, PACE_MIN, VALID. -/
def regPaceMon : RegRow := ⟨.paceMon, 0x4100, 8, 9, .s, .k, .V,
  [⟨0, 16, .ro, 0, none, []⟩,
   ⟨16, 16, .rw, 0xFFFF, none, []⟩,
   ⟨32, 1, .ro, 0, none, []⟩]⟩
/-- PACE_CFG: region pace requirement (02_handshake_timing.md). Fields REQ, ALARM_PCT, HEAD_PCT, ALARM. -/
def regPaceCfg : RegRow := ⟨.paceCfg, 0x4000, 8, 1, .k, .k, .S,
  [⟨0, 16, .rw, 0, none, []⟩,
   ⟨16, 8, .rw, 5, none, [(1, 50)]⟩,
   ⟨24, 8, .rw, 0xA, none, [(2, 50)]⟩,
   ⟨32, 1, .w1c, 0, none, []⟩]⟩
/-- STALL_UNIT: unit stall summary (02_handshake_timing.md). Fields UNIT_BOUND, NPORTS. -/
def regStallUnit : RegRow := ⟨.stallUnit, 0x1000, 8, 1, .s, .k, .F,
  [⟨0, 20, .ro, 0, some .V, []⟩,
   ⟨24, 7, .ro, 0, none, []⟩]⟩
/-- STALL_STATUS: stalled ports (02_handshake_timing.md). Fields STALLED. -/
def regStallStatus : RegRow := ⟨.stallStatus, 0x1008, 8, 1, .s, .k, .V,
  [⟨0, 64, .w1c, 0, none, []⟩]⟩
/-- STALL_LAST: last stall (02_handshake_timing.md). Fields PORT, PHASE, PARTNER, DT_EXP. -/
def regStallLast : RegRow := ⟨.stallLast, 0x1010, 8, 1, .s, .k, .V,
  [⟨0, 6, .ro, 0, none, []⟩,
   ⟨6, 2, .ro, 0, none, []⟩,
   ⟨8, 16, .ro, 0, none, []⟩,
   ⟨24, 40, .ro, 0, none, []⟩]⟩
/-- STALL_BOUND: port stall bound (02_handshake_timing.md). Fields BOUND, CLASS, PARTNER. -/
def regStallBound : RegRow := ⟨.stallBound, 0x1100, 8, 64, .s, .k, .S,
  [⟨0, 20, .rw, 0, none, []⟩,
   ⟨20, 3, .ro, 0, none, []⟩,
   ⟨24, 16, .ro, 0, none, []⟩]⟩
/-- TB_CTL: time base control (02_handshake_timing.md). Fields SRC, PPS_POL, LOAD_EN. -/
def regTbCtl : RegRow := ⟨.tbCtl, 0x8000, 8, 1, .k, .k, .W,
  [⟨0, 3, .rw, 0, none, [(0, 4)]⟩,
   ⟨3, 1, .rw, 0, none, []⟩,
   ⟨5, 1, .w1c, 1, none, []⟩]⟩
/-- TB_STATUS: time base status (02_handshake_timing.md). Fields STATE, REF10_OK, PPS_OK, XTAL_OK, FALLBACK. -/
def regTbStatus : RegRow := ⟨.tbStatus, 0x8008, 8, 1, .s, .k, .W,
  [⟨0, 2, .ro, 0, none, []⟩,
   ⟨2, 1, .ro, 0, none, []⟩,
   ⟨3, 1, .ro, 0, none, []⟩,
   ⟨4, 1, .ro, 0, none, []⟩,
   ⟨5, 1, .ro, 0, none, []⟩]⟩
/-- TB_NOW: device time (02_handshake_timing.md). Fields DT. -/
def regTbNow : RegRow := ⟨.tbNow, 0x8010, 8, 1, .s, .k, .W,
  [⟨0, 64, .ro, 0, none, []⟩]⟩
/-- TB_LOAD: device time load (02_handshake_timing.md). Fields VALUE. -/
def regTbLoad : RegRow := ⟨.tbLoad, 0x8018, 8, 1, .k, .k, .W,
  [⟨13, 51, .wo, 0, none, []⟩]⟩
/-- TB_TRIM: frequency trim (02_handshake_timing.md). Fields TRIM. -/
def regTbTrim : RegRow := ⟨.tbTrim, 0x8020, 8, 1, .k, .k, .W,
  [⟨0, 32, .rw, 0, none, [(0, 51200000), (4243767296, 4294967295)]⟩]⟩
/-- TB_OFFSET: network time offset (02_handshake_timing.md). Fields OFFSET. -/
def regTbOffset : RegRow := ⟨.tbOffset, 0x8028, 8, 1, .s, .k, .W,
  [⟨0, 64, .rw, 0, none, []⟩]⟩
/-- TB_PPS_STAMP: last 1PPS edge (02_handshake_timing.md). Fields STAMP. -/
def regTbPpsStamp : RegRow := ⟨.tbPpsStamp, 0x8030, 8, 1, .s, .k, .V,
  [⟨0, 64, .ro, 0, none, []⟩]⟩
/-- CORE_SPECCTL: speculation limits (05_core_execution.md). Fields NOSPEC_FILL, NOSPEC_WALK. -/
def regCoreSpecctl : RegRow := ⟨.coreSpecctl, 0x4008, 8, 1, .s, .k, .S,
  [⟨0, 1, .rw, 0, none, []⟩,
   ⟨1, 1, .rw, 0, none, []⟩]⟩
/-- CORE_EXEC: core execution status (05_core_execution.md). Fields DMODE_NOW, BP_OFF_NOW, PRED_INIT, LS_INIT, L1_DRAIN, CKPT_USED, ROB_USED, LQ_USED, SB_USED. -/
def regCoreExec : RegRow := ⟨.coreExec, 0x4000, 8, 1, .s, .k, .V,
  [⟨0, 1, .ro, 0, none, []⟩,
   ⟨1, 1, .ro, 0, none, []⟩,
   ⟨2, 1, .ro, 1, none, []⟩,
   ⟨3, 1, .ro, 1, none, []⟩,
   ⟨4, 1, .ro, 0, none, []⟩,
   ⟨8, 6, .ro, 0, none, []⟩,
   ⟨16, 8, .ro, 0, none, []⟩,
   ⟨24, 6, .ro, 0, none, []⟩,
   ⟨32, 6, .ro, 0, none, []⟩]⟩
/-- WIN_BASE: window base (06_translation.md). Fields EN, BASE. -/
def regWinBase : RegRow := ⟨.winBase, 0x4200, 16, 16, .s, .k, .S,
  [⟨0, 1, .rw, 0, none, []⟩,
   ⟨21, 27, .rw, 0, none, []⟩]⟩
/-- WIN_ATTR: window size, rights and types (06_translation.md). Fields SIZE, R, W, X, U, TYPES, DEFTYPE. -/
def regWinAttr : RegRow := ⟨.winAttr, 0x4208, 16, 16, .s, .k, .S,
  [⟨0, 6, .rw, 0x15, none, [(21, 48)]⟩,
   ⟨8, 1, .rw, 0, none, []⟩,
   ⟨9, 1, .rw, 0, none, []⟩,
   ⟨10, 1, .rw, 0, none, []⟩,
   ⟨11, 1, .rw, 0, none, []⟩,
   ⟨16, 5, .rw, 0, none, []⟩,
   ⟨24, 3, .rw, 0, none, [(0, 4)]⟩]⟩
/-- WIN_RELOC: window relocation (06_translation.md). Fields EN, RBASE. -/
def regWinReloc : RegRow := ⟨.winReloc, 0x4600, 8, 16, .s, .k, .S,
  [⟨0, 1, .rw, 0, none, []⟩,
   ⟨21, 27, .rw, 0, none, []⟩]⟩
/-- HOME_SLICE: home slice list entry (07_caches_ordering.md). Fields UID, EN. -/
def regHomeSlice : RegRow := ⟨.homeSlice, 0x4300, 8, 16, .s, .k, .S,
  [⟨0, 16, .rw, 0, none, []⟩,
   ⟨16, 1, .rw, 0, none, []⟩]⟩
/-- SLC_PART: slice partition entry (07_caches_ordering.md). Fields EN, REP, PART, WAYS. -/
def regSlcPart : RegRow := ⟨.slcPart, 0x4010, 8, 4, .s, .k, .S,
  [⟨0, 1, .rw, 0, none, []⟩,
   ⟨1, 2, .rw, 0, none, []⟩,
   ⟨8, 8, .rw, 0, none, []⟩,
   ⟨16, 12, .rw, 0, none, []⟩]⟩
/-- XR_BASE: exchange range base (07_caches_ordering.md). Fields EN, BASE. -/
def regXrBase : RegRow := ⟨.xrBase, 0x5000, 16, 64, .s, .k, .S,
  [⟨0, 1, .rw, 0, none, []⟩,
   ⟨21, 27, .rw, 0, none, []⟩]⟩
/-- XR_ATTR: exchange range attributes (07_caches_ordering.md). Fields SIZE, HUB, PIN, WAYS, PCIE, LOST. -/
def regXrAttr : RegRow := ⟨.xrAttr, 0x5008, 16, 64, .s, .k, .S,
  [⟨0, 6, .rw, 0x15, none, [(21, 42)]⟩,
   ⟨6, 1, .rw, 0, none, []⟩,
   ⟨7, 1, .rw, 0, none, []⟩,
   ⟨8, 16, .rw, 0, none, []⟩,
   ⟨24, 1, .rw, 0, none, []⟩,
   ⟨25, 1, .rw, 0, none, []⟩]⟩
/-- L2_CTL: L2 control (07_caches_ordering.md). Fields PF_EN, AGE_PER, INIT. -/
def regL2Ctl : RegRow := ⟨.l2Ctl, 0x4000, 8, 1, .s, .k, .S,
  [⟨0, 4, .rw, 0xF, none, []⟩,
   ⟨8, 16, .rw, 0x64, none, []⟩,
   ⟨32, 1, .ro, 1, some .V, []⟩]⟩
/-- L2_WAYMASK: fill ways of core c (07_caches_ordering.md). Fields MASK. -/
def regL2Waymask : RegRow := ⟨.l2Waymask, 0x4010, 8, 4, .s, .k, .S,
  [⟨0, 16, .rw, 0xFFFF, none, [(1, 65535)]⟩]⟩
/-- SLC_CTL: slice control (07_caches_ordering.md). Fields AGE_PER, INIT, DRAINED. -/
def regSlcCtl : RegRow := ⟨.slcCtl, 0x4000, 8, 1, .s, .k, .S,
  [⟨8, 16, .rw, 0x64, none, []⟩,
   ⟨32, 1, .ro, 1, some .V, []⟩,
   ⟨33, 1, .ro, 1, some .V, []⟩]⟩
/-- CM_OP: set-and-way maintenance (07_caches_ordering.md). Fields OP, SET, WAY. -/
def regCmOp : RegRow := ⟨.cmOp, 0x4100, 8, 1, .k, .k, .V,
  [⟨0, 3, .wo, 0, none, [(1, 5)]⟩,
   ⟨8, 11, .wo, 0, none, []⟩,
   ⟨24, 4, .wo, 0, none, []⟩]⟩
/-- CM_STATUS: maintenance status (07_caches_ordering.md). Fields BUSY, DONE, WBERR. -/
def regCmStatus : RegRow := ⟨.cmStatus, 0x4108, 8, 1, .k, .k, .V,
  [⟨0, 1, .ro, 0, none, []⟩,
   ⟨1, 1, .w1c, 0, none, []⟩,
   ⟨2, 1, .w1c, 0, none, []⟩]⟩
/-- CORE_MESH: demand traffic class (07_caches_ordering.md). Fields CLASS. -/
def regCoreMesh : RegRow := ⟨.coreMesh, 0x4010, 8, 1, .s, .k, .S,
  [⟨0, 1, .rw, 0, none, []⟩]⟩
/-- MEM_RANGE_BASE: memory range base (08_memory_channels.md). Fields EN, BASE. -/
def regMemRangeBase : RegRow := ⟨.memRangeBase, 0x6000, 16, 16, .s, .k, .W,
  [⟨0, 1, .rw, 0, none, []⟩,
   ⟨30, 18, .rw, 0, none, []⟩]⟩
/-- MEM_RANGE_ATTR: memory range attributes (08_memory_channels.md). Fields CHMASK, GRAN, MIRROR, DEGRADED, SIZE, LBASE. -/
def regMemRangeAttr : RegRow := ⟨.memRangeAttr, 0x6008, 16, 16, .s, .k, .W,
  [⟨0, 12, .rw, 0, none, []⟩,
   ⟨12, 1, .rw, 0, none, []⟩,
   ⟨13, 1, .rw, 0, none, []⟩,
   ⟨14, 1, .ro, 0, none, []⟩,
   ⟨16, 12, .rw, 0, none, []⟩,
   ⟨30, 8, .rw, 0, none, []⟩]⟩
/-- MC_MARK: device mark (08_memory_channels.md). Fields VALID, DEV, AUTO, THR, CNT, CNT_DEV. -/
def regMcMark : RegRow := ⟨.mcMark, 0x4200, 8, 8, .s, .k, .S,
  [⟨0, 1, .rw, 0, none, []⟩,
   ⟨1, 4, .rw, 0, none, [(0, 9)]⟩,
   ⟨5, 1, .ro, 0, none, []⟩,
   ⟨8, 8, .rw, 8, none, []⟩,
   ⟨16, 16, .ro, 0, none, []⟩,
   ⟨32, 4, .ro, 0, none, []⟩]⟩
/-- MC_ECC: error counts (08_memory_channels.md). Fields CE, UE. -/
def regMcEcc : RegRow := ⟨.mcEcc, 0x4020, 8, 1, .s, .k, .S,
  [⟨0, 24, .rc, 0, none, []⟩,
   ⟨24, 16, .rc, 0, none, []⟩]⟩
/-- MC_LAST_UE: last uncorrectable codeword (08_memory_channels.md). Fields LADDR, RANK, SUBCH, SRC. -/
def regMcLastUe : RegRow := ⟨.mcLastUe, 0x4028, 8, 1, .s, .k, .S,
  [⟨6, 32, .ro, 0, none, []⟩,
   ⟨38, 2, .ro, 0, none, []⟩,
   ⟨40, 1, .ro, 0, none, []⟩,
   ⟨41, 2, .ro, 0, none, []⟩]⟩
/-- MC_SCRUB: patrol scrub (08_memory_channels.md). Fields EN, DEMAND, PERIOD, PASSES. -/
def regMcScrub : RegRow := ⟨.mcScrub, 0x4010, 8, 1, .s, .k, .S,
  [⟨0, 1, .rw, 1, none, []⟩,
   ⟨1, 1, .rw, 1, none, []⟩,
   ⟨8, 8, .rw, 0x18, none, [(1, 168)]⟩,
   ⟨32, 16, .ro, 0, none, []⟩]⟩
/-- MC_SCHED: scheduling (08_memory_channels.md). Fields RT_SHARE, OPEN_IDLE, RH_K, RH_BLAST, RFM_EN, WR_HI, WR_LO. -/
def regMcSched : RegRow := ⟨.mcSched, 0x4008, 8, 1, .s, .k, .S,
  [⟨0, 8, .rw, 0x20, none, [(0, 128)]⟩,
   ⟨8, 8, .rw, 0xC, none, [(1, 255)]⟩,
   ⟨16, 5, .rw, 0xA, none, [(6, 16)]⟩,
   ⟨21, 1, .rw, 0, none, []⟩,
   ⟨22, 1, .rw, 1, none, []⟩,
   ⟨24, 8, .rw, 0x20, none, [(2, 40)]⟩,
   ⟨32, 8, .rw, 0x10, none, []⟩]⟩
/-- MC_SHARE: bandwidth share entry (08_memory_channels.md). Fields EN, REP, PART, SHARE, QMAX. -/
def regMcShare : RegRow := ⟨.mcShare, 0x4100, 8, 32, .s, .k, .S,
  [⟨0, 1, .rw, 0, none, []⟩,
   ⟨1, 2, .rw, 0, none, []⟩,
   ⟨8, 8, .rw, 0, none, []⟩,
   ⟨16, 8, .rw, 0, none, []⟩,
   ⟨24, 6, .rw, 0x10, none, [(1, 32)]⟩]⟩
/-- MC_CFG: channel configuration (08_memory_channels.md). Fields RATE, DPC, RPD, DENS, SPARE_EN, SPARE_RANK, SPARE_FROM, SPARE_GO, SPARE_STATE, SPARED_RANK. -/
def regMcCfg : RegRow := ⟨.mcCfg, 0x4000, 8, 1, .s, .k, .S,
  [⟨0, 3, .rw, 0, none, [(0, 4)]⟩,
   ⟨3, 2, .rw, 0, none, [(0, 2)]⟩,
   ⟨5, 1, .rw, 0, none, []⟩,
   ⟨6, 1, .rw, 0, none, []⟩,
   ⟨7, 1, .rw, 0, none, []⟩,
   ⟨8, 2, .rw, 0, none, []⟩,
   ⟨10, 2, .rw, 0, none, []⟩,
   ⟨12, 1, .w1s, 0, none, []⟩,
   ⟨13, 2, .ro, 0, none, []⟩,
   ⟨15, 2, .ro, 0, none, []⟩]⟩
/-- MC_STATUS: channel status (08_memory_channels.md). Fields STATE, TRAIN_SRC, RT_LEVEL, REF_POSTPONED, INIT_BLK. -/
def regMcStatus : RegRow := ⟨.mcStatus, 0x4030, 8, 1, .s, .k, .V,
  [⟨0, 2, .ro, 0, none, []⟩,
   ⟨2, 2, .ro, 0, none, []⟩,
   ⟨4, 2, .ro, 0, none, []⟩,
   ⟨6, 3, .ro, 0, none, []⟩,
   ⟨9, 9, .ro, 0, none, []⟩]⟩
/-- EV_SRC: event source configuration (09_events_mailboxes.md). Fields MASK, SENSE, POL, TGT, PART, LCORE, PRI, VEC, PEND, INSERV, EOI. -/
def regEvSrc : RegRow := ⟨.evSrc, 0x4000, 8, 4096, .s, .s, .L,
  [⟨0, 1, .rw, 1, none, []⟩,
   ⟨1, 1, .rw, 0, none, []⟩,
   ⟨2, 1, .rw, 0, none, []⟩,
   ⟨4, 2, .rw, 2, none, [(0, 2)]⟩,
   ⟨8, 8, .rw, 0, none, []⟩,
   ⟨16, 8, .rw, 0, none, []⟩,
   ⟨24, 4, .rw, 0, none, []⟩,
   ⟨32, 8, .rw, 0, none, []⟩,
   ⟨40, 1, .ro, 0, none, []⟩,
   ⟨41, 1, .ro, 0, none, []⟩,
   ⟨42, 1, .wo, 0, none, []⟩]⟩
/-- CORE_INBOX: pending vectors (09_events_mailboxes.md). Fields PEND. -/
def regCoreInbox : RegRow := ⟨.coreInbox, 0x4400, 8, 4, .s, .s, .V,
  [⟨0, 64, .w1c, 0, none, []⟩]⟩
/-- MBX_MSG: message (09_events_mailboxes.md). Fields MSG. -/
def regMbxMsg : RegRow := ⟨.mbxMsg, 0x4000, 64, 260, .s, .s, .L,
  [⟨0, 64, .rw, 0, none, []⟩]⟩
/-- MBX_STATUS: mailbox status (09_events_mailboxes.md). Fields FULL, ACKED, OVERRUN, SENDER, SENDER_K. -/
def regMbxStatus : RegRow := ⟨.mbxStatus, 0x4008, 64, 260, .s, .s, .L,
  [⟨0, 1, .ro, 0, none, []⟩,
   ⟨1, 1, .ro, 0, none, []⟩,
   ⟨2, 1, .w1c, 0, none, []⟩,
   ⟨8, 8, .ro, 0, none, []⟩,
   ⟨16, 1, .ro, 0, none, []⟩]⟩
/-- MBX_ACK: acknowledge (09_events_mailboxes.md). Fields CODE, ACK. -/
def regMbxAck : RegRow := ⟨.mbxAck, 0x4010, 64, 260, .s, .s, .L,
  [⟨0, 32, .rw, 0, none, []⟩,
   ⟨32, 1, .wo, 0, none, []⟩]⟩
/-- MBX_BELL: doorbells, mask, clear (09_events_mailboxes.md). Fields BELLS. -/
def regMbxBell : RegRow := ⟨.mbxBell, 0x4018, 64, 260, .s, .s, .L,
  [⟨0, 32, .w1s, 0, none, []⟩]⟩
/-- MBX_BELLMASK: doorbells, mask, clear (09_events_mailboxes.md). Fields BELLS. -/
def regMbxBellmask : RegRow := ⟨.mbxBellmask, 0x4020, 64, 260, .s, .s, .L,
  [⟨0, 32, .rw, 0xFFFFFFFF, none, []⟩]⟩
/-- MBX_BELLCLR: doorbells, mask, clear (09_events_mailboxes.md). Fields BELLS. -/
def regMbxBellclr : RegRow := ⟨.mbxBellclr, 0x4028, 64, 260, .s, .s, .L,
  [⟨0, 32, .w1c, 0, none, []⟩]⟩
/-- MBX_PERM: cross-partition rights (09_events_mailboxes.md). Fields RIGHTS. -/
def regMbxPerm : RegRow := ⟨.mbxPerm, 0x9000, 8, 2048, .s, .k, .L,
  [⟨0, 64, .rw, 0, none, []⟩]⟩
/-- MBX_LASTACK: last acknowledge for a sender (09_events_mailboxes.md). Fields CODE, MBOX, VALID. -/
def regMbxLastack : RegRow := ⟨.mbxLastack, 0xD000, 8, 256, .s, .k, .L,
  [⟨0, 32, .ro, 0, none, []⟩,
   ⟨32, 9, .ro, 0, none, []⟩,
   ⟨41, 1, .ro, 0, none, []⟩]⟩
/-- CAD_CFG: cadence configuration (10_audio_streams.md). Fields EN, RATE, BLK, GUARD, SHIFT. -/
def regCadCfg : RegRow := ⟨.cadCfg, 0x7000, 16, 16, .s, .k, .S,
  [⟨0, 1, .rw, 0, none, []⟩,
   ⟨1, 1, .rw, 0, none, []⟩,
   ⟨2, 3, .rw, 3, none, [(0, 5)]⟩,
   ⟨16, 8, .rw, 8, none, [(8, 200)]⟩,
   ⟨32, 8, .rw, 0, none, []⟩]⟩
/-- CAD_PHASE: cadence phase (10_audio_streams.md). Fields PHASE. -/
def regCadPhase : RegRow := ⟨.cadPhase, 0x7008, 16, 16, .s, .k, .S,
  [⟨3, 61, .rw, 0, none, []⟩]⟩
/-- CAD_BSN: current block (10_audio_streams.md). Fields BSN, VALID. -/
def regCadBsn : RegRow := ⟨.cadBsn, 0x7100, 8, 16, .s, .k, .V,
  [⟨0, 48, .ro, 0, none, []⟩,
   ⟨48, 1, .ro, 0, none, []⟩]⟩
/-- BUF_BASE: buffer base (10_audio_streams.md). Fields EN, BASE. -/
def regBufBase : RegRow := ⟨.bufBase, 0x4000, 16, 64, .s, .k, .S,
  [⟨0, 1, .rw, 0, none, []⟩,
   ⟨12, 36, .rw, 0, none, []⟩]⟩
/-- BUF_ATTR: buffer attributes (10_audio_streams.md). Fields DIR, DEPTH, CAD, LO, GM1. -/
def regBufAttr : RegRow := ⟨.bufAttr, 0x4008, 16, 64, .s, .k, .S,
  [⟨0, 1, .rw, 0, none, []⟩,
   ⟨1, 1, .rw, 1, none, []⟩,
   ⟨2, 4, .rw, 0, none, []⟩,
   ⟨6, 2, .rw, 1, none, []⟩,
   ⟨8, 10, .rw, 0, none, []⟩]⟩
/-- SE_TBL: table base (10_audio_streams.md). Fields BASE. -/
def regSeTbl : RegRow := ⟨.seTbl, 0x5008, 8, 4, .s, .k, .S,
  [⟨12, 36, .rw, 0, none, []⟩]⟩
/-- SE_RELOAD: descriptor reload (10_audio_streams.md). Fields STREAM, DIR. -/
def regSeReload : RegRow := ⟨.seReload, 0x5028, 8, 1, .k, .k, .V,
  [⟨0, 10, .wo, 0, none, []⟩,
   ⟨10, 1, .wo, 0, none, []⟩]⟩
/-- SE_RTPORT: real-time port levels (10_audio_streams.md). Fields RX_URG, RX_PANIC, TX_URG, TX_PANIC, RX_LEVEL, TX_LEVEL. -/
def regSeRtport : RegRow := ⟨.seRtport, 0x5030, 8, 1, .s, .k, .S,
  [⟨0, 10, .rw, 0x100, none, [(1, 510)]⟩,
   ⟨10, 10, .rw, 0x1C0, none, []⟩,
   ⟨20, 10, .rw, 0xC0, none, [(2, 511)]⟩,
   ⟨30, 10, .rw, 0x40, none, []⟩,
   ⟨40, 2, .ro, 0, none, []⟩,
   ⟨42, 2, .ro, 0, none, []⟩]⟩
/-- SE_CHK: check failure counts (10_audio_streams.md). Fields LEN, HDR, SRC, WIN. -/
def regSeChk : RegRow := ⟨.seChk, 0x5038, 8, 1, .s, .k, .S,
  [⟨0, 16, .rc, 0, none, []⟩,
   ⟨16, 16, .rc, 0, none, []⟩,
   ⟨32, 16, .rc, 0, none, []⟩,
   ⟨48, 16, .rc, 0, none, []⟩]⟩
/-- SE_LATE: late and overflow counts (10_audio_streams.md). Fields LATE, OVF. -/
def regSeLate : RegRow := ⟨.seLate, 0x5040, 8, 1, .s, .k, .S,
  [⟨0, 32, .rc, 0, none, []⟩,
   ⟨32, 32, .rc, 0, none, []⟩]⟩
/-- SE_LAST: last refused packet (10_audio_streams.md). Fields STREAM, PATH, CODE, DT_REF. -/
def regSeLast : RegRow := ⟨.seLast, 0x5048, 8, 1, .s, .k, .V,
  [⟨0, 10, .ro, 0, none, []⟩,
   ⟨10, 1, .ro, 0, none, []⟩,
   ⟨12, 4, .ro, 0, none, []⟩,
   ⟨24, 40, .ro, 0, none, []⟩]⟩
/-- TDM_CFG: port configuration (10_audio_streams.md). Fields EN, MODE, SLOTS_M1, FS_FMT, FS_POL, EDGE, CAD. -/
def regTdmCfg : RegRow := ⟨.tdmCfg, 0x4000, 64, 4, .s, .k, .S,
  [⟨0, 1, .rw, 0, none, []⟩,
   ⟨1, 1, .rw, 0, none, []⟩,
   ⟨2, 5, .rw, 0x1F, none, []⟩,
   ⟨7, 2, .rw, 0, none, [(0, 2)]⟩,
   ⟨9, 1, .rw, 0, none, []⟩,
   ⟨10, 1, .rw, 0, none, []⟩,
   ⟨11, 4, .rw, 0, none, []⟩]⟩
/-- TDM_STATUS: port status (10_audio_streams.md). Fields CLK_OK, FIFO_IN, FIFO_OUT, SLIPS. -/
def regTdmStatus : RegRow := ⟨.tdmStatus, 0x4008, 64, 4, .s, .k, .V,
  [⟨0, 1, .ro, 0, none, []⟩,
   ⟨1, 3, .ro, 0, none, []⟩,
   ⟨4, 3, .ro, 0, none, []⟩,
   ⟨8, 16, .ro, 0, none, []⟩]⟩
/-- TDM_SLOT: slot map (10_audio_streams.md). Fields EN, DIR, CH, BUF. -/
def regTdmSlot : RegRow := ⟨.tdmSlot, 0x4400, 8, 128, .s, .k, .S,
  [⟨0, 1, .rw, 0, none, []⟩,
   ⟨1, 1, .rw, 0, none, []⟩,
   ⟨2, 14, .rw, 0, none, []⟩,
   ⟨16, 6, .rw, 0, none, []⟩]⟩
/-- CG_CFG: commit group configuration (11_block_redundancy.md). Fields EN, TIER, BUF_A, BUF_B, BUF_C, LIVE_A, LIVE_B, LIVE_C, PART, HB_DESIG, TWIN. -/
def regCgCfg : RegRow := ⟨.cgCfg, 0x6000, 32, 32, .s, .k, .S,
  [⟨0, 1, .rw, 0, none, []⟩,
   ⟨1, 2, .rw, 0, none, [(0, 2)]⟩,
   ⟨3, 6, .rw, 0, none, []⟩,
   ⟨9, 6, .rw, 0, none, []⟩,
   ⟨15, 6, .rw, 0, none, []⟩,
   ⟨21, 1, .rw, 0, none, []⟩,
   ⟨22, 1, .rw, 0, none, []⟩,
   ⟨23, 1, .rw, 0, none, []⟩,
   ⟨24, 8, .rw, 0, none, []⟩,
   ⟨32, 1, .rw, 0, none, []⟩,
   ⟨33, 1, .rw, 0, none, []⟩]⟩
/-- CG_HIST: history area (11_block_redundancy.md). Fields BASE. -/
def regCgHist : RegRow := ⟨.cgHist, 0x6008, 32, 32, .s, .k, .S,
  [⟨12, 36, .rw, 0, none, []⟩]⟩
/-- COMMIT_CTL: commit stage control (11_block_redundancy.md). Fields LEAD, FADE_MS. -/
def regCommitCtl : RegRow := ⟨.commitCtl, 0x5800, 8, 1, .s, .k, .S,
  [⟨0, 8, .rw, 0x32, none, [(20, 250)]⟩,
   ⟨8, 6, .rw, 0xA, none, [(2, 50)]⟩]⟩
/-- CG_STAT: commit group status (11_block_redundancy.md). Fields LAST, GAP, OUTVOTED, LATE, CONCEALED. -/
def regCgStat : RegRow := ⟨.cgStat, 0x6010, 32, 32, .s, .k, .V,
  [⟨0, 2, .ro, 0, none, []⟩,
   ⟨2, 4, .ro, 0, none, []⟩,
   ⟨8, 3, .w1c, 0, none, []⟩,
   ⟨11, 3, .ro, 0, none, []⟩,
   ⟨16, 32, .ro, 0, none, []⟩]⟩
/-- COMMIT_LAST: last commit event (11_block_redundancy.md). Fields GRP, REPLICA, EVENT, BSN. -/
def regCommitLast : RegRow := ⟨.commitLast, 0x5808, 8, 1, .s, .k, .V,
  [⟨0, 5, .ro, 0, none, []⟩,
   ⟨5, 2, .ro, 3, none, []⟩,
   ⟨8, 4, .ro, 0, none, []⟩,
   ⟨16, 48, .ro, 0, none, []⟩]⟩
/-- TWIN_CTL: twin operation (11_block_redundancy.md). Fields PEER, EN, PEER_OK, SOLO_IN. -/
def regTwinCtl : RegRow := ⟨.twinCtl, 0x5810, 8, 1, .s, .k, .S,
  [⟨0, 12, .rw, 0, none, []⟩,
   ⟨12, 1, .rw, 0, none, []⟩,
   ⟨13, 1, .ro, 0, some .V, []⟩,
   ⟨14, 1, .ro, 0, some .V, []⟩]⟩
/-- TWIN_INMASK: mirrored input buffers (11_block_redundancy.md). Fields MASK. -/
def regTwinInmask : RegRow := ⟨.twinInmask, 0x5818, 8, 1, .s, .k, .S,
  [⟨0, 64, .rw, 0, none, []⟩]⟩
/-- LQ_CFG: quad configuration (12_lanes_and_links.md). Fields MODE, TWIDTH, FEC25, HOST, TX_INV, RX_INV. -/
def regLqCfg : RegRow := ⟨.lqCfg, 0x4000, 8, 1, .s, .k, .S,
  [⟨0, 3, .rw, 0, none, [(0, 6)]⟩,
   ⟨3, 2, .rw, 2, none, [(0, 2)]⟩,
   ⟨5, 1, .rw, 0, none, []⟩,
   ⟨6, 1, .rw, 0, none, []⟩,
   ⟨8, 4, .rw, 0, none, []⟩,
   ⟨12, 4, .rw, 0, none, []⟩]⟩
/-- LQ_LINK: port or link state (12_lanes_and_links.md). Fields CABLE, PEER, STATE, SIG, PEER_SEEN, MEAS. -/
def regLqLink : RegRow := ⟨.lqLink, 0x4040, 8, 4, .s, .k, .S,
  [⟨0, 16, .rw, 0, none, []⟩,
   ⟨16, 12, .rw, 0, none, []⟩,
   ⟨32, 3, .ro, 0, some .V, []⟩,
   ⟨35, 1, .ro, 0, some .V, []⟩,
   ⟨36, 12, .ro, 0, some .V, []⟩,
   ⟨48, 16, .ro, 0, some .V, []⟩]⟩
/-- LQ_ERR: error counts (12_lanes_and_links.md). Fields CORR, UNC, LINKERR. -/
def regLqErr : RegRow := ⟨.lqErr, 0x4080, 8, 4, .s, .k, .S,
  [⟨0, 24, .rc, 0, none, []⟩,
   ⟨24, 16, .rc, 0, none, []⟩,
   ⟨40, 16, .rc, 0, none, []⟩]⟩
/-- PORT_MAC: port address (12_lanes_and_links.md). Fields MAC, ALLMC. -/
def regPortMac : RegRow := ⟨.portMac, 0x4100, 8, 4, .s, .s, .S,
  [⟨0, 48, .rw, 0, none, []⟩,
   ⟨48, 1, .rw, 0, none, []⟩]⟩
/-- PORT_MAC (MGT): port address (12_lanes_and_links.md). Fields MAC, ALLMC. -/
def regMgtMac : RegRow := ⟨.mgtMac, 0x4100, 8, 1, .s, .s, .S,
  [⟨0, 48, .rw, 0, none, []⟩,
   ⟨48, 1, .rw, 0, none, []⟩]⟩
/-- RING_BASE: ring base and size (12_lanes_and_links.md). Fields EN, LOG2N, BASE. -/
def regRingBase : RegRow := ⟨.ringBase, 0x4200, 16, 8, .s, .s, .S,
  [⟨0, 1, .rw, 0, none, []⟩,
   ⟨1, 4, .rw, 4, none, [(4, 12)]⟩,
   ⟨12, 36, .rw, 0, none, []⟩]⟩
/-- RING_BASE (MGT): ring base and size (12_lanes_and_links.md). Fields EN, LOG2N, BASE. -/
def regMgtRingBase : RegRow := ⟨.mgtRingBase, 0x4200, 16, 2, .s, .s, .S,
  [⟨0, 1, .rw, 0, none, []⟩,
   ⟨1, 4, .rw, 4, none, [(4, 12)]⟩,
   ⟨12, 36, .rw, 0, none, []⟩]⟩
/-- RING_IDX: ring indices (12_lanes_and_links.md). Fields TAIL, HEAD, DROPS. -/
def regRingIdx : RegRow := ⟨.ringIdx, 0x4208, 16, 8, .s, .s, .S,
  [⟨0, 16, .rw, 0, none, []⟩,
   ⟨16, 16, .ro, 0, none, []⟩,
   ⟨32, 32, .ro, 0, none, []⟩]⟩
/-- RING_IDX (MGT): ring indices (12_lanes_and_links.md). Fields TAIL, HEAD, DROPS. -/
def regMgtRingIdx : RegRow := ⟨.mgtRingIdx, 0x4208, 16, 2, .s, .s, .S,
  [⟨0, 16, .rw, 0, none, []⟩,
   ⟨16, 16, .ro, 0, none, []⟩,
   ⟨32, 32, .ro, 0, none, []⟩]⟩
/-- RMBX_DEST: proxy destination (12_lanes_and_links.md). Fields EN, PART, PEER, PPROXY, MBOX. -/
def regRmbxDest : RegRow := ⟨.rmbxDest, 0xE000, 32, 16, .s, .k, .L,
  [⟨0, 1, .rw, 0, none, []⟩,
   ⟨1, 8, .rw, 0, none, []⟩,
   ⟨9, 12, .rw, 0, none, []⟩,
   ⟨21, 4, .rw, 0, none, []⟩,
   ⟨25, 9, .rw, 0, none, [(0, 259)]⟩]⟩
/-- RMBX_MSG: proxy message and status (12_lanes_and_links.md). Fields MSG. -/
def regRmbxMsg : RegRow := ⟨.rmbxMsg, 0xE008, 32, 16, .s, .s, .L,
  [⟨0, 64, .rw, 0, none, []⟩]⟩
/-- RMBX_STAT: proxy message and status (12_lanes_and_links.md). Fields FULL, ACKED, OVERRUN, REFUSED, LOST, CODE. -/
def regRmbxStat : RegRow := ⟨.rmbxStat, 0xE010, 32, 16, .s, .s, .L,
  [⟨0, 1, .ro, 0, none, []⟩,
   ⟨1, 1, .ro, 0, none, []⟩,
   ⟨2, 1, .w1c, 0, none, []⟩,
   ⟨3, 1, .ro, 0, none, []⟩,
   ⟨4, 1, .ro, 0, none, []⟩,
   ⟨32, 32, .ro, 0, none, []⟩]⟩
/-- TRL_DEV: Trelub device settings (12_lanes_and_links.md). Fields DEVID, TIME_LINK, REM_WAYS. -/
def regTrlDev : RegRow := ⟨.trlDev, 0x8000, 8, 1, .s, .k, .S,
  [⟨0, 12, .rw, 0, none, []⟩,
   ⟨12, 6, .rw, 0, none, [(0, 39)]⟩,
   ⟨18, 16, .rw, 0, none, []⟩]⟩
/-- TRL_BOUND: class latency bounds (12_lanes_and_links.md). Fields MIRROR, AUDIO, MEMORY, MESSAGE, MAINT. -/
def regTrlBound : RegRow := ⟨.trlBound, 0x8008, 8, 1, .s, .k, .S,
  [⟨0, 12, .rw, 0, none, []⟩,
   ⟨12, 12, .rw, 0, none, []⟩,
   ⟨24, 12, .rw, 0, none, [(0, 400)]⟩,
   ⟨36, 12, .rw, 0, none, []⟩,
   ⟨48, 12, .rw, 0, none, []⟩]⟩
/-- TRL_RT_SEL: routing table access (12_lanes_and_links.md). Fields DEV. -/
def regTrlRtSel : RegRow := ⟨.trlRtSel, 0x8010, 8, 1, .s, .k, .S,
  [⟨0, 12, .rw, 0, none, []⟩]⟩
/-- TRL_RT: routing table access (12_lanes_and_links.md). Fields EN, LINK_P, LINK_S, RING, HOPS_P, HOPS_S, CAB_P, CAB_S, OK_P, OK_S. -/
def regTrlRt : RegRow := ⟨.trlRt, 0x8018, 8, 1, .s, .k, .S,
  [⟨0, 1, .rw, 0, none, []⟩,
   ⟨1, 6, .rw, 0, none, [(0, 39)]⟩,
   ⟨7, 6, .rw, 0x3F, none, [(0, 39), (63, 63)]⟩,
   ⟨13, 1, .rw, 0, none, []⟩,
   ⟨14, 6, .rw, 0, none, []⟩,
   ⟨20, 6, .rw, 0, none, []⟩,
   ⟨26, 12, .rw, 0, none, []⟩,
   ⟨38, 12, .rw, 0, none, []⟩,
   ⟨50, 5, .ro, 0, some .V, []⟩,
   ⟨55, 5, .ro, 0, some .V, []⟩]⟩
/-- REM_WIN: remote window (12_lanes_and_links.md). Fields EN, SIZE, BASE, PEER, EXPIDX. -/
def regRemWin : RegRow := ⟨.remWin, 0x8100, 8, 32, .s, .k, .S,
  [⟨0, 1, .rw, 0, none, []⟩,
   ⟨1, 6, .rw, 0x15, none, [(21, 36)]⟩,
   ⟨8, 27, .rw, 0, none, []⟩,
   ⟨35, 12, .rw, 0, none, []⟩,
   ⟨47, 5, .rw, 0, none, []⟩]⟩
/-- EXP_WIN: export entry (12_lanes_and_links.md). Fields EN, SIZE, W, BASE, PEER. -/
def regExpWin : RegRow := ⟨.expWin, 0x8200, 8, 32, .s, .k, .S,
  [⟨0, 1, .rw, 0, none, []⟩,
   ⟨1, 6, .rw, 0x15, none, [(21, 36)]⟩,
   ⟨7, 1, .rw, 0, none, []⟩,
   ⟨8, 27, .rw, 0, none, []⟩,
   ⟨35, 12, .rw, 0, none, []⟩]⟩
/-- PCIE_CFG: root port control and status (12_lanes_and_links.md). Fields EN, X8, MAXGEN, CTO, LINK_UP, SPEED, WIDTH, LTSSM. -/
def regPcieCfg : RegRow := ⟨.pcieCfg, 0x4000, 8, 1, .s, .k, .S,
  [⟨0, 1, .rw, 0, none, []⟩,
   ⟨1, 1, .rw, 0, none, []⟩,
   ⟨2, 3, .rw, 5, none, [(1, 5)]⟩,
   ⟨5, 1, .rw, 0, none, []⟩,
   ⟨7, 1, .ro, 0, some .V, []⟩,
   ⟨8, 3, .ro, 0, some .V, []⟩,
   ⟨11, 4, .ro, 0, some .V, []⟩,
   ⟨15, 6, .ro, 0, some .V, []⟩]⟩
/-- PCIE_CFGA: configuration address (12_lanes_and_links.md). Fields REG, FN, DEV, BUS, BE, STATUS. -/
def regPcieCfga : RegRow := ⟨.pcieCfga, 0x4010, 8, 1, .s, .s, .V,
  [⟨2, 10, .rw, 0, none, []⟩,
   ⟨12, 3, .rw, 0, none, []⟩,
   ⟨15, 5, .rw, 0, none, []⟩,
   ⟨20, 8, .rw, 0, none, []⟩,
   ⟨28, 4, .rw, 0xF, none, []⟩,
   ⟨32, 3, .ro, 0, none, []⟩]⟩
/-- PCIE_CFGD: configuration data (12_lanes_and_links.md). Fields DATA. -/
def regPcieCfgd : RegRow := ⟨.pcieCfgd, 0x4018, 8, 1, .s, .s, .V,
  [⟨0, 32, .rw, 0, none, []⟩]⟩
/-- PCIE_AP: aperture page (12_lanes_and_links.md). Fields EN, BUS. -/
def regPcieAp : RegRow := ⟨.pcieAp, 0x4100, 8, 7, .s, .s, .S,
  [⟨0, 1, .rw, 0, none, []⟩,
   ⟨12, 52, .rw, 0, none, []⟩]⟩
/-- MGT_CFG: management port control (12_lanes_and_links.md). Fields EN, MODE, AN_EN, LINK, SPEED. -/
def regMgtCfg : RegRow := ⟨.mgtCfg, 0x4000, 8, 1, .s, .k, .S,
  [⟨0, 1, .rw, 0, none, []⟩,
   ⟨1, 1, .rw, 0, none, []⟩,
   ⟨2, 1, .rw, 1, none, []⟩,
   ⟨3, 1, .ro, 0, some .V, []⟩,
   ⟨4, 2, .ro, 0, some .V, []⟩]⟩
/-- AED_STATUS: structure image status (13_structure_image.md). Fields CODE, KEY_BAD, REVOKED, SIG_BAD, ROLLBACK, SLOT, OFFSET. -/
def regAedStatus : RegRow := ⟨.aedStatus, 0x4800, 8, 1, .s, .k, .S,
  [⟨0, 16, .ro, 0, none, []⟩,
   ⟨16, 1, .ro, 0, none, []⟩,
   ⟨17, 1, .ro, 0, none, []⟩,
   ⟨18, 1, .ro, 0, none, []⟩,
   ⟨19, 1, .ro, 0, none, []⟩,
   ⟨20, 1, .ro, 0, none, []⟩,
   ⟨32, 32, .ro, 0, none, []⟩]⟩
/-- AED_SEQ: sequence number in force (13_structure_image.md). Fields SEQ. -/
def regAedSeq : RegRow := ⟨.aedSeq, 0x4808, 8, 1, .s, .k, .S,
  [⟨0, 64, .ro, 0, none, []⟩]⟩
/-- EPOCH_POST: posted epoch (14_epochs_restructure.md). Fields EPOCH, MODE, PHASE, STRICT, PART, ALL. -/
def regEpochPost : RegRow := ⟨.epochPost, 0x4100, 8, 1, .s, .k, .S,
  [⟨0, 32, .rw, 0, none, []⟩,
   ⟨32, 8, .rw, 0, none, []⟩,
   ⟨40, 2, .rw, 0, none, []⟩,
   ⟨42, 1, .ro, 0, none, []⟩,
   ⟨48, 8, .rw, 0, none, []⟩,
   ⟨56, 1, .rw, 0, none, []⟩]⟩
/-- EPOCH_CTL: acknowledgement bound (14_epochs_restructure.md). Fields BOUND. -/
def regEpochCtl : RegRow := ⟨.epochCtl, 0x4108, 8, 1, .s, .k, .S,
  [⟨0, 13, .rw, 0x1F4, none, [(50, 5000)]⟩]⟩
/-- EPOCH_ACK: acknowledgement state (14_epochs_restructure.md). Fields EPOCH, PHASE, DONE, RETRIED, PENDING, LAG. -/
def regEpochAck : RegRow := ⟨.epochAck, 0x4110, 8, 1, .s, .k, .V,
  [⟨0, 32, .ro, 0, none, []⟩,
   ⟨32, 2, .ro, 0, none, []⟩,
   ⟨34, 1, .ro, 1, none, []⟩,
   ⟨35, 1, .ro, 0, none, []⟩,
   ⟨36, 8, .ro, 0, none, []⟩,
   ⟨48, 16, .ro, 0xFFFF, none, []⟩]⟩
/-- CORE_PWR: core Nap control (15_power_reset.md). Fields NAP_EN, NAP_DELAY. -/
def regCorePwr : RegRow := ⟨.corePwr, 0x4480, 8, 1, .s, .k, .S,
  [⟨0, 1, .rw, 0, none, []⟩,
   ⟨4, 12, .rw, 0x64, none, [(8, 4000)]⟩]⟩
/-- REG_HOLD: cluster Hold and region Off (15_power_reset.md). Fields HOLD, OFF, IN_HOLD, IS_OFF. -/
def regRegHold : RegRow := ⟨.regHold, 0x4300, 8, 1, .s, .k, .S,
  [⟨0, 9, .rw, 0, none, []⟩,
   ⟨16, 1, .rw, 0, none, []⟩,
   ⟨32, 9, .ro, 0, some .V, []⟩,
   ⟨48, 1, .ro, 0, some .V, []⟩]⟩
/-- DEEP_CTL: Deep entry and wake sources (15_power_reset.md). Fields ENTER, ALARM_EN, BUTTON_EN, TIMER_EN, GPIO_A, GPIO_A_EN, GPIO_B, GPIO_B_EN, WAKE_AT. -/
def regDeepCtl : RegRow := ⟨.deepCtl, 0x9000, 8, 1, .k, .k, .W,
  [⟨0, 1, .wo, 0, none, []⟩,
   ⟨1, 4, .rw, 0xF, none, []⟩,
   ⟨5, 1, .rw, 1, none, []⟩,
   ⟨6, 1, .rw, 0, none, []⟩,
   ⟨8, 6, .rw, 0, none, []⟩,
   ⟨14, 1, .rw, 0, none, []⟩,
   ⟨16, 6, .rw, 0, none, []⟩,
   ⟨22, 1, .rw, 0, none, []⟩,
   ⟨24, 40, .rw, 0, none, []⟩]⟩
/-- PWR_CAUSE: last reset and last wake (15_power_reset.md). Fields RESET, WAKE, DEEP_CNT. -/
def regPwrCause : RegRow := ⟨.pwrCause, 0x9020, 8, 1, .s, .k, .A,
  [⟨0, 4, .ro, 0, none, []⟩,
   ⟨4, 4, .ro, 0, none, []⟩,
   ⟨8, 8, .ro, 0, none, []⟩]⟩
/-- PWR_REC (Doze): state entry record (15_power_reset.md). Fields REFUSED, ABORTED, LAST_UID, REASON. -/
def regPwrRecDoze : RegRow := ⟨.pwrRecDoze, 0x4500, 8, 1, .s, .k, .S,
  [⟨0, 16, .ro, 0, none, []⟩,
   ⟨16, 16, .ro, 0, none, []⟩,
   ⟨32, 16, .ro, 0, none, []⟩,
   ⟨48, 8, .ro, 0, none, []⟩]⟩
/-- PWR_REC (Nap): state entry record (15_power_reset.md). Fields REFUSED, ABORTED, LAST_UID, REASON. -/
def regPwrRecNap : RegRow := ⟨.pwrRecNap, 0x4508, 8, 1, .s, .k, .S,
  [⟨0, 16, .ro, 0, none, []⟩,
   ⟨16, 16, .ro, 0, none, []⟩,
   ⟨32, 16, .ro, 0, none, []⟩,
   ⟨48, 8, .ro, 0, none, []⟩]⟩
/-- PWR_REC (Hold): state entry record (15_power_reset.md). Fields REFUSED, ABORTED, LAST_UID, REASON. -/
def regPwrRecHold : RegRow := ⟨.pwrRecHold, 0x4200, 8, 9, .s, .k, .S,
  [⟨0, 16, .ro, 0, none, []⟩,
   ⟨16, 16, .ro, 0, none, []⟩,
   ⟨32, 16, .ro, 0, none, []⟩,
   ⟨48, 8, .ro, 0, none, []⟩]⟩
/-- PWR_REC (Off): state entry record (15_power_reset.md). Fields REFUSED, ABORTED, LAST_UID, REASON. -/
def regPwrRecOff : RegRow := ⟨.pwrRecOff, 0x4248, 8, 1, .s, .k, .S,
  [⟨0, 16, .ro, 0, none, []⟩,
   ⟨16, 16, .ro, 0, none, []⟩,
   ⟨32, 16, .ro, 0, none, []⟩,
   ⟨48, 8, .ro, 0, none, []⟩]⟩
/-- PWR_REC (Deep): state entry record (15_power_reset.md). Fields REFUSED, ABORTED, LAST_UID, REASON. -/
def regPwrRecDeep : RegRow := ⟨.pwrRecDeep, 0x9028, 8, 1, .s, .k, .A,
  [⟨0, 16, .ro, 0, none, []⟩,
   ⟨16, 16, .ro, 0, none, []⟩,
   ⟨32, 16, .ro, 0, none, []⟩,
   ⟨48, 8, .ro, 0, none, []⟩]⟩
/-- PAD_HOLD: pad latch (15_power_reset.md). Fields GROUP. -/
def regPadHold : RegRow := ⟨.padHold, 0x9010, 8, 1, .s, .k, .W,
  [⟨0, 10, .ro, 0x3FF, none, []⟩]⟩
/-- PAD_RELEASE: pad latch (15_power_reset.md). Fields GROUP. -/
def regPadRelease : RegRow := ⟨.padRelease, 0x9018, 8, 1, .k, .k, .W,
  [⟨0, 10, .wo, 0, none, []⟩]⟩
/-- SUPPLY_STAT: supply monitor status (15_power_reset.md). Fields INHIBIT, VIO_LOW, VAON_LOW, VHUB_LOW, VSRAM_LOW, CORE_LOW, VDDQ_LOW, VAA_LOW, RESERVE_OK, INH_CNT. -/
def regSupplyStat : RegRow := ⟨.supplyStat, 0x9030, 8, 1, .s, .k, .W,
  [⟨0, 1, .ro, 1, none, []⟩,
   ⟨1, 1, .ro, 0, none, []⟩,
   ⟨2, 1, .ro, 0, none, []⟩,
   ⟨3, 1, .ro, 0, none, []⟩,
   ⟨4, 1, .ro, 0, none, []⟩,
   ⟨5, 8, .ro, 0, none, []⟩,
   ⟨13, 1, .ro, 0, none, []⟩,
   ⟨14, 1, .ro, 0, none, []⟩,
   ⟨15, 1, .ro, 0, none, []⟩,
   ⟨32, 16, .ro, 0, none, []⟩]⟩
/-- BOOT_STATUS: boot status (16_boot_trust.md). Fields STAGE, SLOT, WHY_B, FAST, TRUST_DEGRADED, KEYS_LOCKED, BENCH, FIRST_USE, OBJ, OBJ_CODE. -/
def regBootStatus : RegRow := ⟨.bootStatus, 0x4000, 8, 1, .s, .k, .S,
  [⟨0, 3, .ro, 0, none, []⟩,
   ⟨3, 1, .ro, 0, none, []⟩,
   ⟨4, 3, .ro, 0, none, []⟩,
   ⟨7, 1, .ro, 0, none, []⟩,
   ⟨8, 1, .ro, 0, none, []⟩,
   ⟨9, 1, .ro, 0, none, []⟩,
   ⟨10, 1, .ro, 0, none, []⟩,
   ⟨11, 1, .ro, 0, none, []⟩,
   ⟨16, 8, .ro, 0xFF, none, []⟩,
   ⟨24, 8, .ro, 0, none, []⟩]⟩
/-- BOOT_ATTEMPT: slot A attempts (16_boot_trust.md). Fields SENT_A, NEXT_B, SETTLED. -/
def regBootAttempt : RegRow := ⟨.bootAttempt, 0x4008, 8, 1, .s, .k, .A,
  [⟨0, 2, .rw, 0, none, []⟩,
   ⟨2, 1, .rw, 0, none, []⟩,
   ⟨3, 1, .rw, 0, none, []⟩]⟩
/-- FUSE_KEYS: key slots (16_boot_trust.md). Fields PROG, REVOKED, VREV, SECRET_OK, as R821 gives them. -/
def regFuseKeys : RegRow := ⟨.fuseKeys, 0x4010, 8, 1, .s, .k, .F,
  [⟨0, 4, .ro, 0, none, []⟩,
   ⟨4, 4, .ro, 0, none, []⟩,
   ⟨8, 2, .ro, 0, none, []⟩,
   ⟨16, 1, .ro, 1, none, []⟩]⟩
/-- MEAS_n: measurement register (16_boot_trust.md). Fields H. -/
def regMeas : RegRow := ⟨.meas, 0x4400, 8, 128, .s, .k, .S,
  [⟨0, 64, .ro, 0, none, []⟩]⟩
/-- ERR_STATUS: error record status (17_faults_survival.md). Fields VALID, SEV, OVERFLOW, REHEARSAL, LOGGED, CNT. -/
def regErrStatus : RegRow := ⟨.errStatus, 0x2000, 8, 1, .s, .k, .S,
  [⟨0, 1, .w1c, 0, none, []⟩,
   ⟨1, 3, .ro, 0, none, []⟩,
   ⟨4, 1, .ro, 0, none, []⟩,
   ⟨5, 1, .ro, 0, none, []⟩,
   ⟨6, 1, .ro, 0, none, []⟩,
   ⟨16, 16, .ro, 0, none, []⟩]⟩
/-- ERR_CODE: error record code (17_faults_survival.md). Fields CODE, RELATED, PART, PART_VALID. -/
def regErrCode : RegRow := ⟨.errCode, 0x2008, 8, 1, .s, .k, .S,
  [⟨0, 16, .ro, 0, none, []⟩,
   ⟨16, 16, .ro, 0xFFFF, none, []⟩,
   ⟨32, 8, .ro, 0, none, []⟩,
   ⟨40, 1, .ro, 0, none, []⟩]⟩
/-- ERR_ADDR: detail and time (17_faults_survival.md). Fields VALUE. -/
def regErrAddr : RegRow := ⟨.errAddr, 0x2010, 8, 1, .s, .k, .S,
  [⟨0, 64, .ro, 0, none, []⟩]⟩
/-- ERR_DT: detail and time (17_faults_survival.md). Fields VALUE. -/
def regErrDt : RegRow := ⟨.errDt, 0x2018, 8, 1, .s, .k, .S,
  [⟨0, 64, .ro, 0, none, []⟩]⟩
/-- HB_STATUS: Harebell status (17_faults_survival.md). Fields ARMED, PLAYING, MSG, TRIG, NOCLK, STARTS. -/
def regHbStatus : RegRow := ⟨.hbStatus, 0xB000, 8, 1, .s, .k, .W,
  [⟨0, 1, .ro, 0, none, []⟩,
   ⟨1, 1, .ro, 0, none, []⟩,
   ⟨2, 4, .ro, 0, none, []⟩,
   ⟨6, 3, .ro, 7, none, []⟩,
   ⟨9, 4, .ro, 0, none, []⟩,
   ⟨16, 16, .ro, 0, none, []⟩]⟩
/-- HB_CMD: keeper command (17_faults_survival.md). Fields SET, CLEAR, MSG6. -/
def regHbCmd : RegRow := ⟨.hbCmd, 0xB008, 8, 1, .k, .k, .V,
  [⟨0, 7, .wo, 0, none, []⟩,
   ⟨8, 7, .wo, 0, none, []⟩,
   ⟨16, 4, .wo, 0, none, []⟩]⟩
/-- HB_TRIG: trigger mapping (17_faults_survival.md). Fields EN, MSG, PRI, LATCH. -/
def regHbTrig : RegRow := ⟨.hbTrig, 0xB100, 8, 7, .s, .k, .W,
  [⟨0, 1, .rw, 1, none, []⟩,
   ⟨1, 4, .rw, 0, none, []⟩,
   ⟨5, 3, .rw, 0, none, []⟩,
   ⟨8, 1, .rw, 0, none, []⟩]⟩
/-- HB_TDM: Harebell TDM output (17_faults_survival.md). Fields FRAME, SLOTS. -/
def regHbTdm : RegRow := ⟨.hbTdm, 0xB200, 8, 4, .s, .k, .W,
  [⟨0, 11, .rw, 0x7C, none, []⟩,
   ⟨32, 32, .rw, 0xFFFFFFFF, none, []⟩]⟩
/-- HB_NET_A: Harebell stream (17_faults_survival.md). Fields DST, UDP, PT, DSCP, EN. -/
def regHbNetA : RegRow := ⟨.hbNetA, 0xB300, 8, 1, .s, .k, .W,
  [⟨0, 32, .rw, 0, none, []⟩,
   ⟨32, 16, .rw, 0, none, []⟩,
   ⟨48, 7, .rw, 0x60, none, [(96, 127)]⟩,
   ⟨55, 6, .rw, 0x2E, none, []⟩,
   ⟨63, 1, .rw, 0, none, []⟩]⟩
/-- HB_NET_B: Harebell stream (17_faults_survival.md). Fields SRC, SSRC. -/
def regHbNetB : RegRow := ⟨.hbNetB, 0xB308, 8, 1, .s, .k, .W,
  [⟨0, 32, .rw, 0, none, []⟩,
   ⟨32, 32, .rw, 0, none, []⟩]⟩
/-- HB_SMAC: Harebell stream (17_faults_survival.md). Fields MAC. -/
def regHbSmac : RegRow := ⟨.hbSmac, 0xB310, 8, 1, .s, .k, .W,
  [⟨0, 48, .rw, 0, none, []⟩]⟩
/-- SENT_CTL: sentinel control and pet (17_faults_survival.md). Fields PERIOD_MS. -/
def regSentCtl : RegRow := ⟨.sentCtl, 0xA000, 8, 1, .s, .k, .S,
  [⟨0, 14, .rw, 0x2710, none, [(10, 10000)]⟩]⟩
/-- SENT_PET: sentinel control and pet (17_faults_survival.md). Fields PET. -/
def regSentPet : RegRow := ⟨.sentPet, 0xA008, 8, 1, .k, .k, .S,
  [⟨0, 1, .wo, 0, none, []⟩]⟩
/-- SENT_STAT: sentinel status (17_faults_survival.md). Fields REMAIN, EXPIRIES. -/
def regSentStat : RegRow := ⟨.sentStat, 0xA010, 8, 1, .s, .k, .S,
  [⟨0, 14, .ro, 0x2710, none, []⟩,
   ⟨32, 16, .ro, 0, some .A, []⟩]⟩
/-- WDOG_CFG: partition watchdog (17_faults_survival.md). Fields EN, HALT_FREEZE, ACT, PRI, VEC, PERIOD, STAGE. -/
def regWdogCfg : RegRow := ⟨.wdogCfg, 0xD800, 8, 256, .s, .s, .L,
  [⟨0, 1, .rw, 0, none, []⟩,
   ⟨1, 1, .rw, 0, none, []⟩,
   ⟨2, 2, .rw, 0, none, [(0, 1)]⟩,
   ⟨4, 4, .rw, 0xF, none, []⟩,
   ⟨8, 8, .rw, 0, none, []⟩,
   ⟨16, 20, .rw, 0x2710, none, [(1, 1000000)]⟩,
   ⟨36, 2, .ro, 0, none, []⟩]⟩
/-- WDOG_PET: partition watchdog (17_faults_survival.md). Fields PET. -/
def regWdogPet : RegRow := ⟨.wdogPet, 0x8100, 8, 256, .s, .s, .L,
  [⟨0, 1, .wo, 0, none, []⟩]⟩
/-- ELOG_CTL: log control (17_faults_survival.md). Fields MODE, HEAD, FULL, LOST, BOOTS. -/
def regElogCtl : RegRow := ⟨.elogCtl, 0xC000, 8, 1, .k, .k, .A,
  [⟨0, 1, .rw, 0, none, []⟩,
   ⟨16, 11, .ro, 0, none, []⟩,
   ⟨27, 1, .ro, 0, none, []⟩,
   ⟨32, 16, .rc, 0, none, []⟩,
   ⟨48, 16, .ro, 0, none, []⟩]⟩
/-- ELOG_SEL: log access (17_faults_survival.md). Fields INDEX. -/
def regElogSel : RegRow := ⟨.elogSel, 0xC008, 8, 1, .k, .k, .V,
  [⟨0, 11, .rw, 0, none, []⟩]⟩
/-- ELOG_DATA: log access (17_faults_survival.md). Fields DATA. -/
def regElogData : RegRow := ⟨.elogData, 0xC010, 8, 4, .k, .k, .V,
  [⟨0, 64, .ro, 0, none, []⟩]⟩
/-- ELOG_IN: log access (17_faults_survival.md). Fields DATA. -/
def regElogIn : RegRow := ⟨.elogIn, 0xC030, 8, 4, .k, .k, .V,
  [⟨0, 64, .wo, 0, none, []⟩]⟩
/-- GPIO_FILT: GPIO glitch filter (17_faults_survival.md). Fields TIME, UNIT, IN. -/
def regGpioFilt : RegRow := ⟨.gpioFilt, 0xD000, 8, 64, .s, .k, .W,
  [⟨0, 8, .rw, 0xA, none, [(1, 255)]⟩,
   ⟨8, 2, .rw, 0, none, [(0, 2)]⟩,
   ⟨10, 1, .ro, 0, some .V, []⟩]⟩
/-- ALARM_CFG: alarm input (17_faults_survival.md). Fields FILT_MS, POL, ACTIVE. -/
def regAlarmCfg : RegRow := ⟨.alarmCfg, 0xD200, 8, 4, .s, .k, .W,
  [⟨0, 8, .rw, 0x14, none, [(1, 255)]⟩,
   ⟨8, 1, .rw, 1, none, []⟩,
   ⟨9, 1, .ro, 0, some .V, []⟩]⟩
/-- CRB_CTL: Crumble control, key and port mask (17_faults_survival.md). Fields UNLOCKED, EN, DURATION, INJECTED. -/
def regCrbCtl : RegRow := ⟨.crbCtl, 0x3000, 8, 1, .k, .k, .V,
  [⟨0, 1, .ro, 0, none, []⟩,
   ⟨1, 1, .rw, 0, none, []⟩,
   ⟨16, 16, .rw, 0x2710, none, [(1, 65535)]⟩,
   ⟨32, 16, .ro, 0, none, []⟩]⟩
/-- CRB_KEY: Crumble control, key and port mask (17_faults_survival.md). Fields KEY. -/
def regCrbKey : RegRow := ⟨.crbKey, 0x3008, 8, 1, .k, .k, .V,
  [⟨0, 64, .wo, 0, none, []⟩]⟩
/-- CRB_PORTS: Crumble control, key and port mask (17_faults_survival.md). Fields MASK. -/
def regCrbPorts : RegRow := ⟨.crbPorts, 0x3010, 8, 1, .k, .k, .V,
  [⟨0, 64, .rw, 0, none, []⟩]⟩
/-- CRB_HS: handshake perturbation (17_faults_survival.md). Fields STRETCH, BP_K, BP_LEN, HOP_DELAY, STALL. -/
def regCrbHs : RegRow := ⟨.crbHs, 0x3018, 8, 1, .k, .k, .V,
  [⟨0, 16, .rw, 0, none, []⟩,
   ⟨16, 5, .rw, 0, none, [(0, 16)]⟩,
   ⟨24, 8, .rw, 0, none, []⟩,
   ⟨32, 16, .rw, 0, none, []⟩,
   ⟨48, 1, .rw, 0, none, []⟩]⟩
/-- CRB_ECC: check-bit flips (17_faults_survival.md). Fields POS0, EN0, POS1, EN1, ARM. -/
def regCrbEcc : RegRow := ⟨.crbEcc, 0x3020, 8, 1, .k, .k, .V,
  [⟨0, 10, .rw, 0, none, []⟩,
   ⟨10, 1, .rw, 0, none, []⟩,
   ⟨16, 10, .rw, 0, none, []⟩,
   ⟨26, 1, .rw, 0, none, []⟩,
   ⟨27, 1, .rw, 0, none, []⟩]⟩
/-- CRB_ECC_ADDR: check-bit flips (17_faults_survival.md). Fields ADDR. -/
def regCrbEccAddr : RegRow := ⟨.crbEccAddr, 0x3028, 8, 1, .k, .k, .V,
  [⟨0, 48, .rw, 0, none, []⟩]⟩
/-- CRB_VOTE: forced vote fault (17_faults_survival.md). Fields GRP, REPLICA, MODE, BLOCKS. -/
def regCrbVote : RegRow := ⟨.crbVote, 0x3030, 8, 1, .k, .k, .V,
  [⟨0, 5, .rw, 0, none, []⟩,
   ⟨5, 2, .rw, 0, none, [(0, 2)]⟩,
   ⟨7, 1, .rw, 0, none, []⟩,
   ⟨8, 8, .rw, 0, none, []⟩]⟩
/-- RH_STAT: rehearsal status and key (17_faults_survival.md). Fields LAST, RESULT, STEP, REASON, RUNS. -/
def regRhStat : RegRow := ⟨.rhStat, 0xE000, 8, 1, .s, .k, .A,
  [⟨0, 32, .ro, 0, none, []⟩,
   ⟨32, 3, .ro, 0, none, []⟩,
   ⟨35, 4, .ro, 0, none, []⟩,
   ⟨40, 8, .ro, 0, none, []⟩,
   ⟨48, 16, .ro, 0, none, []⟩]⟩
/-- RH_KEY: rehearsal status and key (17_faults_survival.md). Fields KEY. -/
def regRhKey : RegRow := ⟨.rhKey, 0xE008, 8, 1, .k, .k, .S,
  [⟨0, 64, .ro, 0, none, []⟩]⟩
/-- DBG_CHAL: unlock challenge (18_debug_trace.md). Fields NONCE. -/
def regDbgChal : RegRow := ⟨.dbgChal, 0x5000, 8, 4, .dbgNone, .dbgNone, .D,
  [⟨0, 64, .ro, 0, none, []⟩]⟩
/-- DBG_UNLK_CTL: unlock control (18_debug_trace.md). Fields NEWCHAL, GO, PART, LEVEL, RELOCK, RESULT. -/
def regDbgUnlkCtl : RegRow := ⟨.dbgUnlkCtl, 0x5020, 8, 1, .dbgNone, .dbgNone, .D,
  [⟨0, 1, .wo, 0, none, []⟩,
   ⟨1, 1, .wo, 0, none, []⟩,
   ⟨2, 8, .rw, 0, none, []⟩,
   ⟨10, 2, .rw, 0, none, [(1, 2)]⟩,
   ⟨12, 1, .wo, 0, none, []⟩,
   ⟨13, 2, .ro, 0, none, []⟩]⟩
/-- DBG_UNLK_KEY: debugger key and signature (18_debug_trace.md). Fields DATA. -/
def regDbgUnlkKey : RegRow := ⟨.dbgUnlkKey, 0x5100, 8, 12, .dbgNone, .dbgNone, .D,
  [⟨0, 64, .rw, 0, none, []⟩]⟩
/-- DBG_UNLK_SIG: debugger key and signature (18_debug_trace.md). Fields DATA. -/
def regDbgUnlkSig : RegRow := ⟨.dbgUnlkSig, 0x5200, 8, 12, .dbgNone, .dbgNone, .D,
  [⟨0, 64, .rw, 0, none, []⟩]⟩
/-- DBG_LEVEL: level of partition p (18_debug_trace.md). Fields LEVEL, GRANT, INTRUSIVE, BENCH. -/
def regDbgLevel : RegRow := ⟨.dbgLevel, 0x5400, 8, 256, .dbgNone, .dbgNone, .D,
  [⟨0, 2, .ro, 0, none, []⟩,
   ⟨2, 2, .ro, 0, none, []⟩,
   ⟨4, 1, .ro, 0, none, []⟩,
   ⟨5, 1, .ro, 0, none, []⟩]⟩
/-- CDBG_CMD: run-control command (18_debug_trace.md). Fields CMD. -/
def regCdbgCmd : RegRow := ⟨.cdbgCmd, 0xF000, 8, 1, .dbgFull, .dbgFull, .D,
  [⟨0, 3, .wo, 0, none, [(1, 4)]⟩]⟩
/-- CDBG_CFG: run-control settings (18_debug_trace.md). Fields BRK_CLAIM, STEP_EV, HOR. -/
def regCdbgCfg : RegRow := ⟨.cdbgCfg, 0xF008, 8, 1, .dbgObs, .dbgFull, .D,
  [⟨0, 1, .rw, 0, none, []⟩,
   ⟨1, 1, .rw, 0, none, []⟩,
   ⟨2, 1, .rw, 0, none, []⟩]⟩
/-- CDBG_STAT: run-control status (18_debug_trace.md). Fields HALTED, PENDING, REASON, WITHDRAWN, COUNT, CMP_HIT. -/
def regCdbgStat : RegRow := ⟨.cdbgStat, 0xF010, 8, 1, .dbgObs, .dbgObs, .D,
  [⟨0, 1, .ro, 0, none, []⟩,
   ⟨1, 1, .ro, 0, none, []⟩,
   ⟨2, 4, .ro, 0, none, []⟩,
   ⟨6, 1, .ro, 0, none, []⟩,
   ⟨8, 7, .ro, 0, none, []⟩,
   ⟨16, 4, .ro, 0, none, []⟩]⟩
/-- CDBG_PC: halted PC and PC sample (18_debug_trace.md). Fields PC. -/
def regCdbgPc : RegRow := ⟨.cdbgPc, 0xF018, 8, 1, .dbgFull, .dbgFull, .D,
  [⟨0, 64, .rw, 0, none, []⟩]⟩
/-- CDBG_PCS: halted PC and PC sample (18_debug_trace.md). Fields PC. -/
def regCdbgPcs : RegRow := ⟨.cdbgPcs, 0xF030, 8, 1, .dbgObs, .dbgObs, .D,
  [⟨0, 64, .ro, 0, none, []⟩]⟩
/-- CDBG_RSEL: register access (18_debug_trace.md). Fields BANK, INDEX. -/
def regCdbgRsel : RegRow := ⟨.cdbgRsel, 0xF020, 8, 1, .dbgFull, .dbgFull, .D,
  [⟨0, 2, .rw, 0, none, []⟩,
   ⟨2, 12, .rw, 0, none, []⟩]⟩
/-- CDBG_RDATA: register access (18_debug_trace.md). Fields DATA. -/
def regCdbgRdata : RegRow := ⟨.cdbgRdata, 0xF028, 8, 1, .dbgFull, .dbgFull, .D,
  [⟨0, 64, .rw, 0, none, []⟩]⟩
/-- CDBG_CMP: comparator (18_debug_trace.md). Fields ADDR. -/
def regCdbgCmp : RegRow := ⟨.cdbgCmp, 0xF100, 16, 4, .dbgObs, .dbgObs, .D,
  [⟨0, 48, .rw, 0, none, []⟩]⟩
/-- CDBG_CMPC: comparator (18_debug_trace.md). Fields EN, KIND, ACT, IGN, ASID_EN, ASID. -/
def regCdbgCmpc : RegRow := ⟨.cdbgCmpc, 0xF108, 16, 4, .dbgObs, .dbgObs, .D,
  [⟨0, 1, .rw, 0, none, []⟩,
   ⟨1, 2, .rw, 0, none, []⟩,
   ⟨3, 1, .rw, 0, none, []⟩,
   ⟨4, 5, .rw, 0, none, [(0, 24)]⟩,
   ⟨9, 1, .rw, 0, none, []⟩,
   ⟨10, 12, .rw, 0, none, []⟩]⟩
/-- DBM_CTL: debug bus master (18_debug_trace.md). Fields GO, DIR, SIZE, INC, PART, REP, KMODE. -/
def regDbmCtl : RegRow := ⟨.dbmCtl, 0x6000, 8, 1, .dbgObs, .dbgObs, .D,
  [⟨0, 1, .wo, 0, none, []⟩,
   ⟨1, 1, .rw, 0, none, []⟩,
   ⟨2, 1, .rw, 0, none, []⟩,
   ⟨4, 1, .rw, 0, none, []⟩,
   ⟨5, 8, .rw, 0, none, []⟩,
   ⟨13, 2, .rw, 0, none, []⟩,
   ⟨15, 1, .rw, 0, none, []⟩]⟩
/-- DBM_ADDR: debug bus master (18_debug_trace.md). Fields ADDR. -/
def regDbmAddr : RegRow := ⟨.dbmAddr, 0x6008, 8, 1, .dbgObs, .dbgObs, .D,
  [⟨0, 48, .rw, 0, none, []⟩]⟩
/-- DBM_STAT: debug bus master (18_debug_trace.md). Fields BUSY, RESULT, CODE. -/
def regDbmStat : RegRow := ⟨.dbmStat, 0x6010, 8, 1, .dbgObs, .dbgObs, .D,
  [⟨0, 1, .ro, 0, none, []⟩,
   ⟨1, 3, .ro, 0, none, []⟩,
   ⟨8, 8, .ro, 0, none, []⟩]⟩
/-- DBM_DATA: debug bus master data (18_debug_trace.md). Fields DATA. -/
def regDbmData : RegRow := ⟨.dbmData, 0x6040, 8, 8, .dbgObs, .dbgObs, .D,
  [⟨0, 64, .rw, 0, none, []⟩]⟩
/-- VT_OUT: virtual terminal (18_debug_trace.md). Fields DATA, COUNT, OVERRUN, EMPTY, FULL. -/
def regVtOut : RegRow := ⟨.vtOut, 0x4000, 16, 256, .dbgObs, .dbgObs, .D,
  [⟨0, 56, .rw, 0, none, []⟩,
   ⟨56, 3, .rw, 0, none, [(1, 7)]⟩,
   ⟨60, 1, .w1c, 0, none, []⟩,
   ⟨62, 1, .ro, 1, none, []⟩,
   ⟨63, 1, .w1c, 0, none, []⟩]⟩
/-- VT_IN: virtual terminal (18_debug_trace.md). Fields DATA, COUNT, OVERRUN, EMPTY, FULL. -/
def regVtIn : RegRow := ⟨.vtIn, 0x4008, 16, 256, .dbgObs, .dbgObs, .D,
  [⟨0, 56, .rw, 0, none, []⟩,
   ⟨56, 3, .rw, 0, none, [(1, 7)]⟩,
   ⟨60, 1, .w1c, 0, none, []⟩,
   ⟨62, 1, .ro, 1, none, []⟩,
   ⟨63, 1, .w1c, 0, none, []⟩]⟩
/-- TRC_SRC: trace source (18_debug_trace.md). Fields EN, CLASS, SESSION, DATA, PART, SAMP. -/
def regTrcSrc : RegRow := ⟨.trcSrc, 0xF800, 8, 1, .dbgObs, .dbgObs, .D,
  [⟨0, 1, .rw, 0, none, []⟩,
   ⟨1, 2, .rw, 0, none, []⟩,
   ⟨3, 4, .rw, 0, none, []⟩,
   ⟨7, 1, .rw, 0, none, []⟩,
   ⟨8, 8, .rw, 0, none, []⟩,
   ⟨16, 4, .rw, 0, none, []⟩]⟩
/-- TS_CTL: session control, sink and pointer (18_debug_trace.md). Fields EN, SINK, PART, KEEPER, WRAP, TRIGGERED, STOPPED. -/
def regTsCtl : RegRow := ⟨.tsCtl, 0x7000, 64, 16, .dbgObs, .dbgObs, .D,
  [⟨0, 1, .rw, 0, none, []⟩,
   ⟨1, 1, .rw, 0, none, []⟩,
   ⟨2, 8, .rw, 0, none, []⟩,
   ⟨10, 1, .rw, 0, none, []⟩,
   ⟨11, 1, .rw, 1, none, []⟩,
   ⟨12, 1, .ro, 0, none, []⟩,
   ⟨13, 1, .ro, 0, none, []⟩]⟩
/-- TS_BASE: session control, sink and pointer (18_debug_trace.md). Fields LOG2SZ, BASE. -/
def regTsBase : RegRow := ⟨.tsBase, 0x7008, 64, 16, .dbgObs, .dbgObs, .D,
  [⟨0, 5, .rw, 0xC, none, [(12, 30)]⟩,
   ⟨12, 36, .rw, 0, none, []⟩]⟩
/-- TS_PTR: session control, sink and pointer (18_debug_trace.md). Fields WRITE, WRAPPED. -/
def regTsPtr : RegRow := ⟨.tsPtr, 0x7010, 64, 16, .dbgObs, .dbgObs, .D,
  [⟨0, 32, .ro, 0, none, []⟩,
   ⟨32, 1, .ro, 0, none, []⟩]⟩
/-- TS_TRIG: trigger, trigger time and drops (18_debug_trace.md). Fields POST, ARM, NOW, SRC, EVSRC. -/
def regTsTrig : RegRow := ⟨.tsTrig, 0x7018, 64, 16, .dbgObs, .dbgObs, .D,
  [⟨0, 24, .rw, 0, none, []⟩,
   ⟨24, 1, .rw, 0, none, []⟩,
   ⟨25, 1, .wo, 0, none, []⟩,
   ⟨26, 2, .rw, 0, none, []⟩,
   ⟨28, 12, .rw, 0, none, []⟩]⟩
/-- TS_TDT: trigger, trigger time and drops (18_debug_trace.md). Fields DT. -/
def regTsTdt : RegRow := ⟨.tsTdt, 0x7028, 64, 16, .dbgObs, .dbgObs, .D,
  [⟨0, 64, .ro, 0, none, []⟩]⟩
/-- TS_DROP: trigger, trigger time and drops (18_debug_trace.md). Fields CNT. -/
def regTsDrop : RegRow := ⟨.tsDrop, 0x7020, 64, 16, .dbgObs, .dbgObs, .D,
  [⟨0, 64, .ro, 0, none, []⟩]⟩

/-- The registers common to every unit (Table 1-4, pages 0-3). -/
def rowsCommon : List RegRow := [regUnitId, regUnitState, regUnitOwner, regStallUnit, regStallStatus, regStallLast, regStallBound, regErrStatus, regErrCode, regErrAddr, regErrDt, regCrbCtl, regCrbKey, regCrbPorts, regCrbHs]

/-- The registers of pages 3-15 that belong to a kind of unit. -/
def rowsOf : UnitKind → List RegRow
  | .core => [regCoreSpecctl, regCoreExec, regWinBase, regWinAttr, regWinReloc, regHomeSlice, regCoreMesh, 
      regCoreInbox, regCorePwr, regPwrRecDoze, regPwrRecNap, regCdbgCmd, regCdbgCfg, regCdbgStat, 
      regCdbgPc, regCdbgPcs, regCdbgRsel, regCdbgRdata, regCdbgCmp, regCdbgCmpc, regTrcSrc]
  | .l2 => [regL2Ctl, regL2Waymask, regCmOp, regCmStatus, regCrbEcc, regCrbEccAddr]
  | .l3 => [regSlcPart, regSlcCtl, regCmOp, regCmStatus, regCrbEcc, regCrbEccAddr]
  | .xslice => [regSlcCtl, regCmOp, regCmStatus, regCrbEcc, regCrbEccAddr]
  | .cstop => [regTrcSrc]
  | .hlstop => [regTrcSrc]
  | .hstop => [regTrcSrc]
  | .funnel => []
  | .region => [regPaceMon, regPaceCfg, regRegHold, regPwrRecHold, regPwrRecOff]
  | .mc => [regMcMark, regMcEcc, regMcLastUe, regMcScrub, regMcSched, regMcShare, regMcCfg, regMcStatus, 
      regCrbEcc, regCrbEccAddr, regTrcSrc]
  | .quad => [regLqCfg, regLqLink, regLqErr, regPortMac, regRingBase, regRingIdx]
  | .pcie => [regPcieCfg, regPcieCfga, regPcieCfgd, regPcieAp]
  | .se => [regBufBase, regBufAttr, regSeTbl, regSeReload, regSeRtport, regSeChk, regSeLate, regSeLast, 
      regCgCfg, regCgHist, regCommitCtl, regCgStat, regCommitLast, regTwinCtl, regTwinInmask, regCrbVote, 
      regTrcSrc]
  | .tdm => [regTdmCfg, regTdmStatus, regTdmSlot]
  | .evc => [regEvSrc, regTrcSrc]
  | .mbx => [regMbxMsg, regMbxStatus, regMbxAck, regMbxBell, regMbxBellmask, regMbxBellclr, regMbxPerm, 
      regMbxLastack, regRmbxDest, regRmbxMsg, regRmbxStat, regWdogCfg, regWdogPet]
  | .keeper => []
  | .boot => [regAedStatus, regAedSeq, regBootStatus, regBootAttempt, regFuseKeys, regMeas]
  | .harebell => [regTbCtl, regTbStatus, regTbNow, regTbLoad, regTbTrim, regTbOffset, regTbPpsStamp, 
      regDeepCtl, regPwrCause, regPwrRecDeep, regPadHold, regPadRelease, regSupplyStat, regHbStatus, 
      regHbCmd, regHbTrig, regHbTdm, regHbNetA, regHbNetB, regHbSmac, regSentCtl, regSentPet, regSentStat, 
      regElogCtl, regElogSel, regElogData, regElogIn, regGpioFilt, regAlarmCfg, regRhStat, regRhKey]
  | .dieCtl => [regDieTemp, regDieTherm, regEpochPost, regEpochCtl, regEpochAck]
  | .hubCtl => [regDieTemp, regDieTherm, regXrBase, regXrAttr, regMemRangeBase, regMemRangeAttr, 
      regCadCfg, regCadPhase, regCadBsn, regTrlDev, regTrlBound, regTrlRtSel, regTrlRt, regRemWin, 
      regExpWin, regEpochPost, regEpochCtl, regEpochAck]
  | .mgt => [regMgtMac, regMgtRingBase, regMgtRingIdx, regMgtCfg]
  | .dbg => [regDbgChal, regDbgUnlkCtl, regDbgUnlkKey, regDbgUnlkSig, regDbgLevel, regDbmCtl, regDbmAddr, 
      regDbmStat, regDbmData, regVtOut, regVtIn, regTsCtl, regTsBase, regTsPtr, regTsTrig, regTsTdt, 
      regTsDrop]

/-- Every register row. -/
def allRows : List RegRow :=
  [regUnitId, regUnitState, regUnitOwner, regDieTemp, regDieTherm, regPaceMon, regPaceCfg, regStallUnit, regStallStatus, regStallLast, regStallBound, regTbCtl, regTbStatus, regTbNow, regTbLoad, regTbTrim, regTbOffset, regTbPpsStamp, regCoreSpecctl, regCoreExec] ++
  [regWinBase, regWinAttr, regWinReloc, regHomeSlice, regSlcPart, regXrBase, regXrAttr, regL2Ctl, regL2Waymask, regSlcCtl, regCmOp, regCmStatus, regCoreMesh, regMemRangeBase, regMemRangeAttr, regMcMark, regMcEcc, regMcLastUe, regMcScrub, regMcSched] ++
  [regMcShare, regMcCfg, regMcStatus, regEvSrc, regCoreInbox, regMbxMsg, regMbxStatus, regMbxAck, regMbxBell, regMbxBellmask, regMbxBellclr, regMbxPerm, regMbxLastack, regCadCfg, regCadPhase, regCadBsn, regBufBase, regBufAttr, regSeTbl, regSeReload] ++
  [regSeRtport, regSeChk, regSeLate, regSeLast, regTdmCfg, regTdmStatus, regTdmSlot, regCgCfg, regCgHist, regCommitCtl, regCgStat, regCommitLast, regTwinCtl, regTwinInmask, regLqCfg, regLqLink, regLqErr, regPortMac, regMgtMac, regRingBase] ++
  [regMgtRingBase, regRingIdx, regMgtRingIdx, regRmbxDest, regRmbxMsg, regRmbxStat, regTrlDev, regTrlBound, regTrlRtSel, regTrlRt, regRemWin, regExpWin, regPcieCfg, regPcieCfga, regPcieCfgd, regPcieAp, regMgtCfg, regAedStatus, regAedSeq, regEpochPost] ++
  [regEpochCtl, regEpochAck, regCorePwr, regRegHold, regDeepCtl, regPwrCause, regPwrRecDoze, regPwrRecNap, regPwrRecHold, regPwrRecOff, regPwrRecDeep, regPadHold, regPadRelease, regSupplyStat, regBootStatus, regBootAttempt, regFuseKeys, regMeas, regErrStatus, regErrCode] ++
  [regErrAddr, regErrDt, regHbStatus, regHbCmd, regHbTrig, regHbTdm, regHbNetA, regHbNetB, regHbSmac, regSentCtl, regSentPet, regSentStat, regWdogCfg, regWdogPet, regElogCtl, regElogSel, regElogData, regElogIn, regGpioFilt, regAlarmCfg] ++
  [regCrbCtl, regCrbKey, regCrbPorts, regCrbHs, regCrbEcc, regCrbEccAddr, regCrbVote, regRhStat, regRhKey, regDbgChal, regDbgUnlkCtl, regDbgUnlkKey, regDbgUnlkSig, regDbgLevel, regCdbgCmd, regCdbgCfg, regCdbgStat, regCdbgPc, regCdbgPcs, regCdbgRsel] ++
  [regCdbgRdata, regCdbgCmp, regCdbgCmpc, regDbmCtl, regDbmAddr, regDbmStat, regDbmData, regVtOut, regVtIn, regTrcSrc, regTsCtl, regTsBase, regTsPtr, regTsTrig, regTsTdt, regTsDrop]

/-- The index of the array element at an offset of a register row, if the row has one there. -/
def rowIndex (r : RegRow) (off : Nat) : Option Nat :=
  if off < r.off then none
  else if (off - r.off) % r.stride = 0 ∧ (off - r.off) / r.stride < r.count then some ((off - r.off) / r.stride)
  else none

/-- The first row of a list that defines an offset. -/
def findRow : List RegRow → Nat → Option (RegRow × Nat)
  | [], _ => none
  | r :: rs, off => match rowIndex r off with
    | some i => some (r, i)
    | none => findRow rs off

/-- The register at an offset of a unit's block (R25): the element must also exist in this unit, so a port
register stops at NPORTS and MEAS_n has six words (R814, R691). -/
def regAt (u off : Nat) : Option (RegRow × Nat) :=
  match unitKind u with
  | none => none
  | some k =>
    match findRow (if off < 0x4000 then rowsCommon ++ rowsOf k else rowsOf k) off with
    | none => none
    | some (r, i) =>
      if r.name = .stallBound ∧ nports u ≤ i then none
      else if r.name = .meas ∧ 6 ≤ i % 8 then none
      else some (r, i)

/-- The fixed SENSE of an event source (`true`: level), `none` for a programmable source (Table 9-1).
Reserved sources are listed as fixed edge sources. DEDUCED, log entry 16. -/
def fixedSense (n : Nat) : Option Bool :=
  if n < 0x100 then some false else if n < 0x200 then some true else if n < 0x400 then some false
  else if n < 0x444 then none else if n < 0x452 then some true else some false

/-- The reset value that the fields of a row give. -/
def fieldsReset (fs : List FieldRow) : Nat := fs.foldl (fun a f => a + at_ f.reset f.lo f.w) 0

/-- Reset value of element `i` of a register of unit `u`. -/
def resetWord (u : Nat) (r : RegRow) (i : Nat) : Word :=
  match r.name with
  | .unitId => BitVec.ofNat 64 (u + 0x10000)
  | .stallUnit => BitVec.ofNat 64 (maxDefault u (nports u) + 32 + nports u * 2 ^ 24)
  | .stallBound => BitVec.ofNat 64 (classDefault (port u i).2 + (port u i).2 * 2 ^ 20 + (port u i).1 * 2 ^ 24)
  | .evSrc => BitVec.ofNat 64 (1 + (if fixedSense i = some false then 0 else 2) + 0x20)
  | .hbTrig =>
    BitVec.ofNat 64 (1 + (if i < 6 then 2 * i else 0) +
      32 * (if i = 0 ∨ i = 5 then 6 else if i = 6 then 5 else 7) + (if i = 0 ∨ i = 5 ∨ i = 6 then 256 else 0))
  | .pcieCfg => BitVec.ofNat 64 (fieldsReset r.fields)
  | _ => BitVec.ofNat 64 (fieldsReset r.fields)

/-- What a register that no write has reached reads as: its reset value, by key unit ID × 65,536 + offset.
DESIGN CHOICE, log entry 10. -/
def regReset (key : Nat) : Word :=
  match regAt (key / 65536) (key % 65536) with
  | some (r, i) => resetWord (key / 65536) r i
  | none => 0

end Sys2Proof.Machine
end

