-- ==== Sys2Proof/Machine/State.lean ====
section
/-!
DEFINITION. The state of the block, as plain data, and its reset.
-/
namespace Sys2Proof.Machine

/-- The faults of the model. The device itself never stops with a fault: it takes causes, answers with error
responses and writes error records, all of which are next states. -/
inductive Fault where
  /-- Raised by no command: the spec names no behaviour that stops the block. Safe. -/
  | none
  deriving DecidableEq, Repr

/-- The refusals of the model. -/
inductive Refusal where
  /-- Raised by an arm of `exec` whose command has no meaning yet. Safe: no next state is claimed. -/
  | notModelled (mnemonic : String)
  deriving DecidableEq, Repr

/-- The reservation of a core: recorded address (physical) and size, and the retirements left before it is lost
(R133-R135). DEDUCED, log entry 20. -/
structure Resv where
  addr : Nat
  size : Nat
  left : Nat
  deriving DecidableEq, Repr

/-- A staged write: control register index, value, and the instruction boundaries left until it takes effect
(R154). -/
structure Staged where
  idx : Nat
  val : Word
  left : Nat
  deriving DecidableEq, Repr

/-- A cached leaf (R287): virtual page base, level, ASID, page bits, type and frame. -/
structure TlbEntry where
  va : Nat
  level : Nat
  asid : Nat
  g : Bool
  r : Bool
  w : Bool
  x : Bool
  u : Bool
  mt : Nat
  ph : Bool
  st : Bool
  d : Bool
  frame : Nat
  deriving DecidableEq, Repr

/-- A store-buffer entry: a retired store to part of one 64-byte granule (R217), with its physical address after
relocation, its type, its page hint bits and its virtual address. -/
structure SbEntry where
  pa : Nat
  data : List Byte
  mt : MemType
  ph : Bool
  st : Bool
  va : Nat
  deriving DecidableEq, Repr

/-- What a core is doing. `waite` and `waitb` doze (R142, R143); `stopped` is R147. -/
inductive RunState where
  | reset | run | waite | waitb (cad : Nat) (rd : RIx) | stopped
  deriving DecidableEq, Repr

/-- The state of one physical core. -/
structure Core where
  /-- w0-w31; w0 is never written (R97). -/
  w : Vector Word 32
  pc : Word
  astat : Word
  ctrCfg : Word
  stepCnt : Nat
  retCnt : Nat
  wpfCnt : Nat
  pmc : Vector Nat 8
  pmcSel : Vector Word 8
  sStatus : Word
  sEpc : Word
  sCause : Word
  sFaddr : Word
  sEvbase : Word
  sScratch : Word
  /-- S_TBASE, S_ASID and S_CORECTL as in effect; `staged` holds the writes under way. -/
  sTbase : Word
  sAsid : Word
  sCorectl : Word
  staged : List Staged
  /-- Writes of the "after SYNC.C" class not yet in effect, in the order written (R158). -/
  afterSync : List (Nat × Word)
  v : Vector (BitVec 512) 32
  q : Vector (BitVec 1536) 8
  vstat : BitVec 4
  run : RunState
  /-- Logical core, partition, replica and tier, as placed by the keeper (R49, R99). -/
  placed : Bool
  lcore : Nat
  part : Nat
  rep : Rep
  tier : Nat
  tlb : List TlbEntry
  /-- Walk cache: physical address of a table pointer, and the pointer (R275). -/
  walkCache : List (Nat × Word)
  sb : List SbEntry
  /-- A deferred store error that has reached the core: virtual address and response code (R129). -/
  deferred : Option (Nat × Nat)
  /-- The granule (physical address / 64) and the 64 bytes of the fetch buffer (R249). -/
  fetchBuf : Option (Nat × List Byte)
  /-- Return-address stack, top first (R224). -/
  ras : List Word
  /-- Addresses of divides whose earlier execution was abandoned (R244). -/
  abandoned : List Word
  /-- Pending priority of each pending vector of the inbox (R405). -/
  inboxPri : SMap Nat
  /-- BSN of the last block consumed, plus one, per cadence; 0 before the first (R143, R473). -/
  lastBlk : SMap Nat
  /-- Cadence of the latest WAITB, for TIME in a replica (R475). -/
  lastCad : Option Nat
  /-- Bytes 0 and 1 (MODE, CMASK) and the WCAD of its entry in the partition record (Table 13-8). -/
  cmask : Nat
  /-- PC of the last instruction retired, for CDBG_PCS. -/
  lastPc : Word
  /-- DT at which the core began to doze, for Nap (R622). -/
  dozeAt : Nat
  deriving DecidableEq, Repr

/-- A core at reset (R99, R167): every register at its reset value. -/
def Core.initial : Core where
  w := Vector.replicate 32 0
  pc := 0
  astat := 0
  ctrCfg := 0
  stepCnt := 0
  retCnt := 0
  wpfCnt := 0
  pmc := Vector.replicate 8 0
  pmcSel := Vector.replicate 8 0
  sStatus := 5
  sEpc := 0
  sCause := 0
  sFaddr := 0
  sEvbase := 0
  sScratch := 0
  sTbase := 0
  sAsid := 0
  sCorectl := 0
  staged := []
  afterSync := []
  v := Vector.replicate 32 0
  q := Vector.replicate 8 0
  vstat := 0
  run := .reset
  placed := false
  lcore := 0
  part := 0
  rep := .none
  tier := 0
  tlb := []
  walkCache := []
  sb := []
  deferred := none
  fetchBuf := none
  ras := []
  abandoned := []
  inboxPri := []
  lastBlk := []
  lastCad := none
  cmask := 0
  lastPc := 0
  dozeAt := 0

/-- The sector states of Table 7-2 in an L2. -/
inductive SecSt where
  | i | s | e | m
  deriving DecidableEq, Repr

/-- A 64-byte sector held by an L2, byte k in bits [8k + 7 : 8k]; `poison` is R705. -/
structure L2Sec where
  st : SecSt
  data : BitVec 512
  poison : Bool
  deriving DecidableEq, Repr

/-- An invalid L2 sector. -/
def L2Sec.empty : L2Sec := ⟨.i, 0, false⟩

/-- A line of an L2: line address PA / 256, age, page hint, sectors, and the flipped bits of its SECDED words
(72 × word + bit). -/
structure L2Line where
  tag : Nat
  age : Nat
  ph : Bool
  secs : List L2Sec
  flips : List Nat
  deriving DecidableEq, Repr

/-- The directory state of a sector at its home (Table 7-2, R318): clusters by package-wide number, or the
global regions of the vector form. -/
inductive Dir where
  | u | sh (cl : List Nat) | shv (regions : List Nat) | ow (cl : Nat)
  deriving DecidableEq, Repr

/-- A sector at its home. -/
structure HSec where
  valid : Bool
  dirty : Bool
  poison : Bool
  data : BitVec 512
  dir : Dir
  deriving DecidableEq, Repr

/-- An invalid home sector. -/
def HSec.empty : HSec := ⟨false, false, false, 0, .u⟩

/-- A line of an L3 slice or exchange slice; `own` is the slice partition entry or exchange range that filled it. -/
structure HomeLine where
  tag : Nat
  age : Nat
  ph : Bool
  secs : List HSec
  flips : List Nat
  deriving DecidableEq, Repr

/-- An error record on its way to the A-class log (R700, R723): die whose control holds it, unit, severity,
rehearsal mark, partition, code, ERR_ADDR and ERR_DT. -/
structure LogEnt where
  die : Nat
  uid : Nat
  sev : Nat
  rehearsal : Bool
  part : Option Nat
  code : Nat
  addr : Nat
  dt : Nat
  deriving DecidableEq, Repr

/-- What has left the package or reached a board-level device, oldest first (the model's own record of outputs).
DESIGN CHOICE, log entry 55. -/
inductive Sent where
  /-- A frame or packet on an Ethernet, management or Trelub port: port name, bytes, device time. -/
  | frame (port : Nat) (bytes : List Byte) (dt : Nat)
  /-- A stream packet: port, destination address, UDP port (0 for AVTP), VLAN tag word, DSCP, payload, device time. -/
  | packet (port : Nat) (dst : Nat) (udp : Nat) (tag : Nat) (dscp : Nat) (payload : List Byte) (dt : Nat)
  /-- A frame driven by a TDM port: port 0-15, the 32-bit slots. -/
  | tdm (port : Nat) (slots : List Nat) (dt : Nat)
  /-- A request on a PCIe port: group, what it is (as PcieReq), address or configuration address, data, length. -/
  | pcie (group : Nat) (kind : Nat) (addr : Nat) (data : Nat) (len : Nat) (dt : Nat)
  /-- An advertisement of the states and delays of the own links (R542). -/
  | advert (links : List (Nat × Nat × Nat)) (dt : Nat)
  /-- A keeper announcement or an answer to another device: kind, words. -/
  | note (kind : Nat) (words : List Nat) (dt : Nat)
  deriving DecidableEq, Repr

/-- The time base and the time counters (R84-R95). -/
structure TimeSt where
  /-- Mark at which a cluster's time counter becomes valid, plus one; 0 while it has not been loaded (R84). -/
  tc : SMap Nat
  /-- Regions whose region control sees no tick (R91). -/
  noTick : List Nat
  /-- A TB_LOAD value waiting for the next mark (R89). -/
  load : Option Nat
  /-- Sync intervals or 1PPS edges in a row with an offset below 100 ns (R95). -/
  streak : Nat
  deriving DecidableEq, Repr

/-- Where the device stands in Deep (R632, R639): running, entering, in Deep, or leaving it. -/
inductive DeepPhase where
  | run | entering | deep | exiting
  deriving DecidableEq, Repr

/-- Power, rails and resets (chapters 2 and 15). -/
structure PowerSt where
  /-- Commanded set point of each region's VDD_CORE rail, in mV; 0 while the rail is off. -/
  rail : SMap Nat
  /-- Set point before the latest command of each rail, and the DT of that command plus one (R647). -/
  railOld : SMap Nat
  railAt : SMap Nat
  /-- VCORE_EN balls that are driven high, by region (R793, R794). -/
  vcoreEn : List Nat
  /-- Clusters with a valid retention record in their region's retention SRAM (R625, R629). -/
  held : List Nat
  /-- DT of the wake that a cluster's Hold exit counts from, plus one (R639). -/
  holdWake : SMap Nat
  /-- DT of the wake of a napping core, plus one. -/
  napWake : SMap Nat
  /-- DT of a region's rail command on its way out of Off, plus one. -/
  regionWake : SMap Nat
  deep : DeepPhase
  /-- DT from which Table 15-5 counts, and the number of its last Deep event that has taken place. -/
  deepAt : Nat
  deepStep : Nat
  /-- Whether the Deep exit under way is the sentinel's keeper-only wake (R635). -/
  keeperOnly : Bool
  /-- Partitions that have voted for Deep (R631). -/
  votes : List Nat
  /-- Partitions whose Hold request is recorded (R658). -/
  holdAsked : List Nat
  /-- Clusters for which a wake request stands at the keeper (R404). -/
  wakeAsked : List Nat
  /-- Pad groups in high impedance since power-up (R644), and releases that wait for Harebell (R645). -/
  hiZ : List Nat
  padWait : List Nat
  /-- A non-volatile write is in progress. -/
  nvBusy : Bool
  /-- WARM_N was asserted in Deep and the warm reset is to follow (R660). -/
  warmWaits : Bool
  /-- PWR_GOOD is high (R793). -/
  good : Bool
  /-- Dies whose warning condition stands (R43). -/
  hot : List Nat
  deriving DecidableEq, Repr

/-- Power at reset: every rail off, every pad group in high impedance. DESIGN CHOICE, log entry 10. -/
def PowerSt.initial : PowerSt where
  rail := []
  railOld := []
  railAt := []
  vcoreEn := []
  held := []
  holdWake := []
  napWake := []
  regionWake := []
  deep := .run
  deepAt := 0
  deepStep := 0
  keeperOnly := false
  votes := []
  holdAsked := []
  wakeAsked := []
  hiZ := List.range 10
  padWait := []
  nvBusy := false
  warmWaits := false
  good := false
  hot := []

/-- A core entry of a partition record (Table 13-8): logical core, DMODE at release, RELEASE, W declared, the physical
cores of replicas A, B and C (0xFFFF: none), reset vector, cadence of W, CMASK, W, and the way masks. -/
structure CoreEnt where
  lcore : Nat
  dmode : Bool
  late : Bool
  wDecl : Bool
  phys : List Nat
  vector : Nat
  wCad : Nat
  cmask : Nat
  w : Nat
  masks : List Nat
  deriving DecidableEq, Repr

/-- A window entry: the base for each replica, SIZE, R, W, X and U, TYPES, DEFTYPE, index, and whether it is shared. -/
structure WinEnt where
  bases : List Nat
  size : Nat
  rights : Nat
  types : Nat
  deft : Nat
  index : Nat
  shared : Bool
  deriving DecidableEq, Repr

/-- A slice entry: unit ID, ways, and the replica code. -/
structure SliceEnt where
  uid : Nat
  ways : Nat
  rep : Nat
  deriving DecidableEq, Repr

/-- A share entry: channel, replica code, SHARE and QMAX. -/
structure ShareEnt where
  ch : Nat
  rep : Nat
  share : Nat
  qmax : Nat
  deriving DecidableEq, Repr

/-- A partition record (Tables 13-7 and 13-8); `tier` is 0 single, 1 pair, 2 triple, `rejoin` the budget in KiB, and
`cads` the cadences with their K0MIN. -/
structure PartRec where
  part : Nat
  tier : Nat
  flags : Nat
  debug : Nat
  mcad : Nat
  rejoin : Nat
  cads : List (Nat × Nat)
  cores : List CoreEnt
  wins : List WinEnt
  slices : List SliceEnt
  shares : List ShareEnt
  deriving DecidableEq, Repr

/-- What the keeper firmware holds for its own work and the spec names: placement, policy, notices and its inbox.
DESIGN CHOICE, log entry 9. -/
structure KeeperSt where
  /-- Partition of each logical core, plus one; 0 where the image names none. -/
  lpart : SMap Nat
  /-- Regions in floor mode (R66). -/
  floorMode : List Nat
  /-- Vectors pending in the active keeper pair's inbox, with their priority plus one (R819). -/
  inbox : SMap Nat
  /-- Units that the keeper must fence after a stall (R80, event 5). -/
  toFence : List Nat
  /-- Unread notices by partition, oldest first (NOTICE_READ). -/
  notices : List (Nat × List Byte)
  /-- Partitions released (R688). -/
  released : List Nat
  /-- Clusters that the keeper treats as fenced and has not yet replaced (R28, R44, R627, R653). -/
  lost : List Nat
  /-- Mailbox cadence MCAD of each partition, plus one (R422). -/
  mcad : SMap Nat
  /-- Cadences that each partition holds, as a mask (R473). -/
  cads : SMap Nat
  /-- The image in keeper-locked memory (Table 13-13), empty before one is in force, and the partition records in force,
  as restructuring has changed them. -/
  image : List Byte
  recs : List PartRec
  /-- Partition whose restructuring operation runs, plus one (R618). -/
  op : Nat
  deriving DecidableEq, Repr

/-- Nothing placed, granted or asked for. -/
def KeeperSt.initial : KeeperSt := ⟨[], [], [], [], [], [], [], [], [], [], [], 0⟩

/-- Non-volatile contents: they survive the removal of power. -/
structure NvSt where
  /-- Units that the keeper's journal records as fenced (R27). -/
  fenced : List Nat
  /-- Device marks that the journal records: channel, MC_MARK index, device (R367). -/
  marks : List (Nat × Nat × Nat)
  /-- Clusters that the journal records as failed (R33). -/
  failed : List Nat
  /-- Highest SEQ of any image that has passed the signature check (R573). -/
  seq : Nat
  /-- The overlay: the SEQ of its image, the records of the partitions and the roles of the 72 clusters (R592). -/
  overlay : Option (Nat × List PartRec × List Nat)
  /-- Hash held by each key slot 0-3, plus one (R674). -/
  keyHash : SMap Nat
  /-- The Harebell record: HB_TRIG 0-6, HB_TDM 0-3, HB_NET_A, HB_NET_B, HB_SMAC (R715). -/
  hbRec : Option (List Word)
  deriving DecidableEq, Repr

/-- The SDRAM channels beyond their registers. -/
structure ChanSt where
  /-- Codewords scrubbed in the present pass, by channel (R371). -/
  scrub : SMap Nat
  /-- Open row of a bank plus one, by channel × 1,024 + rank × 256 + subchannel × 32 + group × 4 + bank (R373). -/
  openRow : SMap Nat
  /-- Activates of a bank since its last refresh management (R383). -/
  acts : SMap Nat
  /-- Channels that refresh at half the interval (R380). -/
  halfRefi : List Nat
  /-- Channels with a stored training record in the xSPI flash (R386). -/
  trained : List Nat
  /-- Channels whose DIMMs passed SPD_READ (R353, R354). -/
  populated : List Nat
  /-- Channels of a mirrored range that were fenced and have not been rebuilt since (R369). -/
  stale : List Nat
  deriving DecidableEq, Repr

/-- A message of the armed bundle: its 16-bit samples at 48 kHz, and its loop flag (R684, R711). -/
structure HbMsg where
  samples : List (BitVec 16)
  loop : Bool
  deriving DecidableEq, Repr

/-- Harebell beyond its registers (R708-R714). -/
structure HbSt where
  /-- Triggers whose latch is set. -/
  latch : List Nat
  /-- Level triggers 1-4 whose filtered input is active. -/
  alarm : List Nat
  msg6 : Nat
  msgs : List HbMsg
  /-- What played lately, latest first: from a media count on, a message or nothing (R710). -/
  segs : List (Int × Option Nat)
  /-- Media count of the last frame that Harebell drove at a TDM port 0-3, plus one (R713). -/
  out : SMap Nat
  deriving DecidableEq, Repr

/-- A decision on a block (R487-R490): the replica whose slot is released and its hash, or concealed. -/
inductive Verdict where
  | release (rep : Nat) (hash : Nat)
  | conceal
  deriving DecidableEq, Repr

/-- A commit group beyond its registers. Blocks are numbered without wrap. DEDUCED, log entry 50. -/
structure CgSt where
  /-- Ready hashes: block, replica 0-2, hash. -/
  hashes : List (Nat × Nat × Nat)
  /-- Decisions taken, latest first. -/
  verdicts : List (Nat × Verdict)
  /-- LIVE bits and the block from which they apply, latest first (R484). -/
  live : List (Nat × Nat)
  /-- Blocks whose deadline has been handled, latest first, with the replicas late for them. -/
  closed : List (Nat × List Nat)
  /-- Replicas that agreed in the latest block released by agreement, and that block (R498). -/
  agreed : Nat × List Nat
  /-- Concealed blocks in a row, as played (g of R492). -/
  run : Nat
  /-- Last played sample of each channel. -/
  last : List Int
  /-- Play blocks still to be sent from: block number, sample area of the slot, and whether network streams send it. -/
  plays : List (Nat × List Byte × Bool)
  /-- Whether a block has been released since EN was set (R494). -/
  ever : Bool
  /-- The peer's decisions: block, and the released hash or none when concealed (R510). -/
  peer : List (Nat × Option Nat)
  /-- Blocks that the twin action suppresses, and blocks that it has been taken for. -/
  supp : List Nat
  acted : List Nat
  /-- Blocks that CRB_VOTE perturbs, latest first: block, replica 0-2, MODE. -/
  pert : List (Nat × Nat × Nat)
  deriving DecidableEq, Repr

/-- A commit group that nothing has reached. -/
def CgSt.initial : CgSt := ⟨[], [], [], [], (0, []), 0, [], [], false, [], [], [], []⟩

/-- A rejoin in progress (R498-R503): partition, replica being rebuilt, donor, pass, pages recorded (donor's physical
address / 4,096), and its stage: 0 copying, 1 waiting for the final delta, 2 final delta, 3 abandoned. -/
structure Rejoin where
  part : Nat
  rep : Rep
  donor : Rep
  pass : Nat
  pages : List Nat
  stage : Nat
  at_ : Nat
  deriving DecidableEq, Repr

/-- A reload: engine, direction, stream, descriptor, and map entries by their number in the engine's map. -/
structure Reload where
  se : Nat
  tx : Bool
  stream : Nat
  cad : Nat
  desc : List Byte
  map : List (Nat × Nat)
  deriving DecidableEq, Repr

/-- A completion: partition, replica code (0 single-tier), cadence, block, logical core. -/
structure Completion where
  part : Nat
  rep : Nat
  cad : Nat
  blk : Nat
  lcore : Nat
  deriving DecidableEq, Repr

/-- Samples that a source has supplied to a block: source (engine × 1,024 + stream, or 4,096 + TDM port), block, and
masks of the samples that came by path A and by path B. -/
structure Capture where
  src : Nat
  blk : Int
  pathA : Nat
  pathB : Nat
  deriving DecidableEq, Repr

/-- Cadences, streams, TDM ports and commit groups (chapters 10 and 11). -/
structure AudioSt where
  /-- Per cadence, plus one: first block of the run, last block when it has been disabled, last block started, last
  block whose event has occurred. 0: none. -/
  first : SMap Nat
  stop : SMap Nat
  started : SMap Nat
  done : SMap Nat
  /-- Descriptors that the engines hold, by engine × 1,024 + stream; none while disabled (R820). -/
  rx : SMap (List Byte)
  tx : SMap (List Byte)
  /-- Channel-map entries that the engines hold, by engine × 16,384 + entry. -/
  rxMap : SMap Nat
  txMap : SMap Nat
  /-- Reloads that wait for the next block start of their stream's cadence (R445). -/
  reloads : List Reload
  /-- Learned SSRC of a receive stream, plus one (R451). -/
  ssrc : SMap Nat
  /-- Sequence identities accepted by a dual stream, with their media count (R452). -/
  seen : List (Nat × Nat × Int)
  /-- DT of the last accepted packet, plus one, by stream × 3 + (0 either path, 1 A, 2 B); and the keys now lost. -/
  lastAcc : SMap Nat
  lostKeys : List Nat
  /-- Samples supplied to open blocks. -/
  cap : List Capture
  /-- Last block started at which a buffer was closed, plus one, by engine × 64 + buffer (R437). -/
  closed : SMap Nat
  /-- Latest capture block of a mirrored buffer that the peer's slot was merged into, plus one. -/
  merged : SMap Nat
  /-- First media count of a transmit stream's next packet, plus one. -/
  txNext : SMap Nat
  /-- TDM ports 0-15: input and output FIFOs, previous input and output frame, and sample counts handed over. -/
  fifoIn : SMap (List (List Nat))
  fifoOut : SMap (List (List Nat))
  prevIn : SMap (List Nat)
  prevOut : SMap (List Nat)
  inCnt : SMap Nat
  outCnt : SMap Nat
  /-- Slot-header bits of a TDM port for the block under way: 1 clock lost, 2 slip. -/
  tdmBits : SMap Nat
  /-- Completions signalled (R476, R477). -/
  complete : List Completion
  /-- Commit groups by engine × 32 + group. -/
  cg : SMap CgSt
  /-- Replicas that the keeper has to fence: partition, replica (`none` after a pair mismatch), DT from which records
  are evidence (R496, R497). -/
  suspects : List (Nat × Option Nat × Nat)
  rejoins : List Rejoin
  deriving DecidableEq, Repr

/-- Nothing in the audio path yet. -/
def AudioSt.initial : AudioSt where
  first := []
  stop := []
  started := []
  done := []
  rx := []
  tx := []
  rxMap := []
  txMap := []
  reloads := []
  ssrc := []
  seen := []
  lastAcc := []
  lostKeys := []
  cap := []
  closed := []
  merged := []
  txNext := []
  fifoIn := []
  fifoOut := []
  prevIn := []
  prevOut := []
  inCnt := []
  outCnt := []
  tdmBits := []
  complete := []
  cg := []
  suspects := []
  rejoins := []

/-- A Trelub link or Ethernet port beyond its registers (R528-R539). -/
structure LinkSt where
  /-- Next LSEQ to send and next LSEQ expected. -/
  next : Nat
  expect : Nat
  /-- Replay buffer: LSEQ and frame, oldest first; and frames that wait for room in it. -/
  replay : List (Nat × List Byte)
  waiting : List (List Byte)
  /-- Place in the pattern of 16 frames of R530. -/
  turn : Nat
  /-- NAKs received in a row for one LSEQ. -/
  nakSeq : Nat
  naks : Nat
  /-- A NAK has been sent and later frames are discarded until `expect` arrives. -/
  naked : Bool
  /-- Echo round trips completed in the measuring state, the shortest RTT and its turnaround time. -/
  echoes : Nat
  rtt : Nat
  turnaround : Nat
  /-- DT of the latest failed training, plus one. -/
  failed : Nat
  /-- DTs of the uncorrectable FEC codewords of the last 1 ms. -/
  unc : List Nat
  deriving DecidableEq, Repr

/-- A link at reset. -/
def LinkSt.initial : LinkSt := ⟨0, 0, [], [], 0, 0, 0, false, 0, 0, 0, 0, []⟩

/-- A frame between a ring and the port (R524): unit, ring, bytes of the received frame, status, DT. -/
structure RingJob where
  unit : Nat
  ring : Nat
  bytes : List Byte
  status : Nat
  dt : Nat
  deriving DecidableEq, Repr

/-- A unit of which frames have arrived (R541): its RSEQ, the frames accepted, and the frames arrived in each direction. -/
structure SeenUnit where
  rseq : Nat
  got : Nat
  prim : Nat
  sec : Nat
  deriving DecidableEq, Repr

/-- An outstanding PCIe request: port group 0-3, what it is (0 configuration read, 1 configuration write, 2 memory read,
3 memory write), its length, and the DT of its issue. -/
structure PcieReq where
  group : Nat
  kind : Nat
  len : Nat
  dt : Nat
  deriving DecidableEq, Repr

/-- Lanes, links, rings and PCIe ports beyond their registers (chapter 12). -/
structure NetSt where
  links : SMap LinkSt
  /-- Next RSEQ by destination × 8 + class. -/
  rseq : SMap Nat
  /-- Units of which frames have arrived, by source × 8 + class, latest first (R541). -/
  seen : SMap (List SeenUnit)
  /-- Path delays learnt from advertisements, plus one, by destination × 2 + direction; 1 + 2^32: a link on it is down. -/
  adv : SMap Nat
  /-- DT at which proxy r's message was sent, plus one; 0 once it has been delivered. -/
  proxyAt : SMap Nat
  /-- Mailboxes whose stored message came from a far proxy: device × 16 + proxy, plus one (R545). -/
  relayed : SMap Nat
  jobs : List RingJob
  /-- PTP frames handed to the keeper: port, bytes, timestamp (R521). -/
  ptp : List (Nat × List Byte × Nat)
  pcie : List PcieReq
  /-- Trelub frames delivered to the hub, oldest first. -/
  got : List (List Byte)
  deriving DecidableEq, Repr

/-- No link up and nothing on its way. -/
def NetSt.initial : NetSt := ⟨[], [], [], [], [], [], [], [], [], []⟩

/-- A mailbox write of a replica (R424): logical core, ordinal, replica 0-2, offset in the mailbox block, data. -/
structure RepWrite where
  lcore : Nat
  ord : Nat
  rep : Nat
  off : Nat
  val : Word
  deriving DecidableEq, Repr

/-- Replica mailbox writes: the ordinals by logical core × 4 + replica, the writes that wait, and those performed. -/
structure RepMbx where
  ord : SMap Nat
  waiting : List RepWrite
  done : List RepWrite
  deriving DecidableEq, Repr

/-- The epoch protocol beyond its registers (chapter 14). -/
structure EpochSt where
  /-- Whether epoch e is complete (R605), and whether the phase in force is one that units acknowledge. -/
  complete : Bool
  /-- Units that have not acknowledged the phase in force. -/
  pend : List Nat
  /-- DT of the posting at each die (key die), plus one. -/
  postedAt : SMap Nat
  /-- Register values of the mode: unit, offset, value, for every unit that holds one. -/
  values : List (Nat × Nat × Word)
  /-- Values that units of a dual mode keep until their die has acknowledged (R608). -/
  old : List (Nat × Nat × Word)
  /-- Transactions held by a receiver that has not taken the posted epoch (R607), oldest first. -/
  held : List (Nat × Req)
  /-- Transactions that met "epoch retry", to be sent again (R609). -/
  retry : List (Nat × Req)
  deriving DecidableEq, Repr

/-- No epoch posted. -/
def EpochSt.initial : EpochSt := ⟨true, [], [], [], [], [], []⟩

/-- A packet in a funnel: its session, class, and 16 bytes. -/
structure TracePkt where
  session : Nat
  cls : Nat
  bytes : List Byte
  deriving DecidableEq, Repr

/-- Trace beyond its registers (R773-R783). -/
structure TraceSt where
  /-- FIFOs of the funnels 0-9, oldest first. -/
  fifo : SMap (List TracePkt)
  /-- Drops since the latest marker, by funnel × 64 + session × 4 + class. -/
  drops : SMap Nat
  /-- Conditional branches not taken since the latest flow packet, by physical core. -/
  skipped : SMap Nat
  /-- Cores that owe a resync packet (R783). -/
  resync : List Nat
  /-- Reads of a channel since its latest memory packet. -/
  reads : SMap Nat
  /-- Sessions whose stop packets have been written (R782). -/
  closing : List Nat
  deriving DecidableEq, Repr

/-- A mailbox snapshot of a logical core of a replicated partition: the block whose event took it (none: at release), and
the values of its mailbox registers and MBX_LASTACK by offset (R422). -/
structure Snap where
  lcore : Nat
  blk : Option Nat
  regs : List (Nat × Word)
  deriving DecidableEq, Repr

/-- The nightly rehearsal (R734-R737): the step in progress, 1-7 (0: none), DT of its start, DT from which the keeper waits
for the twin peer plus one, the low byte of the code of a record that aborts it plus one, the sum of the concealment
counters at its start, clusters it uses or has fenced, the number of steps that failed, the nights counted for the
rotation of event 3, and the place within the step. -/
structure RehSt where
  step : Nat
  at_ : Nat
  peerAt : Nat
  abort : Nat
  concealed : Nat
  clusters : List Nat
  failed : Nat
  nights : Nat
  cursor : Nat
  deriving DecidableEq, Repr

/-- Sentinel, watchdogs, filters, Crumble and rehearsal beyond their registers (chapter 17). -/
structure SurviveSt where
  /-- DT from which the sentinel counts, and the period in ms in effect (R717, R718). -/
  sentAt : Nat
  sentMs : Nat
  /-- DT from which a watchdog counts, plus one, by logical core; and watchdogs that are held (R721, R722). -/
  wdogAt : SMap Nat
  wdogHeld : List Nat
  /-- DT at which a unit's Crumble unlocked, plus one (R730). -/
  crbAt : SMap Nat
  /-- RH_KEY, drawn from the entropy source. -/
  rhKey : Word
  rh : RehSt
  /-- DT of the latest record of severity contained or above without REHEARSAL, plus one (R735). -/
  realAt : Nat
  /-- The sentinel has expired and the keeper has not petted it since (R803). -/
  expired : Bool
  deriving DecidableEq, Repr

/-- No watchdog running, no rehearsal. -/
def SurviveSt.initial (key : Word) : SurviveSt :=
  ⟨0, 10000, [], [], [], key, ⟨0, 0, 0, 0, 0, [], 0, 0, 0⟩, 0, false⟩

/-- A loader as resident in its target (R694): partition, its places (SDRAM address, or local-store key + 2^47), length and
hash. -/
structure Resident where
  part : Nat
  places : List Nat
  len : Nat
  hash : Nat
  deriving DecidableEq, Repr

/-- Boot beyond its registers (chapter 16). -/
structure BootSt where
  /-- Straps as latched: GOLDEN_N low, BENCH_N low; and the service button held low at the start of B0. -/
  golden : Bool
  bench : Bool
  button : Bool
  /-- BENCH_N has been latched since the latest power-on (R808). -/
  strapped : Bool
  /-- The directory of the slot in force as B0 read it. -/
  dir : List Byte
  /-- Checked copies by directory entry. -/
  objs : List (Nat × List Byte)
  /-- Entries whose key check is deferred (R675). -/
  deferred : List Nat
  /-- Partitions whose loader has been copied and checked. -/
  loaded : List Nat
  residents : List Resident
  /-- The retained digest (R694): the residents it describes, none while it is invalid. -/
  digest : Option (List Resident)
  /-- Keeper SRAM sections by hub × 8 + section: R, W, X and lock in bits 0-3 (R667). -/
  sections : SMap Nat
  /-- Boot ROM reads disabled; fuse read port and staging reservation locked (R668). -/
  romOff : Bool
  /-- Ways of the four exchange slices of hub 0 that are reserved for the keeper (R664). -/
  staging : Bool
  /-- Fuse words waiting: kind (0 key slot, 1 slot revocation, 2 vendor key revocation), number, hash. -/
  fuseJobs : List (Nat × Nat × Nat)
  /-- A structural failure in slot B leaves every partition unreleased (R680). -/
  noRelease : Bool
  /-- DT at which every partition released at boot had been released, plus one (R683). -/
  allAt : Nat
  /-- Whether the copy of B1 is needed after a fast path that failed (R696). -/
  fastFailed : Bool
  /-- The stream tables of the image in force have been written and loaded (R820). -/
  planDone : Bool
  deriving DecidableEq, Repr

/-- Nothing latched, copied or locked. -/
def BootSt.initial : BootSt :=
  ⟨false, false, false, false, [], [], [], [], [], none, [], false, false, [], false, 0, false, false⟩

/-- An access of the debug bus master that has started: DBM_CTL, DBM_ADDR and DBM_DATA (R767). -/
structure DbmJob where
  ctl : Word
  addr : Nat
  data : List Byte
  deriving DecidableEq, Repr

/-- A verification in progress (R745): DT of GO, nonce, partition, level, key and signature. -/
structure Unlock where
  at_ : Nat
  nonce : List Byte
  part : Nat
  level : Nat
  key : List Byte
  sig : List Byte
  deriving DecidableEq, Repr

/-- Debug beyond its registers (chapter 18); class D. -/
structure DbgSt where
  /-- TAP instruction register, and the 128-bit data register of DBGACC. -/
  ir : Nat
  dr : List Byte
  /-- Debug accesses that no target has answered: frame and DT of arrival. -/
  waiting : List (List Byte × Nat)
  /-- DT of a posted halt request, plus one, by physical core. -/
  haltAt : SMap Nat
  /-- Step in progress, by physical core: 1 step, 2 step-region. -/
  stepping : SMap Nat
  /-- Cores whose next instruction hits no execute comparator (R757). -/
  skipCmp : List Nat
  unlock : Option Unlock
  dbm : Option DbmJob
  /-- Partition and replica withdrawn by a halt (R760). -/
  withdrawn : List (Nat × Nat)
  /-- SEQ of the image under which the levels stand, plus one (R747). -/
  seq : Nat
  deriving DecidableEq, Repr

/-- No debugger has acted. -/
def DbgSt.initial : DbgSt := ⟨0xFF, [], [], [], [], [], none, none, [], 0⟩

/-- The block but for its queue of commands. -/
structure Dev where
  /-- Device time in ns (R6); a multiple of 8. -/
  dt : Nat
  /-- Number of free values drawn so far (the model's own field). -/
  freeCnt : Nat
  /-- Answer of the latest transaction (the model's own field; the issuer sees it). -/
  resp : Answer
  /-- Every register of the unit register blocks, by unit ID × 65,536 + offset. -/
  regs : SMap Word
  cores : Vector Core 288
  /-- Reservations held, by physical core (R133). -/
  resv : SMap (Option Resv)
  /-- SDRAM bytes, by channel × 2^38 + channel-local address. -/
  sdram : SMap Byte
  /-- Positions in error (0-639, R359) of a codeword, by channel × 2^32 + local address / 64. -/
  sdramErr : SMap (List Nat)
  /-- Retained memory, 256 KiB (R50). -/
  retained : SMap Byte
  /-- Local stores, by physical core × 2^17 + offset. -/
  localStore : SMap Byte
  /-- Flipped bits (0-71) of a local-store word, by physical core × 2^14 + offset / 8. -/
  localErr : SMap (List Nat)
  /-- L2 lines, by cluster × 2^13 + set × 16 + way. -/
  l2 : SMap (Option L2Line)
  /-- Home lines, by unit ID × 2^15 + set × 16 + way. -/
  homes : SMap (Option HomeLine)
  /-- Corrections counted in the present scrub pass, by (channel × 8 + m) × 16 + device (R367). -/
  mcCount : SMap Nat
  /-- The routing table, by destination device (R541); an entry is laid out as TRL_RT. -/
  routes : SMap Word
  /-- Inputs of level event sources that are active (R400). -/
  evLevel : List Nat
  /-- Logical core that received the latest any-core message, by partition (R401). -/
  evRot : SMap Nat
  /-- Records waiting in the die and hub controls for the log link, oldest first (R724). -/
  logQ : List LogEnt
  /-- The A-class error log: 32 bytes by index 0-2,047 (R723), and its next sequence number. -/
  elog : SMap (List Byte)
  elogSeq : Nat
  sent : List Sent
  tm : TimeSt
  pw : PowerSt
  kp : KeeperSt
  ch : ChanSt
  nv : NvSt
  hb : HbSt
  au : AudioSt
  ep : EpochSt
  rm : RepMbx
  nt : NetSt
  tr : TraceSt
  snaps : List Snap
  sv : SurviveSt
  bt : BootSt
  db : DbgSt
  /-- Keeper pair SRAM, by hub × 2^19 + offset; region retention SRAM, by region × 2^20 + offset. -/
  keeperSram : SMap Byte
  regionSram : SMap Byte
  /-- Messages for cores in Hold: logical core, vector, priority, source (R404). -/
  evKept : List (Nat × Nat × Nat × Nat)
  deriving DecidableEq, Repr

/-- The block and the commands that wait, first in, first out. -/
structure State where
  pending : List Instr
  dev : Dev
  deriving DecidableEq, Repr

/-- The device after a power-on reset (R651): every register at its reset value, nothing in memory. -/
def Dev.reset : Dev where
  dt := 0
  freeCnt := 1
  resp := .data []
  regs := []
  cores := Vector.replicate 288 Core.initial
  resv := []
  sdram := []
  sdramErr := []
  retained := []
  localStore := []
  localErr := []
  l2 := []
  homes := []
  mcCount := []
  routes := []
  evLevel := []
  evRot := []
  logQ := []
  elog := []
  elogSeq := 0
  sent := []
  tm := ⟨[], [], none, 0⟩
  pw := PowerSt.initial
  kp := KeeperSt.initial
  nv := ⟨[], [], [], 0, none, [], none⟩
  hb := ⟨[], [], 0, [], [], []⟩
  au := AudioSt.initial
  ep := EpochSt.initial
  rm := ⟨[], [], []⟩
  nt := NetSt.initial
  tr := ⟨[], [], [], [], [], []⟩
  snaps := []
  ch := ⟨[], [], [], [], [], [], []⟩
  sv := SurviveSt.initial (BitVec.ofNat 64 (Config.free 0))
  bt := BootSt.initial
  db := DbgSt.initial
  keeperSram := []
  regionSram := []
  evKept := []

/-- The block after reset, with an empty queue. -/
def State.reset : State := ⟨[], Dev.reset⟩

end Sys2Proof.Machine
end

