-- ==== Sys2Proof/Machine/Ops.lean ====
section
/-!
DEFINITION. Shared operations on the state: registers and their fields, cores, free values, event sources, error
records and the answer of a transaction.
-/
namespace Sys2Proof.Machine

/-- Run an effect on the device as a meaning: the queue is not touched. DESIGN CHOICE, log entry 1. -/
def onDev (f : Dev → Dev) (s : State) : Host.Outcome State Fault Refusal :=
  .next { s with dev := f s.dev }

/-- The storage key of a register: pages 4-14 of the event controllers and mailbox blocks, and the cadence registers
of the hub controls, are mirrored (R394, R428) and stored once, under hub 0. -/
def regKey (uid off : Nat) : Nat :=
  if uid = evcUid 1 ∧ 0x4000 ≤ off ∧ off < 0xF000 then evcUid 0 * 65536 + off
  else if uid = mbxUid 1 ∧ 0x4000 ≤ off ∧ off < 0xF000 then mbxUid 0 * 65536 + off
  else if uid = hubUid 1 ∧ 0x7000 ≤ off ∧ off < 0x8000 then hubUid 0 * 65536 + off
  else uid * 65536 + off

/-- The stored value of a register. -/
def Dev.reg (d : Dev) (uid off : Nat) : Word := SMap.get regReset d.regs (regKey uid off)

/-- Store a register. -/
def Dev.setReg (d : Dev) (uid off : Nat) (v : Word) : Dev :=
  { d with regs := SMap.set regReset d.regs (regKey uid off) v }

/-- Field [lo + w − 1 : lo] of a register. -/
def Dev.fld (d : Dev) (uid off lo w : Nat) : Nat := bits (d.reg uid off) lo w

/-- Bit `i` of a register. -/
def Dev.flag (d : Dev) (uid off i : Nat) : Bool := bit (d.reg uid off) i

/-- Write a field of a register, as the hardware does. -/
def Dev.setFld (d : Dev) (uid off lo w x : Nat) : Dev := d.setReg uid off (setBits (d.reg uid off) lo w x)

/-- Write bit `i` of a register, as the hardware does. -/
def Dev.setFlag (d : Dev) (uid off i : Nat) (b : Bool) : Dev := d.setFld uid off i 1 b.toNat

/-- Add 1 to a saturating counter field. -/
def Dev.incFld (d : Dev) (uid off lo w : Nat) : Dev := d.setFld uid off lo w (satInc (d.fld uid off lo w) w)

/-- Add 1 to a wrapping counter field. -/
def Dev.wrapFld (d : Dev) (uid off lo w : Nat) : Dev := d.setFld uid off lo w (d.fld uid off lo w + 1)

/-- A core's state. -/
def Dev.core (d : Dev) (c : CoreId) : Core := d.cores[c]

/-- Replace a core's state. -/
def Dev.setCore (d : Dev) (c : CoreId) (k : Core) : Dev := { d with cores := d.cores.set c k c.2 }

/-- Change a core's state. -/
def Dev.modCore (d : Dev) (c : CoreId) (f : Core → Core) : Dev := d.setCore c (f (d.core c))

/-- A core by number, core 0 for a number out of range. -/
def coreId (n : Nat) : CoreId := if h : n < 288 then ⟨n, h⟩ else ⟨0, by decide⟩

/-- Draw a free value (the model's own counter advances). DESIGN CHOICE, log entry 7. -/
def Dev.draw (d : Dev) : Nat × Dev := (Config.free d.freeCnt, { d with freeCnt := d.freeCnt + 1 })

/-- Record the answer of a transaction. -/
def Dev.answer (d : Dev) (a : Answer) : Dev := { d with resp := a }

/-- The answer of a 64-bit register read. -/
def Answer.word (v : Word) : Answer := .data (natLe 8 v.toNat)

/-- Error response codes (Table 17-3). -/
def errStalled : Nat := 0x01
def errPoweredDown : Nat := 0x02
def errFenced : Nat := 0x03
def errUncorrectable : Nat := 0x04
def errPoisoned : Nat := 0x05
def errNotInit : Nat := 0x06
def errLost : Nat := 0x07
def errNotPermitted : Nat := 0x08
def errNoTarget : Nat := 0x09
def errMalformed : Nat := 0x0A
def errMbxFull : Nat := 0x0B
def errRefused : Nat := 0x0C
def errStale : Nat := 0x0D
def errRemoteTimeout : Nat := 0x0E
def errPcieTimeout : Nat := 0x0F
def errEpochRetry : Nat := 0x10
def errLinkDown : Nat := 0x11
def errBusy : Nat := 0x12

/-! Unit state. -/

/-- FENCED of a unit (R18). -/
def Dev.fenced (d : Dev) (uid : Nat) : Bool := d.flag uid 0x8 4
/-- POWER of a unit: 0 Run, 1 Doze, 2 Nap, 3 Hold, 4 Off. -/
def Dev.power (d : Dev) (uid : Nat) : Nat := d.fld uid 0x8 8 3
/-- ROLE of a unit: 0 active, 1 spare, 2 disabled. -/
def Dev.role (d : Dev) (uid : Nat) : Nat := d.fld uid 0x8 0 2
/-- Set POWER of a unit. -/
def Dev.setPower (d : Dev) (uid p : Nat) : Dev := d.setFld uid 0x8 8 3 p
/-- Set ROLE of a unit. -/
def Dev.setRole (d : Dev) (uid r : Nat) : Dev := d.setFld uid 0x8 0 2 r
/-- The active instance, 0 or 1, of a unit that both hubs hold (R41, R395): that of hub 0 unless it is fenced. -/
def Dev.activeHub (d : Dev) (ty : Nat) : Nat := if d.fenced (mkUid 4 0 15 ty 0) then 1 else 0

/-! Event sources (R397-R400). -/

/-- Offset of EV_SRC[n]. -/
def offEvSrc (n : Nat) : Nat := 0x4000 + 8 * n

/-- An active edge of an edge source sets PEND; a pending one absorbs it (R399). Level sources are not changed. -/
def Dev.raiseEdge (d : Dev) (n : Nat) : Dev :=
  if d.flag (evcUid 0) (offEvSrc n) 1 then d else d.setFlag (evcUid 0) (offEvSrc n) 40 true

/-- A level source becomes active or inactive (R400). -/
def Dev.setLevel (d : Dev) (n : Nat) (on : Bool) : Dev :=
  { d with evLevel := if on then (if d.evLevel.contains n then d.evLevel else n :: d.evLevel)
                      else d.evLevel.filter (fun m => m != n) }

/-- A condition at a source of programmable sensing: an edge or a level as SENSE says. DEDUCED, log entry 16. -/
def Dev.raiseSource (d : Dev) (n : Nat) (on : Bool) : Dev :=
  if d.flag (evcUid 0) (offEvSrc n) 1 then d.setLevel n on else if on then d.raiseEdge n else d

/-! Error records (R698-R703). -/

/-- An error record that a unit raises: code, severity 1-4, ERR_ADDR, related unit and partition. -/
structure Rec where
  code : Nat
  sev : Nat
  addr : Nat
  related : Nat
  part : Option Nat

/-- A record with no related unit and no partition. -/
def Rec.plain (code sev addr : Nat) : Rec := ⟨code, sev, addr, 0xFFFF, none⟩

/-- Whether Crumble acts in a unit: unlocked and enabled (R729, R731). -/
def Dev.crumbling (d : Dev) (uid : Nat) : Bool := d.flag uid 0x3000 0 && d.flag uid 0x3000 1

/-- Write every field of a unit's record page, keeping OVERFLOW and CNT as given (R699). DEDUCED, log entry 47. -/
def Dev.writeRecord (d : Dev) (uid : Nat) (r : Rec) (ovf : Bool) (cnt : Nat) (rehearsal : Bool) : Dev :=
  let st := 1 + at_ r.sev 1 3 + at_ ovf.toNat 4 1 + at_ rehearsal.toNat 5 1 + at_ cnt 16 16
  let cd := at_ r.code 0 16 + at_ r.related 16 16 +
    (match r.part with | some p => at_ p 32 8 + 2 ^ 40 | none => 0)
  (((d.setReg uid 0x2000 (BitVec.ofNat 64 st)).setReg uid 0x2008 (BitVec.ofNat 64 cd)).setReg uid 0x2010
    (BitVec.ofNat 64 r.addr)).setReg uid 0x2018 (BitVec.ofNat 64 d.dt)

/-- The record page after a record arrives: written when free; else OVERFLOW is set, CNT counts, and a higher
severity replaces the held record (R699). -/
def Dev.holdRecord (d : Dev) (uid : Nat) (r : Rec) (rehearsal : Bool) : Dev :=
  if d.flag uid 0x2000 0 then
    let cnt := satInc (d.fld uid 0x2000 16 16) 16
    if d.fld uid 0x2000 1 3 < r.sev then d.writeRecord uid r true cnt rehearsal
    else (d.setFlag uid 0x2000 4 true).setFld uid 0x2000 16 16 cnt
  else d.writeRecord uid r false 1 rehearsal

/-- An entry is lost: LOST counts it, and when LOST first becomes nonzero the log raises 0x0704 (R725).
DEDUCED, log entry 48. -/
def Dev.logLost (d : Dev) : Dev :=
  let d1 := d.incFld hbUid 0xC000 32 16
  if d.fld hbUid 0xC000 32 16 = 0 then
    (d1.holdRecord hbUid (Rec.plain 0x0704 2 1) false).raiseEdge (0xA00 + 4 * 4 + 1)
  else d1

/-- A record of severity fenced or device joins its control's queue for the log; a full queue of 32 loses it and
counts it in LOST (R700, R724, R725). DEDUCED, log entry 47. -/
def Dev.queueLog (d : Dev) (uid : Nat) (r : Rec) (rehearsal : Bool) : Dev :=
  if r.sev < 3 then d
  else if 32 ≤ (d.logQ.filter (fun e => e.die == uidDie uid)).length then d.logLost
  else { d with logQ := d.logQ ++ [⟨uidDie uid, uid, r.sev, rehearsal, r.part, r.code, r.addr, d.dt⟩] }

/-- A record of severity contained or above that is no rehearsal's: noted for R735, and it aborts a rehearsal in progress
(R737). -/
def Dev.noteReal (d : Dev) (r : Rec) (rehearsal : Bool) : Dev :=
  if r.sev < 2 ∨ rehearsal then d
  else
    let rh := d.sv.rh
    { d with sv := { d.sv with realAt := d.dt + 1,
                               rh := { rh with abort := if rh.step = 0 ∨ rh.abort ≠ 0 then rh.abort else r.code % 256 + 1 } } }

/-- Raise an error record in a unit: its record page, the event source of R700 and the log queue. -/
def Dev.raise (d : Dev) (uid : Nat) (r : Rec) : Dev :=
  let reh := d.crumbling uid
  (((d.holdRecord uid r reh).raiseEdge (0xA00 + 4 * uidDie uid + (r.sev - 1))).queueLog uid r reh).noteReal r reh

/-! Halted cores. -/

/-- Whether a debugger holds a core halted (CDBG_STAT.HALTED). -/
def Dev.halted (d : Dev) (c : Nat) : Bool := d.flag (coreUid c) 0xF010 0

/-- The halt of a core ends: REASON returns to 0 and nothing of a step is left (R756). -/
def Dev.endHalt (d : Dev) (c : Nat) : Dev :=
  let d1 := d.setFld (coreUid c) 0xF010 0 6 0
  { d1 with db := { d1.db with haltAt := SMap.erase d1.db.haltAt c, stepping := SMap.erase d1.db.stepping c,
                               skipCmp := d1.db.skipCmp.filter (fun x => x != c) } }

/-! Loops over small ranges. -/

/-- Apply `f 0`, `f 1`, … `f (n − 1)` in order. -/
def forUpto (n : Nat) (f : Nat → Dev → Dev) (d : Dev) : Dev :=
  (List.range n).foldl (fun d i => f i d) d

/-- Apply `f x` for each element in order. -/
def forAll {α : Type} (xs : List α) (f : α → Dev → Dev) (d : Dev) : Dev := xs.foldl (fun d x => f x d) d

/-- Apply `f` to every core. -/
def Dev.mapCores (d : Dev) (f : Nat → Core → Core) : Dev :=
  { d with cores := d.cores.mapFinIdx (fun i k _ => f i k) }

/-- The first number below `n` that passes `p`. -/
def firstUpto (n : Nat) (p : Nat → Bool) : Option Nat := (List.range n).find? p

end Sys2Proof.Machine
end

