-- ==== Sys2Proof/Machine/Trelub.lean ====
section
/-!
DEFINITION. Trelub links: frames, link sequence numbers, replay, scheduling and routing (R527-R543).
-/
namespace Sys2Proof.Machine

/-! Ports and links (R514, R515). -/

/-- State of a link or port. -/
def Dev.link (d : Dev) (l : Nat) : LinkSt := SMap.get (fun _ => LinkSt.initial) d.nt.links l
/-- Change the state of a link. -/
def Dev.modLink (d : Dev) (l : Nat) (f : LinkSt → LinkSt) : Dev :=
  { d with nt := { d.nt with links := SMap.set (fun _ => LinkSt.initial) d.nt.links l (f (d.link l)) } }

/-- Lanes of a quad at which a port or link begins, for a MODE and a TWIDTH (Table 12-1). -/
def firstLanes (mode tw : Nat) : List Nat :=
  match mode with
  | 1 => [0]
  | 2 => [0, 2]
  | 3 | 4 | 5 => [0, 1, 2, 3]
  | 6 => (match tw with | 0 => [0, 1, 2, 3] | 1 => [0, 2] | _ => [0])
  | _ => []

/-- LQ_CFG of the quad of a link. -/
def Dev.lqCfg (d : Dev) (l : Nat) : Word := d.reg (quadUid (l / 4)) 0x4000
/-- Offset of LQ_LINK of a link. -/
def offLink (l : Nat) : Nat := 0x4040 + 8 * (l % 4)
/-- STATE of a link: 0 down, 1 training, 2 identifying, 3 measuring, 4 up, 5 refused. -/
def Dev.linkState (d : Dev) (l : Nat) : Nat := d.fld (quadUid (l / 4)) (offLink l) 32 3
/-- Whether a link number begins a port or link in its quad's mode. -/
def Dev.isLink (d : Dev) (l : Nat) : Bool :=
  decide (l < 40) && (firstLanes (bits (d.lqCfg l) 0 3) (bits (d.lqCfg l) 3 2)).contains (l % 4)
/-- Whether a link number is a Trelub link. -/
def Dev.isTrelub (d : Dev) (l : Nat) : Bool := d.isLink l && bits (d.lqCfg l) 0 3 == 6
/-- Lanes of a Trelub link. -/
def Dev.linkWidth (d : Dev) (l : Nat) : Nat := match bits (d.lqCfg l) 3 2 with | 0 => 1 | 1 => 2 | _ => 4
/-- Whether a Trelub link is up. -/
def Dev.linkUp (d : Dev) (l : Nat) : Bool := d.isTrelub l && d.linkState l == 4
/-- An event of a quad or management port (Table 12-2). -/
def Dev.quadEvent (d : Dev) (q n : Nat) : Dev := d.raiseEdge (0x980 + 8 * q + n)
/-- Own device ID. -/
def Dev.ownId (d : Dev) : Nat := d.fld (hubUid 0) 0x8000 0 12

/-! Frames (R528). -/

/-- A frame without its link fields: class, type, DIR, LAST, HOPS, source, destination, RSEQ and payload.
DESIGN CHOICE, log entry 60. -/
structure TFrame where
  cls : Nat
  ty : Nat
  dir : Nat
  last : Nat
  hops : Nat
  src : Nat
  dst : Nat
  rseq : Nat
  body : List Byte

/-- The 256 bytes of a frame with its LSEQ and LACK. DESIGN CHOICE, log entry 60. -/
def TFrame.bytes (f : TFrame) (lseq lack : Nat) : List Byte :=
  let b := natLe 1 (f.cls + 8 * f.ty) ++ natLe 1 (f.dir + 2 * f.last + 4 * (f.hops % 64)) ++ natLe 2 lseq ++ natLe 2 lack ++
    natLe 2 f.src ++ natLe 2 f.dst ++ natLe 2 f.body.length ++ natLe 4 f.rseq ++
    (f.body ++ List.replicate 236 0).take 236
  b ++ natLe 4 (crc32c b)

/-- The frame that 256 bytes spell. -/
def parseFrame (b : List Byte) : TFrame :=
  let x (o n : Nat) : Nat := leNat ((b.drop o).take n)
  ⟨x 0 1 % 8, x 0 1 / 8, x 1 1 % 2, x 1 1 / 2 % 2, x 1 1 / 4, x 6 2 % 4096, x 8 2 % 4096, x 12 4,
    (b.drop 16).take (min 236 (x 10 2))⟩

/-- Whether a class and type are listed in Table 12-6. -/
def frameTypeOk (c t : Nat) : Bool :=
  match c with
  | 0 => decide (t ≤ 1) | 1 => t == 0 | 2 => decide (t ≤ 4) | 3 => decide (t ≤ 3) | 4 => decide (t ≤ 7) | _ => false

/-- A frame leaves on a link: idle frames take no number, every other is numbered and kept for replay (R533).
DESIGN CHOICE, log entry 55. -/
def Dev.frameOut (d : Dev) (l : Nat) (f : TFrame) : Dev :=
  let k := d.link l
  let b := f.bytes k.next k.expect
  let d1 := { d with sent := d.sent ++ [.frame l b d.dt] }
  if f.cls = 4 ∧ f.ty = 0 then d1
  else d1.modLink l (fun k => { k with next := (k.next + 1) % 65536, replay := k.replay ++ [(k.next, b)] })

/-- The class served at a place of the pattern of 16 frames, then the order in which an idle turn is yielded (R530). -/
def turnClasses (t : Nat) : List Nat :=
  match t with
  | 0 => [4, 0, 1, 3, 2]
  | 1 => [3, 0, 1, 4, 2]
  | 2 => [2, 0, 1, 4, 3]
  | 3 => [2, 0, 1, 4, 3]
  | _ => if t % 2 = 0 then [0, 1, 4, 3, 2] else [1, 0, 4, 3, 2]

/-- Send frames that waited for room in the replay buffer, by the pattern of R530. -/
def Dev.linkDrain (d : Dev) (l : Nat) : Nat → Dev
  | 0 => d
  | n + 1 =>
    let k := d.link l
    if 512 ≤ k.replay.length then d
    else match (turnClasses k.turn).findSome? (fun c => k.waiting.find? (fun b => (parseFrame b).cls == c)) with
      | none => d
      | some b =>
        ((d.modLink l (fun k => { k with waiting := k.waiting.erase b, turn := (k.turn + 1) % 16 })).frameOut l (parseFrame b)).linkDrain l n

/-- Hand a frame to a link: sent at once, or held while the replay buffer is full; a link that is down takes none. -/
def Dev.linkSend (d : Dev) (l : Nat) (f : TFrame) : Dev :=
  if d.linkUp l = false then d
  else (d.modLink l (fun k => { k with waiting := k.waiting ++ [f.bytes 0 0] })).linkDrain l 1

/-! Routes (R540-R542). -/

/-- The routing entry of a device. DEDUCED, log entry 61. -/
def Dev.route (d : Dev) (dst : Nat) : Word := SMap.get (fun _ => (0x1F80 : Word)) d.routes dst
/-- Store a routing entry. -/
def Dev.setRoute (d : Dev) (dst : Nat) (v : Word) : Dev :=
  { d with routes := SMap.set (fun _ => (0x1F80 : Word)) d.routes dst v }
/-- First-hop link of a direction (0 primary, 1 secondary). -/
def routeLink (v : Word) (dir : Nat) : Nat := if dir = 0 then bits v 1 6 else bits v 7 6
/-- Whether a direction of a route may carry a class. -/
def Dev.routeOk (d : Dev) (dst dir cls : Nat) : Bool :=
  let v := d.route dst
  bit v 0 && bit v ((if dir = 0 then 50 else 55) + cls) && d.linkUp (routeLink v dir)

/-- The directions that a unit of a class takes: both in a ring for Mirror and Audio, otherwise the primary, or the
secondary when the primary cannot carry it. -/
def Dev.routeDirs (d : Dev) (dst cls : Nat) : List Nat :=
  let ok := [0, 1].filter (fun x => d.routeOk dst x cls)
  if bit (d.route dst) 13 ∧ cls ≤ 1 then ok else ok.take 1

/-- Cut a unit into payloads of at most 236 bytes. -/
def segments : Nat → List Byte → List (List Byte)
  | 0, _ => []
  | n + 1, bs => if bs.length ≤ 236 then [bs] else bs.take 236 :: segments n (bs.drop 236)

/-- Send a unit to a device: one RSEQ for its class and destination, one frame for each segment, in every direction that it
takes. Whether some direction carries it is the second result. -/
def Dev.trelubUnit (d : Dev) (dst cls ty : Nat) (unit : List Byte) : Dev × Bool :=
  let key := 8 * dst + cls
  let r := SMap.get (fun _ => 0) d.nt.rseq key
  let d0 := { d with nt := { d.nt with rseq := SMap.set (fun _ => 0) d.nt.rseq key ((r + 1) % 2 ^ 32) } }
  let dirs := d.routeDirs dst cls
  let segs := segments (unit.length / 236 + 1) unit
  let d1 := forAll dirs (fun dir d =>
    let v := d.route dst
    let hops := (if dir = 0 then bits v 14 6 else bits v 20 6) - 1
    (segs.zipIdx.foldl (fun d x =>
      d.linkSend (routeLink v dir) ⟨cls, ty, dir, if x.2 + 1 = segs.length then 1 else 0, hops, d.ownId, dst, r, x.1⟩) d)) d0
  (d1, !dirs.isEmpty)

/-- Delay of the own first-hop link: the larger of the declared and the measured one (R538, R542). -/
def Dev.linkDelay (d : Dev) (l : Nat) : Nat :=
  max (d.fld (quadUid (l / 4)) (offLink l) 0 16) (d.fld (quadUid (l / 4)) (offLink l) 48 16)

/-- Cable sum of a direction in ns: what the advertisements give, or the declared sum with the own link's excess. `none`:
a link on it is down. DEDUCED, log entry 61. -/
def Dev.pathSum (d : Dev) (dst dir : Nat) : Option Nat :=
  let v := d.route dst
  let l := routeLink v dir
  let decl := 8 * (if dir = 0 then bits v 26 12 else bits v 38 12)
  match SMap.get (fun _ => 0) d.nt.adv (2 * dst + dir) with
  | 0 => some (decl + (d.linkDelay l - d.fld (quadUid (l / 4)) (offLink l) 0 16))
  | x + 1 => if x = 2 ^ 32 then none else some (max decl x)

/-- The latency check of one class in one direction (R48, R542). -/
def Dev.classOk (d : Dev) (dst dir cls : Nat) : Bool :=
  let v := d.route dst
  let bound := 10 * d.fld (hubUid 0) 0x8008 (12 * cls) 12
  let hops := if dir = 0 then bits v 14 6 else bits v 20 6
  bit v 0 && decide (bound ≠ 0) && decide (hops ≠ 0) && d.linkUp (routeLink v dir) &&
    (match d.pathSum dst dir with | some x => decide (240 * hops + x ≤ bound) | none => false)

/-- Repeat the check of a route (R542). When a class that had a direction has none left, the quad of the primary link
raises source 2. -/
def Dev.checkRoute (d : Dev) (dst : Nat) : Dev :=
  let v := d.route dst
  let mask (dir : Nat) : Nat := (List.range 5).foldl (fun m c => if d.classOk dst dir c then m + 2 ^ c else m) 0
  let p := mask 0; let s := mask 1
  let was := bits v 50 5 ||| bits v 55 5
  let d1 := d.setRoute dst (setBits (setBits v 50 5 p) 55 5 s)
  if was &&& (31 - (p ||| s)) ≠ 0 then d1.quadEvent (bits v 1 6 / 4) 2 else d1

/-- Repeat the check of every route. -/
def Dev.checkRoutes (d : Dev) : Dev := forAll (d.routes.map (·.1)) (fun dst d => d.checkRoute dst) d

/-- A link or port goes down (R536, R539): held frames are discarded, source 1 is raised when it was up, and every route
stops using it. -/
def Dev.linkDown (d : Dev) (l : Nat) : Dev :=
  let u := quadUid (l / 4)
  let was := d.linkState l
  let d1 := (d.setFld u (offLink l) 32 3 0).modLink l (fun k => { LinkSt.initial with failed := k.failed, unc := k.unc })
  if was = 4 then (d1.checkRoutes).quadEvent (l / 4) 1 else d1

/-- A link or port comes up. DEDUCED, log entry 63. -/
def Dev.linkRise (d : Dev) (l : Nat) : Dev :=
  ((d.setFld (quadUid (l / 4)) (offLink l) 32 3 4).checkRoutes).quadEvent (l / 4) 0

/-- An uncorrectable FEC codeword on a port: counted, and the 256th within 1 ms raises source 3 (R518). -/
def Dev.fecError (d : Dev) (l : Nat) : Dev :=
  let u := quadUid (l / 4)
  let recent := d.dt :: (d.link l).unc.filter (fun t => decide (d.dt ≤ t + 1000000))
  let d1 := (d.incFld u (0x4080 + 8 * (l % 4)) 24 16).modLink l (fun k => { k with unc := recent })
  if recent.length = 256 then d1.quadEvent (l / 4) 3 else d1

/-- LINKERR of a port counts `n` more. -/
def Dev.linkErr (d : Dev) (l n : Nat) : Dev :=
  let u := quadUid (l / 4); let a := 0x4080 + 8 * (l % 4)
  d.setFld u a 40 16 (min 0xFFFF (d.fld u a 40 16 + n))

/-- Send the acknowledge of a message that came from a far proxy back to it (R545). -/
def Dev.relayAck (d : Dev) (m code : Nat) : Dev :=
  match SMap.get (fun _ => 0) d.nt.relayed m with
  | 0 => d
  | x + 1 =>
    let d1 := { d with nt := { d.nt with relayed := SMap.set (fun _ => 0) d.nt.relayed m 0 } }
    (d1.trelubUnit (x / 16) 3 3 (natLe 1 (x % 16) ++ natLe 4 code)).1

end Sys2Proof.Machine
end

