-- ==== Sys2Proof/Machine/Trace.lean ====
section
/-!
DEFINITION. Trace: packets, funnels, drops and triggers (R773-R783). The sinks follow in TraceSink.
-/
namespace Sys2Proof.Machine

/-- The funnel that a unit's packets enter: that of its region, or of its hub (R773). -/
def funnelOf (u : Nat) : Nat := if uidDie u < 4 then 2 * uidDie u + uidRegion u else 4 + uidDie u

/-- TRC_SRC of a unit. -/
def Dev.trcSrc (d : Dev) (u : Nat) : Word := d.reg u 0xF800
/-- Offset of TS_CTL[k]; TS_BASE, TS_PTR, TS_TRIG, TS_DROP and TS_TDT follow it. -/
def offTs (k : Nat) : Nat := 0x7000 + 64 * k
/-- TS_CTL of a session. -/
def Dev.tsCtl (d : Dev) (k : Nat) : Word := d.reg dbgUid (offTs k)

/-- Whether a session accepts packets formed now (R782). DEDUCED, log entry 66. -/
def Dev.sessionOpen (d : Dev) (k : Nat) : Bool :=
  let c := d.tsCtl k
  bit c 0 && !bit c 13 && !d.tr.closing.contains k &&
    (!bit c 12 || decide (d.dt < (d.reg dbgUid (offTs k + 0x28)).toNat + 1000 * d.fld dbgUid (offTs k + 0x18) 0 24))

/-- The 16 bytes of a packet (Table 18-7). -/
def tracePacket (ty cls u dt payload : Nat) : List Byte :=
  natLe 1 ty ++ natLe 1 cls ++ natLe 2 u ++ natLe 4 (dt / 8 % 2 ^ 32) ++ natLe 8 payload

/-- The FIFO of a funnel. -/
def Dev.funnel (d : Dev) (f : Nat) : List TracePkt := SMap.get (fun _ => []) d.tr.fifo f
/-- Replace the FIFO of a funnel. -/
def Dev.setFunnel (d : Dev) (f : Nat) (q : List TracePkt) : Dev :=
  { d with tr := { d.tr with fifo := SMap.set (fun _ => []) d.tr.fifo f q } }

/-- Drops of a session in a funnel since its latest marker. -/
def Dev.dropCount (d : Dev) (f k c : Nat) : Nat := SMap.get (fun _ => 0) d.tr.drops (64 * f + 4 * k + c)
/-- Set the drop count of a session and class in a funnel. -/
def Dev.setDrop (d : Dev) (f k c n : Nat) : Dev :=
  { d with tr := { d.tr with drops := SMap.set (fun _ => 0) d.tr.drops (64 * f + 4 * k + c) n } }

/-- A packet reaches a funnel: accepted, behind a drop marker where one is owed, or dropped and counted (R779, R780). -/
def Dev.funnelIn (d : Dev) (f k c : Nat) (b : List Byte) : Dev :=
  let q := d.funnel f
  if 64 * (c + 1) ≤ q.length then
    let a := offTs k + 0x20
    (d.setDrop f k c (min 0xFFFF (d.dropCount f k c + 1))).setFld dbgUid a (16 * c) 16 (satInc (d.fld dbgUid a (16 * c) 16) 16)
  else
    let n := (List.range 4).map (d.dropCount f k)
    let marker : List TracePkt := if n.all (· == 0) then [] else
      [⟨k, 3, tracePacket 0x11 3 (funnelUid f) d.dt (n.getD 0 0 + 2 ^ 16 * n.getD 1 0 + 2 ^ 32 * n.getD 2 0 + 2 ^ 48 * n.getD 3 0)⟩]
    let d1 := if n.all (· == 0) then d else forUpto 4 (fun c d => d.setDrop f k c 0) d
    d1.setFunnel f (q ++ marker ++ [⟨k, c, b⟩])

/-- A source emits a packet for the partition whose work it observes; nothing while it is disabled or its session does
not take it (R773, R774). -/
def Dev.traceEmit (d : Dev) (u ty payload : Nat) (part : Option Nat) : Dev :=
  let t := d.trcSrc u
  if bit t 0 = false then d
  else
    let k := bits t 3 4; let c := bits t 1 2
    let p := bits (d.tsCtl k) 2 8
    if d.sessionOpen k && part == some p then d.funnelIn (funnelOf u) k c (tracePacket ty c u d.dt payload) else d

/-- The partition of a core as a trace source sees it. -/
def Dev.tracePart (d : Dev) (c : CoreId) : Option Nat := if (d.core c).placed then some (d.core c).part else none

/-- A resync packet that a core owes goes ahead of its next flow packet (R783). -/
def Dev.traceResync (d : Dev) (c : CoreId) : Dev :=
  if d.tr.resync.contains c.val then
    ({ d with tr := { d.tr with resync := d.tr.resync.filter (fun x => x != c.val) } }).traceEmit (coreUid c) 0x14
      ((d.core c).pc.toNat % 2 ^ 48 + 2 ^ 48 * bits (d.core c).sAsid 0 12) (d.tracePart c)
  else d

/-- A flow packet of a core: target and kind, with the branches not taken since the one before. -/
def Dev.traceFlow (d : Dev) (c : CoreId) (target : Word) (kind : Nat) : Dev :=
  if bit (d.trcSrc (coreUid c)) 0 = false then d
  else
    let n := SMap.get (fun _ => 0) d.tr.skipped c
    let d1 := (d.traceResync c).traceEmit (coreUid c) 0x01 (target.toNat % 2 ^ 48 + 2 ^ 48 * n + 2 ^ 56 * kind) (d.tracePart c)
    { d1 with tr := { d1.tr with skipped := SMap.set (fun _ => 0) d1.tr.skipped c 0 } }

/-- A conditional branch not taken: counted, with a count-only packet when the count would pass 255. -/
def Dev.traceSkip (d : Dev) (c : CoreId) : Dev :=
  if bit (d.trcSrc (coreUid c)) 0 = false then d
  else
    let d1 := if SMap.get (fun _ => 0) d.tr.skipped c = 255 then d.traceFlow c 0 7 else d
    { d1 with tr := { d1.tr with skipped := SMap.set (fun _ => 0) d1.tr.skipped c (SMap.get (fun _ => 0) d1.tr.skipped c + 1) } }

/-- A data packet of a core with DATA = 1: virtual address, log2 of the size, load or store. -/
def Dev.traceData (d : Dev) (c : CoreId) (va : Nat) (lg : Nat) (store : Bool) : Dev :=
  if bit (d.trcSrc (coreUid c)) 7 then
    d.traceEmit (coreUid c) 0x02 (va % 2 ^ 48 + 2 ^ 48 * lg + 2 ^ 52 * store.toNat) (d.tracePart c)
  else d

/-- A power packet of a core: the state entered. -/
def Dev.tracePower (d : Dev) (c : CoreId) (p : Nat) : Dev := d.traceEmit (coreUid c) 0x13 p (d.tracePart c)

/-- Each funnel writes a packet for a session. -/
def Dev.traceAllFunnels (d : Dev) (k ty payload : Nat) : Dev :=
  forUpto 10 (fun f d => d.funnelIn f k 3 (tracePacket ty 3 (funnelUid f) d.dt payload)) d

/-- TRACE_TRIGGER (R781): an armed session that runs takes its first trigger: DT_trig, and a trigger packet. -/
def Dev.traceTrigger (d : Dev) (k : Nat) : Dev :=
  if d.flag dbgUid (offTs k + 0x18) 24 && d.sessionOpen k && !bit (d.tsCtl k) 12 then
    let d1 := ((d.setReg dbgUid (offTs k + 0x28) (BitVec.ofNat 64 d.dt)).setFlag dbgUid (offTs k) 12 true).setFlag dbgUid
      (offTs k + 0x18) 24 false
    d1.funnelIn 8 k 3 (tracePacket 0x12 3 (funnelUid 8) d.dt d.dt)
  else d

/-- A comparator of a core with ACT = 1 hits: the trigger of the core's session (R758, R781). -/
def Dev.traceCompare (d : Dev) (c : CoreId) : Dev :=
  let t := d.trcSrc (coreUid c)
  if bit t 0 && d.fld dbgUid (offTs (bits t 3 4) + 0x18) 26 2 == 1 then d.traceTrigger (bits t 3 4) else d

end Sys2Proof.Machine
end

