-- ==== Sys2Proof/Machine/Mem.lean ====
section
/-!
DEFINITION. The SDRAM channels (R356-R370, R387): address decoding, the codeword and its error classes, reads, writes,
mirroring and sparing.
-/
namespace Sys2Proof.Machine

/-- A sector of 64 bytes; byte k stands in bits [8k + 7 : 8k]. -/
abbrev Sector := BitVec 512

/-- Bytes [lo, lo + n) of a sector. -/
def secBytes (s : Sector) (lo : Nat) : Nat → List Byte
  | 0 => []
  | n + 1 => byteOf s lo :: secBytes s (lo + 1) n

/-- A sector with the bytes from `lo` on replaced. -/
def secWrite (s : Sector) (lo : Nat) : List Byte → Sector
  | [] => s
  | b :: bs => secWrite (setBits s (8 * lo) 8 b.toNat) (lo + 1) bs

/-! Memory ranges (R356). The keeper writes the same ranges to both hubs; hub 0's copy decodes. -/

/-- Offset of MEM_RANGE_BASE[n]; MEM_RANGE_ATTR[n] follows it. -/
def offRange (n : Nat) : Nat := 0x6000 + 16 * n

/-- First address of memory range `n`. -/
def Dev.rangeBase (d : Dev) (n : Nat) : Nat := d.fld (hubUid 0) (offRange n) 30 18 * 2 ^ 30

/-- Size of memory range `n` in bytes. -/
def Dev.rangeSize (d : Dev) (n : Nat) : Nat := d.fld (hubUid 0) (offRange n + 8) 16 12 * 2 ^ 30

/-- The lowest enabled range that contains an address. -/
def Dev.rangeOf (d : Dev) (pa : Nat) : Option Nat :=
  firstUpto 16 (fun n => d.flag (hubUid 0) (offRange n) 0 && decide (d.rangeBase n ≤ pa) &&
    decide (pa < d.rangeBase n + d.rangeSize n))

/-- Channel and channel-local address of an SDRAM address within range `n` (R356). -/
def Dev.decodeIn (d : Dev) (n pa : Nat) : Nat × Nat :=
  let u := hubUid 0; let a := offRange n + 8
  let chans := (List.range 12).filter (fun c => d.flag u a c)
  let g := if d.flag u a 12 then 12 else 8
  let off := pa - d.rangeBase n
  let blk := off / 2 ^ g
  let k := chans.length
  (chans.getD (blk % k) 0, d.fld u a 30 8 * 2 ^ 30 + (blk / k) * 2 ^ g + off % 2 ^ g)

/-- Whether range `n` is mirrored. -/
def Dev.mirrored (d : Dev) (n : Nat) : Bool := d.flag (hubUid 0) (offRange n + 8) 13

/-! Places in a channel (R358). -/

/-- Number of row bits above bit 19 of a channel-local address. -/
def Dev.rowTop (d : Dev) (ch : Nat) : Nat := if d.flag (mcUid ch) 0x4000 6 then 36 else 35

/-- Rank that a channel-local address selects. -/
def Dev.rankOf (d : Dev) (ch l : Nat) : Nat := l / 2 ^ d.rowTop ch % 4

/-- Subchannel that a channel-local address selects. -/
def subchOf (l : Nat) : Nat := l / 64 % 2

/-- A channel-local address with its rank replaced. -/
def Dev.withRank (d : Dev) (ch l rank : Nat) : Nat :=
  l % 2 ^ d.rowTop ch + rank * 2 ^ d.rowTop ch

/-- The place at which an address is read: a spared rank lies on the spare rank once SPARE_STATE is "in use" (R370). -/
def Dev.physOf (d : Dev) (ch l : Nat) : Nat :=
  let u := mcUid ch
  if d.fld u 0x4000 13 2 = 2 ∧ d.rankOf ch l = d.fld u 0x4000 15 2 then d.withRank ch l (d.fld u 0x4000 8 2) else l

/-- Places that a write reaches: while a rank is being copied, writes to it go to both ranks (R370). -/
def Dev.writePlaces (d : Dev) (ch l : Nat) : List Nat :=
  let u := mcUid ch
  if d.fld u 0x4000 13 2 = 1 ∧ d.rankOf ch l = d.fld u 0x4000 10 2 then [l, d.withRank ch l (d.fld u 0x4000 8 2)]
  else [d.physOf ch l]

/-- Index m of MC_MARK for an address: 2 × rank + subchannel. -/
def Dev.markIx (d : Dev) (ch l : Nat) : Nat := 2 * d.rankOf ch l + subchOf l

/-- Storage key of a byte of a channel. -/
def sdKey (ch l : Nat) : Nat := ch * 2 ^ 38 + l
/-- Key of the error positions of a codeword. -/
def cwKey (ch l : Nat) : Nat := ch * 2 ^ 32 + l / 64
/-- Key of a correction count (R367). -/
def cntKey (ch m dev : Nat) : Nat := (ch * 8 + m) * 16 + dev

/-! Error classes (R359-R363, R705-R706). -/

/-- Device that drives a transfer position. -/
def posDev (p : Nat) : Nat := p % 40 / 4

/-- Symbol (device × 8 + row) that a transfer position belongs to. -/
def posSym (p : Nat) : Nat := posDev p * 8 + p / 80

/-- Transfer position of bit b of check symbol i: symbol i mod 8 of device 8 + i div 8 (R360). -/
def checkPos (i b : Nat) : Nat := 40 * (2 * (i % 8) + b / 4) + 4 * (8 + i / 8) + b % 4

/-- The positions of the poison pattern: 0x96 in each of the 16 check symbols (R705). -/
def poisonPositions : List Nat :=
  (List.range 640).filter (fun p => decide (8 ≤ posDev p) && (List.range 16).any (fun i =>
    [1, 2, 4, 7].any (fun b => checkPos i b == p)))

/-- What the decoder makes of a pattern of wrong positions. `corrected` carries the one device that holds every
wrong symbol, if one does, and whether a wrong symbol lies outside the marked device. -/
inductive EccClass where
  | clean
  | poisoned
  | corrected (dev : Option Nat) (outside : Bool)
  | uncorrectable
  deriving DecidableEq, Repr

/-- The one device of all positions, if there is one. -/
def oneDev : List Nat → Option Nat
  | [] => none
  | p :: ps => if ps.all (fun q => posDev q == posDev p) then some (posDev p) else none

/-- All positions lie within 28 consecutive positions. -/
def inBurst (ps : List Nat) : Bool :=
  match ps.min?, ps.max? with
  | some a, some b => decide (b - a ≤ 27)
  | _, _ => true

/-- Remove repeats from a list of numbers. -/
def dedupNat (xs : List Nat) : List Nat :=
  xs.foldr (fun x acc => if acc.contains x then acc else x :: acc) []

/-- Classify an error pattern (R361, R363, R706). -/
def eccClass (errs : List Nat) (mark : Option Nat) : EccClass :=
  if errs = [] then .clean
  else if errs = poisonPositions then .poisoned
  else match mark with
  | none => if (oneDev errs).isSome || inBurst errs then .corrected (oneDev errs) true else .uncorrectable
  | some m =>
    let out := errs.filter (fun p => posDev p != m)
    if (dedupNat (out.map posSym)).length ≤ 4 then .corrected (oneDev errs) (decide (out ≠ [])) else .uncorrectable

/-- The marked device of an address's rank and subchannel. -/
def Dev.markOf (d : Dev) (ch l : Nat) : Option Nat :=
  let a := 0x4200 + 8 * d.markIx ch l
  if d.flag (mcUid ch) a 0 then some (d.fld (mcUid ch) a 1 4) else none

/-- The MC_LAST_UE layout for an address and a source. -/
def Dev.ueWord (d : Dev) (ch l src : Nat) : Nat :=
  at_ (l / 64) 6 32 + at_ (d.rankOf ch l) 38 2 + at_ (subchOf l) 40 1 + at_ src 41 2

/-- Count a correction that lay wholly in one device, and mark the device when the count reaches THR and the rank and
subchannel has none marked (R367). -/
def Dev.countCorrection (d : Dev) (ch l dev : Nat) : Dev :=
  let u := mcUid ch; let m := d.markIx ch l; let a := 0x4200 + 8 * m
  let n := SMap.get (fun _ => 0) d.mcCount (cntKey ch m dev) + 1
  let d1 := { d with mcCount := SMap.set (fun _ => 0) d.mcCount (cntKey ch m dev) n }
  let d2 := if d.fld u a 16 16 < n then (d1.setFld u a 16 16 (min n 0xFFFF)).setFld u a 32 4 dev else d1
  let thr := d.fld u a 8 8
  if thr ≠ 0 ∧ thr ≤ n ∧ d.flag u a 0 = false then
    (((d2.setFlag u a 0 true).setFld u a 1 4 dev).setFlag u a 5 true).raise u
      (Rec.plain 0x0303 1 (at_ m 0 3 + at_ dev 4 4))
  else d2

/-- The data bytes of a codeword. -/
def Dev.cwData (d : Dev) (ch l : Nat) : Sector := BitVec.ofNat 512 (readLe d.sdram (sdKey ch l) 64)

/-- Store data, and the wrong positions of the codeword, at one place. -/
def Dev.cwStore (d : Dev) (ch l : Nat) (s : Sector) (errs : List Nat) : Dev :=
  { d with sdram := writeBytes d.sdram (sdKey ch l) (natLe 64 s.toNat),
           sdramErr := SMap.set (fun _ => []) d.sdramErr (cwKey ch l) errs }

/-- Whether a channel has initialised the block of an address (R387): STATE beyond untrained, and the block below
INIT_BLK. -/
def Dev.initialised (d : Dev) (ch l : Nat) : Bool :=
  decide (l / 2 ^ 30 < d.fld (mcUid ch) 0x4030 9 9) &&
    (d.fld (mcUid ch) 0x4030 0 2 == 1 || d.fld (mcUid ch) 0x4030 0 2 == 2)

/-- Read one codeword of one channel (R361-R365, R706). `src` is the SRC code of MC_LAST_UE; corrected codewords are
written back when `writeBack` holds. -/
def Dev.mcRead (d : Dev) (ch l src : Nat) (writeBack : Bool) : Dev × Except Nat Sector :=
  let u := mcUid ch; let p := d.physOf ch l
  if d.fenced u then (d, .error errFenced)
  else if d.initialised ch l = false then (d, .error errNotInit)
  else
    let data := d.cwData ch p
    match eccClass (SMap.get (fun _ => []) d.sdramErr (cwKey ch p)) (d.markOf ch l) with
    | .clean => (d, .ok data)
    | .poisoned => (d, .error errPoisoned)
    | .corrected dev outside =>
      let d1 := (d.incFld u 0x4020 0 24).raise u (Rec.plain 0x0301 1 (d.ueWord ch l src))
      let d2 := match dev with | some v => d1.countCorrection ch l v | none => d1
      let d3 := if writeBack && outside then d2.cwStore ch p data [] else d2
      (d3, .ok data)
    | .uncorrectable =>
      let d1 := (d.incFld u 0x4020 24 16).setReg u 0x4028 (BitVec.ofNat 64 (d.ueWord ch l src))
      (d1.raise u (Rec.plain 0x0302 2 (d.ueWord ch l src)), .error errUncorrectable)

/-- Wrong positions that CRB_ECC puts into the next write at CRB_ECC_ADDR, clearing ARM (R732). -/
def Dev.crumbleFlips (d : Dev) (u loc : Nat) : Dev × List Nat :=
  if d.crumbling u ∧ d.flag u 0x3020 27 ∧ d.fld u 0x3028 0 48 = loc then
    let f0 := if d.flag u 0x3020 10 then [d.fld u 0x3020 0 10] else []
    let f1 := if d.flag u 0x3020 26 ∧ f0 ≠ [d.fld u 0x3020 16 10] then [d.fld u 0x3020 16 10] else []
    let fs := match f0, f1 with
      | [a], [b] => if a < b then [a, b] else [b, a]
      | x, y => x ++ y
    ((d.setFlag u 0x3020 27 false).incFld u 0x3000 32 16, fs)
  else (d, [])

/-- Write a full codeword to one channel with new check symbols (R385), to every place that holds it. -/
def Dev.mcWrite (d : Dev) (ch l : Nat) (s : Sector) (errs : List Nat) : Dev × Except Nat Unit :=
  let u := mcUid ch
  if d.fenced u then (d, .error errFenced)
  else if d.initialised ch l = false then (d, .error errNotInit)
  else
    let (d1, fl) := d.crumbleFlips u (l / 64 * 64)
    let e := if fl = [] then errs else fl
    (forAll (d.writePlaces ch l) (fun p d => d.cwStore ch p s e) d1, .ok ())

/-- Whether a partition holds an enabled share entry of a channel and an address lies in a window of its record (R376).
DEDUCED, log entry 84. -/
def Dev.shareRead (d : Dev) (ch p pa : Nat) : Bool :=
  (List.range 32).any (fun i => d.flag (mcUid ch) (0x4100 + 8 * i) 0 && d.fld (mcUid ch) (0x4100 + 8 * i) 8 8 == p) &&
    d.kp.recs.any (fun r => r.part == p && r.wins.any (fun w => w.bases.any (fun b => decide (b ≤ pa) && decide (pa < b + 2 ^ w.size))))

/-- Trace of a channel (R774): for 1 in 2^SAMP reads of the partition's share entries, a memory packet with the read
latency, which is open. DEDUCED, log entry 84. -/
def Dev.traceRead (d : Dev) (ch pa : Nat) : Dev :=
  let t := d.trcSrc (mcUid ch); let p := bits t 8 8
  if bit t 0 && d.shareRead ch p pa then
    let n := SMap.get (fun _ => 0) d.tr.reads ch + 1
    let due := decide (2 ^ bits t 16 4 ≤ n)
    let d1 := { d with tr := { d.tr with reads := SMap.set (fun _ => 0) d.tr.reads ch (if due then 0 else n) } }
    if due then
      let (x, d2) := d1.draw
      d2.traceEmit (mcUid ch) 0x04 (x % 2 ^ 32 + 2 ^ 32 * ch) (some p)
    else d1
  else d

/-- Read a 64-byte sector of SDRAM at an aligned address, with the mirror retry and repair of R368 and the single
side of R369. DEDUCED, log entry 89. -/
def Dev.sdramRead (d0 : Dev) (pa src : Nat) : Dev × Except Nat Sector :=
  match d0.rangeOf pa with
  | none => (d0, .error errNoTarget)
  | some n =>
    let (ch, l) := d0.decodeIn n pa
    let d := if src = 0 then d0.traceRead ch pa else d0
    let dem := d.flag (mcUid ch) 0x4010 1
    if d.mirrored n = false then d.mcRead ch l src dem
    else if d.fenced (mcUid ch) || d.ch.stale.contains ch then d.mcRead (ch + 6) l src dem
    else if d.fenced (mcUid (ch + 6)) || d.ch.stale.contains (ch + 6) then d.mcRead ch l src dem
    else
      match d.mcRead ch l src dem with
      | (d1, .error e) =>
        if e ≠ errUncorrectable then (d1, .error e)
        else match d1.mcRead (ch + 6) l 3 dem with
          | (d2, .ok s) =>
            (((d2.mcWrite ch l s []).1).raise (mcUid ch) (Rec.plain 0x0304 1 (d.ueWord ch l src)), .ok s)
          | (d2, .error e2) => (d2, .error e2)
      | r => r

/-- Write a full sector of SDRAM, to both sides of a mirror (R368). `errs` is empty but for poison. DEDUCED, log entry 89. -/
def Dev.sdramWrite (d : Dev) (pa : Nat) (s : Sector) (errs : List Nat) : Dev × Except Nat Unit :=
  match d.rangeOf pa with
  | none => (d, .error errNoTarget)
  | some n =>
    let (ch, l) := d.decodeIn n pa
    if d.mirrored n = false then d.mcWrite ch l s errs
    else if d.fenced (mcUid ch) then d.mcWrite (ch + 6) l s errs
    else if d.fenced (mcUid (ch + 6)) then d.mcWrite ch l s errs
    else
      match d.mcWrite ch l s errs with
      | (d1, .error e) => (d1, .error e)
      | (d1, .ok ()) => d1.mcWrite (ch + 6) l s errs

/-- Write a sector back from a cache: a poisoned one is written as zeros under the poison pattern (R705). -/
def Dev.sdramWriteBack (d : Dev) (pa : Nat) (s : Sector) (poison : Bool) : Dev × Except Nat Unit :=
  if poison then d.sdramWrite pa 0 poisonPositions else d.sdramWrite pa s []

/-- Write fewer than 64 bytes of a sector: read, merge and write, refused when the read is (R366, R706). -/
def Dev.sdramMerge (d : Dev) (pa : Nat) (bs : List Byte) : Dev × Except Nat Unit :=
  let base := pa / 64 * 64
  if bs.length = 64 ∧ pa = base then d.sdramWrite base (secWrite 0 0 bs) []
  else match d.sdramRead base 2 with
    | (d1, .error e) => (d1, .error e)
    | (d1, .ok s) => d1.sdramWrite base (secWrite s (pa % 64) bs) []

end Sys2Proof.Machine
end

