-- ==== Sys2Proof/Machine/Caches.lean ====
section
/-!
DEFINITION. The L2s, the homes (L3 slices and exchange slices), coherence, maintenance, and the local stores
(R303-R337, R704-R706, R817). The L1s hold nothing that their L2 does not, and are not held separately.
-/
namespace Sys2Proof.Machine

/-- A requester of cached memory: cluster, core within it, slice list, partition and replica. -/
structure Rq where
  cl : Nat
  ix : Nat
  slices : List Nat
  part : Nat
  rep : Rep

/-- Replica code used by SLC_PART and MC_SHARE: 0 none, 1 A, 2 B, 3 C. -/
def repCode : Rep → Nat
  | .none => 0 | .a => 1 | .b => 2 | .c => 3

/-- The slice list of a core: its enabled HOME_SLICE entries (R308). -/
def Dev.sliceList (d : Dev) (c : Nat) : List Nat :=
  ((List.range 16).filter (fun i => d.flag (coreUid c) (0x4300 + 8 * i) 16)).map
    (fun i => d.fld (coreUid c) (0x4300 + 8 * i) 0 16)

/-- The requester that a core is. -/
def Dev.rqOf (d : Dev) (c : CoreId) : Rq :=
  ⟨coreCluster c, c % 4, d.sliceList c, (d.core c).part, (d.core c).rep⟩

/-! Exchange ranges and homes (R307, R308). -/

/-- The enabled exchange range that contains an address. -/
def Dev.xrOf (d : Dev) (pa : Nat) : Option Nat :=
  firstUpto 64 (fun n => let a := 0x5000 + 16 * n
    d.flag (hubUid 0) a 0 && pa / 2 ^ d.fld (hubUid 0) (a + 8) 0 6 ==
      d.fld (hubUid 0) a 21 27 * 2 ^ 21 / 2 ^ d.fld (hubUid 0) (a + 8) 0 6)

/-- The enabled remote window that contains an address (R547). -/
def Dev.remWinOf (d : Dev) (pa : Nat) : Option Nat :=
  firstUpto 32 (fun n => let a := 0x8100 + 8 * n; let z := d.fld (hubUid 0) a 1 6
    d.flag (hubUid 0) a 0 && pa / 2 ^ z == d.fld (hubUid 0) a 8 27 * 2 ^ 21 / 2 ^ z)

/-- Whether an address lies in the Trelub remote range (Table 1-6). -/
def inRemote (pa : Nat) : Bool := decide (0x400000000000 ≤ pa) && decide (pa < 0x800000000000)

/-- Hash of R308. -/
def sliceHash (pa : Nat) : Nat := (pa / 2 ^ 8 % 2 ^ 16) ^^^ (pa / 2 ^ 24 % 2 ^ 16) ^^^ (pa / 2 ^ 40 % 2 ^ 8)

/-- Ways that a slice lets a partition or replica fill (R312, R323). -/
def Dev.slcWays (d : Dev) (uid : Nat) (rq : Rq) : Nat :=
  match firstUpto 4 (fun k => let a := 0x4010 + 8 * k
      d.flag uid a 0 && d.fld uid a 1 2 == repCode rq.rep && d.fld uid a 8 8 == rq.part) with
  | some k => d.fld uid (0x4010 + 8 * k) 16 12
  | none => 0

/-- A home: unit, set, number of ways, permitted ways. -/
structure Home where
  uid : Nat
  set : Nat
  ways : Nat
  mask : Nat

/-- The home of an address for a requester, or an error response (R307, R308, R336). `remHub` is the hub of the
route to a remote window's peer (R547). -/
def Dev.homeOf (d : Dev) (rq : Rq) (pa : Nat) : Except Nat Home :=
  let slice := pa / 2 ^ 8 % 4; let xset := pa / 2 ^ 10 % 2 ^ 11
  if inRemote pa then
    match d.remWinOf pa with
    | none => .error errNoTarget
    | some n =>
      let peer := d.fld (hubUid 0) (0x8100 + 8 * n) 35 12
      let link := bits (SMap.get (fun _ => (0x1F80 : Word)) d.routes peer) 1 6
      .ok ⟨xsliceUid (if link < 20 then 0 else 1) slice, xset, 16, d.fld (hubUid 0) 0x8000 18 16⟩
  else match d.xrOf pa with
    | some n =>
      let a := 0x5008 + 16 * n
      if d.flag (hubUid 0) a 25 then .error errLost
      else .ok ⟨xsliceUid (d.fld (hubUid 0) a 6 1) slice, xset, 16, d.fld (hubUid 0) a 8 16⟩
    | none =>
      match rq.slices with
      | [] => .error errNoTarget
      | sl =>
        let uid := sl.getD (sliceHash pa % sl.length) 0
        .ok ⟨uid, pa / 2 ^ 8 % 2 ^ 10, 12, d.slcWays uid rq⟩

/-- Whether the home unit answers: not fenced, not powered down (R18, R83). -/
def Dev.homeAnswers (d : Dev) (h : Home) : Option Nat :=
  if d.fenced h.uid then some errFenced
  else if 3 ≤ d.power h.uid then some errPoweredDown else none

/-! The store behind the homes: SDRAM, or the peer for a remote window. -/

/-- Read a sector from the store behind a home. The peer's memory is outside the device: the data of its answer and
whether it answers in time are free values (R547, R550). DEDUCED, log entry 18. -/
def Dev.backRead (d : Dev) (pa : Nat) : Dev × Except Nat Sector :=
  if inRemote pa then
    let (f, d1) := d.draw
    let (x, d2) := d1.draw
    if f % 2 = 0 then (d2, .ok (BitVec.ofNat 512 x)) else (d2, .error errRemoteTimeout)
  else d.sdramRead pa 0

/-- Write a sector to the store behind a home. -/
def Dev.backWrite (d : Dev) (pa : Nat) (s : Sector) (poison : Bool) : Dev × Except Nat Unit :=
  if inRemote pa then
    if poison then (d, .error errPoisoned)
    else
      let (f, d1) := d.draw
      if f % 2 = 0 then (d1, .ok ()) else (d1, .error errRemoteTimeout)
  else d.sdramWriteBack pa s poison

/-! L2 lines. -/

/-- Key of an L2 way. -/
def l2Key (cl set way : Nat) : Nat := cl * 2 ^ 13 + set * 16 + way
/-- Set of an address in an L2. -/
def l2Set (pa : Nat) : Nat := pa / 256 % 512
/-- The line in an L2 way. -/
def Dev.l2Line (d : Dev) (cl set way : Nat) : Option L2Line := SMap.get (fun _ => none) d.l2 (l2Key cl set way)
/-- Store an L2 way. -/
def Dev.setL2 (d : Dev) (cl set way : Nat) (l : Option L2Line) : Dev :=
  { d with l2 := SMap.set (fun _ => none) d.l2 (l2Key cl set way) l }

/-- Sector `i` of an L2 line. -/
def L2Line.sec (l : L2Line) (i : Nat) : L2Sec := l.secs.getD i L2Sec.empty
/-- Replace sector `i` of an L2 line. -/
def L2Line.setSec (l : L2Line) (i : Nat) (s : L2Sec) : L2Line := { l with secs := l.secs.set i s }

/-- The way of an L2 that holds a line. -/
def Dev.l2Way (d : Dev) (cl pa : Nat) : Option Nat :=
  firstUpto 16 (fun w => match d.l2Line cl (l2Set pa) w with
    | some l => l.tag == pa / 256
    | none => false)

/-- The sector of an address that an L2 holds, invalid when it holds none. -/
def Dev.l2Sector (d : Dev) (cl pa : Nat) : L2Sec :=
  match d.l2Way cl pa with
  | none => L2Sec.empty
  | some w => match d.l2Line cl (l2Set pa) w with
    | some l => l.sec (pa / 64 % 4)
    | none => L2Sec.empty

/-- Change the sector of an address in an L2 that holds its line. -/
def Dev.l2Mod (d : Dev) (cl pa : Nat) (f : L2Sec → L2Sec) : Dev :=
  match d.l2Way cl pa with
  | none => d
  | some w => match d.l2Line cl (l2Set pa) w with
    | some l => d.setL2 cl (l2Set pa) w (some (l.setSec (pa / 64 % 4) (f (l.sec (pa / 64 % 4)))))
    | none => d

/-- Invalidate a sector in an L2. -/
def Dev.l2Drop (d : Dev) (cl pa : Nat) : Dev :=
  match (d.l2Sector cl pa).st with
  | .i => d
  | _ => d.l2Mod cl pa (fun _ => L2Sec.empty)

/-! Home lines. -/

/-- Key of a way of a home. -/
def homeKey (uid set way : Nat) : Nat := uid * 2 ^ 15 + set * 16 + way
/-- The line in a way of a home. -/
def Dev.homeLine (d : Dev) (uid set way : Nat) : Option HomeLine :=
  SMap.get (fun _ => none) d.homes (homeKey uid set way)
/-- Store a way of a home. -/
def Dev.setHome (d : Dev) (uid set way : Nat) (l : Option HomeLine) : Dev :=
  { d with homes := SMap.set (fun _ => none) d.homes (homeKey uid set way) l }
/-- Sector `i` of a home line. -/
def HomeLine.sec (l : HomeLine) (i : Nat) : HSec := l.secs.getD i HSec.empty
/-- Replace sector `i` of a home line. -/
def HomeLine.setSec (l : HomeLine) (i : Nat) (s : HSec) : HomeLine := { l with secs := l.secs.set i s }

/-- The way of a home that holds an address's line. -/
def Dev.homeWay (d : Dev) (h : Home) (pa : Nat) : Option Nat :=
  firstUpto h.ways (fun w => match d.homeLine h.uid h.set w with
    | some l => l.tag == pa / 256
    | none => false)

/-- The sector of an address at its home, with the way that holds it. -/
def Dev.homeSec (d : Dev) (h : Home) (pa : Nat) : HSec :=
  match d.homeWay h pa with
  | none => HSec.empty
  | some w => match d.homeLine h.uid h.set w with
    | some l => l.sec (pa / 64 % 4)
    | none => HSec.empty

/-- Change the sector of an address at a home that holds its line. -/
def Dev.homeMod (d : Dev) (h : Home) (pa : Nat) (f : HSec → HSec) : Dev :=
  match d.homeWay h pa with
  | none => d
  | some w => match d.homeLine h.uid h.set w with
    | some l => d.setHome h.uid h.set w (some (l.setSec (pa / 64 % 4) (f (l.sec (pa / 64 % 4)))))
    | none => d

/-- DRAINED of a slice: it holds no dirty sector (SLC_CTL). -/
def Dev.drained (d : Dev) (uid : Nat) : Bool :=
  d.homes.all (fun e => e.1 / 2 ^ 15 != uid || match e.2 with
    | some l => l.secs.all (fun s => !s.dirty)
    | none => true)

/-! SECDED of the arrays (R704). -/

/-- Flipped bits within the words of sector `i`. -/
def flipsIn (fs : List Nat) (i : Nat) : List Nat := fs.filter (fun f => f / 72 / 8 == i)

/-- Some word of the sector has two or more flipped bits. -/
def badWord (fs : List Nat) : Bool := fs.any (fun f => decide (2 ≤ (fs.filter (fun g => g / 72 == f / 72)).length))

/-- ERR_ADDR of record 0x0305: set, way and sector, placed as in CRB_ECC_ADDR. -/
def swsWord (set way sec : Nat) : Nat := at_ set 0 11 + at_ way 11 4 + at_ sec 15 2

/-- Check a sector of an L2 before it is used: a corrected word, a clean copy dropped, or dirty data poisoned. -/
def Dev.l2Check (d : Dev) (cl pa : Nat) : Dev :=
  match d.l2Way cl pa with
  | none => d
  | some w => match d.l2Line cl (l2Set pa) w with
    | none => d
    | some l =>
      let i := pa / 64 % 4
      let fs := flipsIn l.flips i
      let l' := { l with flips := l.flips.filter (fun f => f / 72 / 8 != i) }
      if fs = [] then d
      else if badWord fs then
        match (l.sec i).st with
        | .m => (d.setL2 cl (l2Set pa) w (some (l'.setSec i { l.sec i with poison := true }))).raise (l2Uid cl)
            (Rec.plain 0x0306 2 pa)
        | _ => (d.setL2 cl (l2Set pa) w (some (l'.setSec i L2Sec.empty))).raise (l2Uid cl)
            (Rec.plain 0x0305 1 (swsWord (l2Set pa) w i))
      else (d.setL2 cl (l2Set pa) w (some l')).raise (l2Uid cl) (Rec.plain 0x0305 1 (swsWord (l2Set pa) w i))

/-- Check a sector of a home before it is used. -/
def Dev.homeCheck (d : Dev) (h : Home) (pa : Nat) : Dev :=
  match d.homeWay h pa with
  | none => d
  | some w => match d.homeLine h.uid h.set w with
    | none => d
    | some l =>
      let i := pa / 64 % 4
      let fs := flipsIn l.flips i
      let l' := { l with flips := l.flips.filter (fun f => f / 72 / 8 != i) }
      if fs = [] then d
      else if badWord fs then
        if (l.sec i).dirty then
          (d.setHome h.uid h.set w (some (l'.setSec i { l.sec i with poison := true }))).raise h.uid
            (Rec.plain 0x0306 2 pa)
        else (d.setHome h.uid h.set w (some (l'.setSec i { l.sec i with valid := false }))).raise h.uid
            (Rec.plain 0x0305 1 (swsWord h.set w i))
      else (d.setHome h.uid h.set w (some l')).raise h.uid (Rec.plain 0x0305 1 (swsWord h.set w i))

/-- Flips that CRB_ECC puts into a write of a sector at a set and way of a cache (R732). -/
def Dev.cacheFlips (d : Dev) (uid set way sec : Nat) : Dev × List Nat :=
  if d.crumbling uid ∧ d.flag uid 0x3020 27 ∧ d.fld uid 0x3028 0 17 = swsWord set way sec then
    let wd := 72 * (8 * sec + d.fld uid 0x3028 17 3)
    let f0 := if d.flag uid 0x3020 10 then [wd + d.fld uid 0x3020 0 10] else []
    let f1 := if d.flag uid 0x3020 26 then [wd + d.fld uid 0x3020 16 10] else []
    ((d.setFlag uid 0x3020 27 false).incFld uid 0x3000 32 16, dedupNat (f0 ++ f1))
  else (d, [])

/-- Apply CRB_ECC to the L2 sector just written. -/
def Dev.l2Crumble (d : Dev) (cl pa : Nat) : Dev :=
  match d.l2Way cl pa with
  | none => d
  | some w =>
    let (d1, fs) := d.cacheFlips (l2Uid cl) (l2Set pa) w (pa / 64 % 4)
    if fs = [] then d1
    else match d1.l2Line cl (l2Set pa) w with
      | some l => d1.setL2 cl (l2Set pa) w (some { l with flips := l.flips ++ fs })
      | none => d1

/-- Apply CRB_ECC to the home sector just written. -/
def Dev.homeCrumble (d : Dev) (h : Home) (pa : Nat) : Dev :=
  match d.homeWay h pa with
  | none => d
  | some w =>
    let (d1, fs) := d.cacheFlips h.uid h.set w (pa / 64 % 4)
    if fs = [] then d1
    else match d1.homeLine h.uid h.set w with
      | some l => d1.setHome h.uid h.set w (some { l with flips := l.flips ++ fs })
      | none => d1

/-! Sharers (R318). -/

/-- Clusters that an invalidation of a sector goes to: the exact list, or every active cluster of each marked
region. -/
def dirClusters : Dir → List Nat
  | .u => []
  | .sh cl => cl
  | .shv rs => rs.flatMap (fun r => (List.range 9).map (fun k => r * 9 + k))
  | .ow c => [c]

/-- The directory with one more sharing cluster: the exact list holds four, a fifth turns it into regions. -/
def addSharer (dir : Dir) (cl : Nat) : Dir :=
  match dir with
  | .u => .sh [cl]
  | .ow c => if c = cl then .sh [c] else .sh [c, cl]
  | .sh l =>
    if l.contains cl then .sh l
    else if l.length < 4 then .sh (l ++ [cl])
    else .shv (dedupNat ((l ++ [cl]).map (· / 9)))
  | .shv rs => if rs.contains (cl / 9) then .shv rs else .shv (rs ++ [cl / 9])

/-- Take an owner's data into the home copy: a dirty copy makes the home dirty (R316, R322). The owner's copy is
left as `keep` says: shared, or not held. DEDUCED, log entry 14. -/
def Dev.recallOwner (d : Dev) (h : Home) (pa cl : Nat) (keep : Bool) : Dev :=
  let d0 := d.l2Check cl pa
  let s := d0.l2Sector cl pa
  let d1 := match s.st with
    | .m => d0.homeMod h pa (fun x => { x with valid := true, dirty := true, data := s.data, poison := s.poison })
    | _ => d0
  let d2 := match s.st with
    | .i => d1
    | _ => d1.l2Mod cl pa (fun x => if keep then { x with st := .s } else L2Sec.empty)
  d2.homeMod h pa (fun x => { x with dir := if keep then .sh [cl] else .u })

/-- HOME_RECALL: bring an owned sector's data home, leaving the owner a shared copy (R316). DEDUCED, log entry 14. -/
def Dev.homeRecall (d : Dev) (h : Home) (pa : Nat) : Dev :=
  match (d.homeSec h pa).dir with
  | .ow cl => d.recallOwner h pa cl true
  | _ => d

/-- HOME_INVALIDATION: recall an owner and invalidate every sharer but `except` (R318, R320). -/
def Dev.homeInvalidate (d : Dev) (h : Home) (pa : Nat) (except : Option Nat) : Dev :=
  let dir := (d.homeSec h pa).dir
  let d1 := match dir with
    | .ow cl => if some cl = except then d else d.recallOwner h pa cl false
    | _ => forAll ((dirClusters dir).filter (fun c => some c != except)) (fun c d => d.l2Drop c pa) d
  d1.homeMod h pa (fun x => { x with dir := match except with
    | some c => if (dirClusters dir).contains c then (match dir with | .ow _ => .ow c | _ => .sh [c]) else .u
    | none => .u })

/-! Replacement (R323-R325). -/

/-- Choose a victim among the permitted ways of a set, given each way's validity and age: the way, and the amount
to add to the age of every permitted way first. -/
def chooseVictim (ways : List Nat) (valid : Nat → Bool) (age : Nat → Nat) : Option (Nat × Nat) :=
  match ways.find? (fun w => !valid w) with
  | some w => some (w, 0)
  | none => match ways.find? (fun w => age w == 3) with
    | some w => some (w, 0)
    | none =>
      let mx := ways.foldl (fun a w => max a (age w)) 0
      match ways.find? (fun w => age w == mx) with
      | some w => some (w, 3 - mx)
      | none => none

/-- The ways that a mask permits. -/
def maskWays (n mask : Nat) : List Nat := (List.range n).filter (fun w => mask / 2 ^ w % 2 == 1)

/-- Write a sector of a home back to the store behind it when it is dirty. -/
def Dev.homeClean (d : Dev) (h : Home) (pa : Nat) : Dev × Option Nat :=
  let d0 := d.homeCheck h pa
  let s := d0.homeSec h pa
  if s.dirty then
    match d0.backWrite pa s.data s.poison with
    | (d1, .ok ()) => (d1.homeMod h pa (fun x => { x with dirty := false }), none)
    | (d1, .error e) => (d1.homeMod h pa (fun x => { x with dirty := false, valid := false }), some e)
  else (d0, none)

/-- Empty a way of a home: copies above it are removed first, then dirty data are written back (R304). -/
def Dev.homeEvict (d : Dev) (h : Home) (way : Nat) : Dev :=
  match d.homeLine h.uid h.set way with
  | none => d
  | some l =>
    let d1 := forUpto 4 (fun i d => ((d.homeInvalidate h (l.tag * 256 + 64 * i) none).homeClean h
      (l.tag * 256 + 64 * i)).1) d
    d1.setHome h.uid h.set way none

/-- The way that holds a line at its home, allocated at an age with the page hint when it is not there. -/
def Dev.homeAlloc (d : Dev) (h : Home) (pa age : Nat) (ph : Bool) : Dev × Option Nat :=
  match d.homeWay h pa with
  | some w =>
    match d.homeLine h.uid h.set w with
    | some l => (d.setHome h.uid h.set w (some { l with age := 0 }), some w)
    | none => (d, some w)
  | none =>
    let ways := maskWays h.ways h.mask
    match chooseVictim ways (fun w => (d.homeLine h.uid h.set w).isSome)
        (fun w => match d.homeLine h.uid h.set w with | some l => l.age | none => 3) with
    | none => (d, none)
    | some (w, add) =>
      let d1 := if add = 0 then d else forAll ways (fun v d => match d.homeLine h.uid h.set v with
        | some l => d.setHome h.uid h.set v (some { l with age := l.age + add })
        | none => d) d
      let d2 := d1.homeEvict h w
      (d2.setHome h.uid h.set w (some ⟨pa / 256, age, ph, List.replicate 4 HSec.empty, []⟩), some w)

/-- Have the home hold valid data of a sector: its own copy, or a fetch from the store behind it. -/
def Dev.homeFill (d : Dev) (h : Home) (pa : Nat) : Dev × Except Nat HSec :=
  let d0 := d.homeCheck h pa
  let s := d0.homeSec h pa
  if s.valid then (d0, if s.poison then .error errPoisoned else .ok s)
  else match d0.backRead (pa / 64 * 64) with
    | (d1, .error e) => (d1, .error e)
    | (d1, .ok x) =>
      let d2 := (d1.homeMod h pa (fun y => { y with valid := true, dirty := false, poison := false, data := x })).homeCrumble h pa
      (d2, .ok (d2.homeSec h pa))

/-- Prepare a request at a home: the home answers, holds the line, and the sector's data are valid. -/
def Dev.homeOpen (d : Dev) (rq : Rq) (pa age : Nat) (ph : Bool) : Dev × Except Nat Home :=
  match d.homeOf rq pa with
  | .error e => (d, .error e)
  | .ok h => match d.homeAnswers h with
    | some e => (d, .error e)
    | none => match d.homeAlloc h pa age ph with
      | (d1, none) => (d1, .error errRefused)
      | (d1, some _) => (d1, .ok h)

/-- HOME_READ_REQUEST: data for a read, granted E when no L2 holds the sector and S otherwise (R316); a WT page
is granted S only (R306). -/
def Dev.homeRead (d : Dev) (rq : Rq) (pa age : Nat) (ph wt : Bool) : Dev × Except Nat (SecSt × Sector) :=
  match d.homeOpen rq pa age ph with
  | (d1, .error e) => (d1, .error e)
  | (d1, .ok h) =>
    let d2 := match (d1.homeSec h pa).dir with
      | .ow cl => if cl = rq.cl then d1 else d1.homeRecall h pa
      | _ => d1
    match d2.homeFill h pa with
    | (d3, .error e) => (d3, .error e)
    | (d3, .ok s) =>
      let alone := match s.dir with | .u => true | .ow c => c == rq.cl | _ => false
      if alone && !wt then (d3.homeMod h pa (fun x => { x with dir := .ow rq.cl }), .ok (.e, s.data))
      else (d3.homeMod h pa (fun x => { x with dir := addSharer (match x.dir with | .ow _ => .u | y => y) rq.cl }),
        .ok (.s, s.data))

/-- HOME_READ_EXCLUSIVE and HOME_UPGRADE: every other copy goes, and the requester owns the sector (R316, R322). -/
def Dev.homeReadX (d : Dev) (rq : Rq) (pa age : Nat) (ph : Bool) : Dev × Except Nat Sector :=
  match d.homeOpen rq pa age ph with
  | (d1, .error e) => (d1, .error e)
  | (d1, .ok h) =>
    let d2 := d1.homeInvalidate h pa (some rq.cl)
    match d2.homeFill h pa with
    | (d3, .error e) => (d3, .error e)
    | (d3, .ok s) => (d3.homeMod h pa (fun x => { x with dir := .ow rq.cl }), .ok s.data)

/-- HOME_WRITEBACK: an owner's dirty sector returns to its home (R304); without a home line it goes to the store
behind. -/
def Dev.homeWriteback (d : Dev) (rq : Rq) (pa : Nat) (s : L2Sec) : Dev :=
  match d.homeOf rq pa with
  | .error _ => (d.backWrite pa s.data s.poison).1
  | .ok h => match d.homeWay h pa with
    | none => (d.backWrite pa s.data s.poison).1
    | some _ => (d.homeMod h pa (fun x =>
        { x with valid := true, dirty := true, data := s.data, poison := s.poison, dir := .u })).homeCrumble h pa

/-- Empty a way of an L2, writing dirty sectors back to their homes. -/
def Dev.l2Evict (d : Dev) (rq : Rq) (set way : Nat) : Dev :=
  match d.l2Line rq.cl set way with
  | none => d
  | some l =>
    let d1 := forUpto 4 (fun i d =>
      let pa := l.tag * 256 + 64 * i
      let d0 := d.l2Check rq.cl pa
      let s := d0.l2Sector rq.cl pa
      match s.st with
      | .m => d0.homeWriteback rq pa s
      | _ => d0) d
    d1.setL2 rq.cl set way none

/-- The way of an L2 for a line, allocated within the core's way mask (R323). -/
def Dev.l2Alloc (d : Dev) (rq : Rq) (pa age : Nat) (ph : Bool) : Dev × Option Nat :=
  let set := l2Set pa
  match d.l2Way rq.cl pa with
  | some w =>
    match d.l2Line rq.cl set w with
    | some l => (d.setL2 rq.cl set w (some { l with age := 0 }), some w)
    | none => (d, some w)
  | none =>
    let ways := maskWays 16 (d.fld (l2Uid rq.cl) (0x4010 + 8 * rq.ix) 0 16)
    match chooseVictim ways (fun w => (d.l2Line rq.cl set w).isSome)
        (fun w => match d.l2Line rq.cl set w with | some l => l.age | none => 3) with
    | none => (d, none)
    | some (w, add) =>
      let d1 := if add = 0 then d else forAll ways (fun v d => match d.l2Line rq.cl set v with
        | some l => d.setL2 rq.cl set v (some { l with age := l.age + add })
        | none => d) d
      let d2 := d1.l2Evict rq set w
      (d2.setL2 rq.cl set w (some ⟨pa / 256, age, ph, List.replicate 4 L2Sec.empty, []⟩), some w)

/-- Put a sector into the requester's L2. -/
def Dev.l2Fill (d : Dev) (rq : Rq) (pa age : Nat) (ph : Bool) (st : SecSt) (x : Sector) : Dev :=
  match d.l2Alloc rq pa age ph with
  | (d1, none) => d1
  | (d1, some _) => (d1.l2Mod rq.cl pa (fun _ => ⟨st, x, false⟩)).l2Crumble rq.cl pa

/-- A sector in the requester's L2 for reading, fetched from its home when not held. -/
def Dev.l2Get (d : Dev) (rq : Rq) (pa age : Nat) (ph wt : Bool) : Dev × Except Nat Sector :=
  let d0 := d.l2Check rq.cl pa
  let s := d0.l2Sector rq.cl pa
  match s.st with
  | .i => match d0.homeRead rq pa age ph wt with
    | (d1, .error e) => (d1, .error e)
    | (d1, .ok (st, x)) => (d1.l2Fill rq pa age ph st x, .ok x)
  | _ => if s.poison then (d0, .error errPoisoned)
         else ((d0.l2Alloc rq pa 0 ph).1, .ok s.data)

/-- Whether a read of a sector would miss in the requester's L2. -/
def Dev.l2Miss (d : Dev) (rq : Rq) (pa : Nat) : Bool := (d.l2Sector rq.cl pa).st == .i

/-- The next-line prefetch of an L2 demand miss (R328): the next line, within the 4 KiB page, at age 2; errors are
ignored. -/
def Dev.prefetch (d : Dev) (rq : Rq) (pa : Nat) (ph wt st : Bool) : Dev :=
  let nx := pa / 256 * 256 + 256
  if d.flag (l2Uid rq.cl) 0x4000 rq.ix && nx / 4096 == pa / 4096 then
    forUpto 4 (fun i d => if d.l2Miss rq (nx + 64 * i) then (d.l2Get rq (nx + 64 * i) (if st then 3 else 2) ph wt).1 else d) d
  else d

/-- Own a sector for writing in the requester's L2 (R316). -/
def Dev.l2Own (d : Dev) (rq : Rq) (pa age : Nat) (ph : Bool) : Dev × Except Nat Sector :=
  let d0 := d.l2Check rq.cl pa
  let s := d0.l2Sector rq.cl pa
  match s.st with
  | .m => if s.poison then (d0, .error errPoisoned) else (d0, .ok s.data)
  | .e => (d0.l2Mod rq.cl pa (fun x => { x with st := .m }), .ok s.data)
  | _ => match d0.homeReadX rq pa age ph with
    | (d1, .error e) => (d1, .error e)
    | (d1, .ok x) => (d1.l2Fill rq pa age ph .m x, .ok x)

/-- Store bytes within one sector of a WB page. A store of all 64 bytes replaces poison (R706). -/
def Dev.l2Store (d : Dev) (rq : Rq) (pa age : Nat) (ph : Bool) (bs : List Byte) : Dev × Except Nat Unit :=
  let base := pa / 64 * 64
  let full : Bool := bs.length == 64
  let d0 := if full then d.l2Mod rq.cl pa (fun x => { x with poison := false }) else d
  match d0.l2Own rq base age ph with
  | (d1, .error e) => (d1, .error e)
  | (d1, .ok x) =>
    ((d1.l2Mod rq.cl pa (fun y => { y with st := .m, data := secWrite x (pa % 64) bs })).l2Crumble rq.cl pa, .ok ())

/-- A store performed at the home (R306, R319): copies are recalled and invalidated, all but the issuer's own for a
WT store; a dirty home copy takes the bytes, otherwise they are written to SDRAM and any clean copy is updated. -/
def Dev.homeStore (d : Dev) (rq : Rq) (pa : Nat) (bs : List Byte) : Dev × Except Nat Unit :=
  match d.homeOf rq pa with
  | .error e => (d, .error e)
  | .ok h => match d.homeAnswers h with
    | some e => (d, .error e)
    | none =>
      let d1 := (d.homeInvalidate h pa none).homeCheck h pa
      let s := d1.homeSec h pa
      let upd (d : Dev) : Dev := d.homeMod h pa (fun x => { x with data := secWrite x.data (pa % 64) bs, poison := false })
      if s.valid && s.poison && bs.length != 64 then (d1, .error errPoisoned)
      else if s.valid && s.dirty then (upd d1, .ok ())
      else if inRemote pa then
        match d1.homeFill h pa with
        | (d2, .error e) => (d2, .error e)
        | (d2, .ok x) => match d2.backWrite (pa / 64 * 64) (secWrite x.data (pa % 64) bs) false with
          | (d3, .error e) => (d3, .error e)
          | (d3, .ok ()) => (upd d3, .ok ())
      else match d1.sdramMerge pa bs with
        | (d2, .error e) => (d2, .error e)
        | (d2, .ok ()) => (if s.valid then upd d2 else d2, .ok ())

/-- A WT store: performed at the home and written to SDRAM; a shared copy in the issuer's L2 is updated (R306). -/
def Dev.wtStore (d : Dev) (rq : Rq) (pa : Nat) (bs : List Byte) : Dev × Except Nat Unit :=
  match d.homeOf rq pa with
  | .error e => (d, .error e)
  | .ok h =>
    let mine := (d.l2Sector rq.cl pa)
    let d0 := ((d.homeInvalidate h pa none).homeClean h pa).1
    match d0.homeStore rq pa bs with
    | (d1, .error e) => (d1, .error e)
    | (d1, .ok ()) =>
      match mine.st with
      | .s =>
        if mine.poison then (d1, .ok ())
        else
          ((d1.l2Fill rq pa 0 false .s (secWrite mine.data (pa % 64) bs)).homeMod h pa
            (fun x => { x with dir := addSharer x.dir rq.cl }), .ok ())
      | _ => (d1, .ok ())

/-- A read performed at the home without allocating (R319): an owner's data are recalled first. -/
def Dev.homeLoad (d : Dev) (rq : Rq) (pa : Nat) : Dev × Except Nat Sector :=
  match d.homeOf rq pa with
  | .error e => (d, .error e)
  | .ok h => match d.homeAnswers h with
    | some e => (d, .error e)
    | none =>
      let d1 := (d.homeRecall h pa).homeCheck h pa
      let s := d1.homeSec h pa
      if s.valid then (d1, if s.poison then .error errPoisoned else .ok s.data)
      else d1.backRead (pa / 64 * 64)

/-- An atomic operation at the home on `n` bytes (R137, R320): the old bytes, and what `f` makes of them. A WT page's
result is written to SDRAM at once. -/
def Dev.homeAtomic (d : Dev) (rq : Rq) (pa n : Nat) (wt : Bool) (f : Nat → Option Nat) :
    Dev × Except Nat Nat :=
  match d.homeOpen rq pa 0 false with
  | (d1, .error e) => (d1, .error e)
  | (d1, .ok h) =>
    let d2 := d1.homeInvalidate h pa none
    match d2.homeFill h pa with
    | (d3, .error e) => (d3, .error e)
    | (d3, .ok s) =>
      let old := leNat (secBytes s.data (pa % 64) n)
      match f old with
      | none => (d3, .ok old)
      | some x =>
        let new := secWrite s.data (pa % 64) (natLe n x)
        let d4 := (d3.homeMod h pa (fun y => { y with data := new, dirty := true })).homeCrumble h pa
        if wt then match d4.homeClean h pa with
          | (d5, none) => (d5, .ok old)
          | (d5, some e) => (d5, .error e)
        else (d4, .ok old)

/-! Maintenance by line (R329-R331). -/

/-- Clean one sector in every cache: dirty data go to the store behind, copies stay valid (R329). -/
def Dev.cleanSector (d : Dev) (h : Home) (pa : Nat) : Dev × Option Nat :=
  let d1 := match (d.homeSec h pa).dir with
    | .ow cl =>
      let d0 := d.l2Check cl pa
      let s := d0.l2Sector cl pa
      (match s.st with
        | .m => (d0.homeMod h pa (fun x => { x with valid := true, dirty := true, data := s.data, poison := s.poison })).l2Mod
            cl pa (fun x => { x with st := .e })
        | _ => d0)
    | _ => d
  d1.homeClean h pa

/-- Discard every copy of one sector and the home's own, dirty data included (R329, R322). -/
def Dev.discardSector (d : Dev) (h : Home) (pa : Nat) : Dev :=
  (forAll (dirClusters (d.homeSec h pa).dir) (fun c d => d.l2Drop c pa) d).homeMod h pa (fun _ => HSec.empty)

/-- Apply a per-sector operation to the four sectors of a line at its home, keeping the first error.
DEDUCED, log entry 19. -/
def Dev.lineOp (d : Dev) (rq : Rq) (pa : Nat) (f : Dev → Home → Nat → Dev × Option Nat) : Dev × Except Nat Unit :=
  match d.homeOf rq pa with
  | .error e => (d, .error e)
  | .ok h => match d.homeAnswers h with
    | some e => (d, .error e)
    | none =>
      let base := pa / 256 * 256
      let r := (List.range 4).foldl (fun (a : Dev × Option Nat) i =>
        let (d1, e) := f a.1 h (base + 64 * i)
        (d1, a.2.orElse (fun _ => e))) (d, none)
      (r.1, match r.2 with | none => .ok () | some e => .error e)

/-- CLEAN of a line. -/
def Dev.lineClean (d : Dev) (rq : Rq) (pa : Nat) : Dev × Except Nat Unit :=
  d.lineOp rq pa (fun d h a => d.cleanSector h a)

/-- INV of a line. -/
def Dev.lineInv (d : Dev) (rq : Rq) (pa : Nat) : Dev × Except Nat Unit :=
  d.lineOp rq pa (fun d h a => (d.discardSector h a, none))

/-- FLUSH of a line. -/
def Dev.lineFlush (d : Dev) (rq : Rq) (pa : Nat) : Dev × Except Nat Unit :=
  d.lineOp rq pa (fun d h a => let (d1, e) := d.cleanSector h a; (d1.discardSector h a, e))

/-- ZLINE of a WB line: the four sectors in M in the issuer's L2, zero, without a read of memory (R329). -/
def Dev.lineZero (d : Dev) (rq : Rq) (pa : Nat) (ph st : Bool) : Dev × Except Nat Unit :=
  d.lineOp rq pa (fun d h a =>
    match d.homeAlloc h a (if st then 3 else 0) ph with
    | (d1, none) => (d1, some errRefused)
    | (d1, some _) =>
      let d2 := (d1.homeInvalidate h a (some rq.cl)).homeMod h a
        (fun x => { x with valid := false, dirty := false, poison := false, dir := .ow rq.cl })
      (d2.l2Fill rq a (if st then 3 else 0) ph .m 0, none))

/-! Maintenance by set and way (R332). -/

/-- The requester identity under which an L2's write-backs reach their homes: the slice list of a core of its cluster
that has one. -/
def Dev.clusterRq (d : Dev) (cl : Nat) : Rq :=
  let cs := (List.range 4).filter (fun i => (d.sliceList (cl * 4 + i)) ≠ [])
  d.rqOf (coreId (cl * 4 + cs.getD 0 0))

/-- The home as which a slice holds a set. -/
def homeAt (uid set : Nat) : Home := ⟨uid, set, if uidDie uid < 4 then 12 else 16, 0⟩

/-- The directory names a cluster as the owner of a sector whose data it has written back and still holds. -/
def Dev.homeKeeps (d : Dev) (rq : Rq) (pa : Nat) : Dev :=
  match d.homeOf rq pa with
  | .error _ => d
  | .ok h => d.homeMod h pa (fun x => { x with dir := .ow rq.cl })

/-- Clean, invalidate or flush one way of an L2 set. A sector that stays is held clean, and its home goes on naming the owner (R304). -/
def Dev.l2SetWay (d : Dev) (cl set way : Nat) (clean inv : Bool) : Dev :=
  match d.l2Line cl set way with
  | none => d
  | some l =>
    let d1 := if clean then forUpto 4 (fun i d =>
        let pa := l.tag * 256 + 64 * i
        let d0 := d.l2Check cl pa
        let s := d0.l2Sector cl pa
        match s.st with
        | .m => ((d0.homeWriteback (d0.clusterRq cl) pa s).homeKeeps (d0.clusterRq cl) pa).l2Mod cl pa (fun x => { x with st := .e })
        | _ => d0) d else d
    if inv then d1.setL2 cl set way none else d1

/-- Clean, invalidate or flush one way of a home set; a failed write-back sets WBERR of its CM_STATUS. Copies in L2s
are recalled first when dirty data are written back, and removed when the line goes (R304). -/
def Dev.homeSetWay (d : Dev) (uid set way : Nat) (clean inv : Bool) : Dev :=
  let h := homeAt uid set
  match d.homeLine uid set way with
  | none => d
  | some l =>
    let d1 := forUpto 4 (fun i d =>
      let pa := l.tag * 256 + 64 * i
      let dA := if inv then (if clean then d.homeInvalidate h pa none else
        forAll (dirClusters (d.homeSec h pa).dir) (fun c d => d.l2Drop c pa) d) else d.homeRecall h pa
      if clean then
        let (d2, e) := dA.homeClean h pa
        if e.isSome then d2.setFlag uid 0x4108 2 true else d2
      else dA) d
    if inv then d1.setHome uid set way none else d1

/-- Every set and way of a unit that holds a line, as (set, way). -/
def Dev.heldWays (d : Dev) (uid : Nat) : List (Nat × Nat) :=
  if uidType uid = 1 then
    let cl := uidClusterNo uid
    (d.l2.filter (fun e => e.1 / 2 ^ 13 == cl)).map (fun e => (e.1 % 2 ^ 13 / 16, e.1 % 16))
  else (d.homes.filter (fun e => e.1 / 2 ^ 15 == uid)).map (fun e => (e.1 % 2 ^ 15 / 16, e.1 % 16))

/-- Maintain one set and way of a cache unit. -/
def Dev.setWayOp (d : Dev) (uid set way : Nat) (clean inv : Bool) : Dev :=
  if uidType uid = 1 then d.l2SetWay (uidClusterNo uid) set way clean inv
  else d.homeSetWay uid set way clean inv

/-- Maintain every way of a cache unit that holds a line. -/
def Dev.wholeCacheOp (d : Dev) (uid : Nat) (clean inv : Bool) : Dev :=
  forAll (d.heldWays uid) (fun sw d => d.setWayOp uid sw.1 sw.2 clean inv) d

/-- Discard a cache unit's contents without writing back (R334). -/
def Dev.dropCache (d : Dev) (uid : Nat) : Dev :=
  if uidType uid = 1 then { d with l2 := SMap.keep (fun k => k / 2 ^ 13 != uidClusterNo uid) d.l2 }
  else { d with homes := SMap.keep (fun k => k / 2 ^ 15 != uid) d.homes }

/-! Local stores (R257, R303, R817). -/

/-- Key of a byte of a local store. -/
def lsKey (c off : Nat) : Nat := c * 2 ^ 17 + off
/-- Physical address of a local-store byte in the core's numbered slot (R50). -/
def lsAddr (c off : Nat) : Nat := 0xE00000000000 + c * 2 ^ 20 + off
/-- The words (offset / 8) that `n` bytes from `off` touch. -/
def wordsOf (off n : Nat) : List Nat := (List.range ((off + n - 1) / 8 + 1 - off / 8)).map (· + off / 8)

/-- Check one word before a read or a partial write: correct a single flip, or report it uncorrectable. -/
def Dev.lsCheck (d : Dev) (c word : Nat) : Dev × Bool :=
  match SMap.get (fun _ => []) d.localErr (c * 2 ^ 14 + word) with
  | [] => (d, true)
  | [_] =>
    (({ d with localErr := SMap.set (fun _ => []) d.localErr (c * 2 ^ 14 + word) [] }).raise (coreUid c)
      (Rec.plain 0x0308 1 (lsAddr c (8 * word))), true)
  | _ => (d.raise (coreUid c) (Rec.plain 0x0309 2 (lsAddr c (8 * word))), false)

/-- Check every word of a list, stopping at none; the result is whether all are good. -/
def Dev.lsCheckAll (d : Dev) (c : Nat) (ws : List Nat) : Dev × Bool :=
  ws.foldl (fun (a : Dev × Bool) w => let (d1, b) := a.1.lsCheck c w; (d1, a.2 && b)) (d, true)

/-- Read `n` bytes of a local store. -/
def Dev.lsRead (d : Dev) (c off n : Nat) : Dev × Except Nat (List Byte) :=
  if 2 ^ 17 < off + n then (d, .error errNoTarget)
  else
    let (d1, ok) := d.lsCheckAll c (wordsOf off n)
    if ok then (d1, .ok (readBytes d1.localStore (lsKey c off) n)) else (d1, .error errUncorrectable)

/-- Write bytes to a local store. Whole words take new check bits; words written in part are checked first (R817). -/
def Dev.lsWrite (d : Dev) (c off : Nat) (bs : List Byte) : Dev × Except Nat Unit :=
  let n := bs.length
  if 2 ^ 17 < off + n then (d, .error errNoTarget)
  else
    let whole (w : Nat) : Bool := decide (off ≤ 8 * w) && decide (8 * w + 8 ≤ off + n)
    let (d1, ok) := d.lsCheckAll c ((wordsOf off n).filter (fun w => !whole w))
    if ok then
      let d2 := { d1 with localStore := writeBytes d1.localStore (lsKey c off) bs }
      (forAll ((wordsOf off n).filter whole) (fun w d =>
        { d with localErr := SMap.set (fun _ => []) d.localErr (c * 2 ^ 14 + w) [] }) d2, .ok ())
    else (d1, .error errUncorrectable)

/-- A store by some agent reaches a granule: the reservations of other cores on it are lost (R135). -/
def Dev.loseResv (d : Dev) (pa n : Nat) (by_ : Option Nat) : Dev :=
  { d with resv := d.resv.filter (fun e => some e.1 == by_ || match e.2 with
    | some r => decide (r.addr / 64 < pa / 64) || decide ((pa + n - 1) / 64 < r.addr / 64)
    | none => true) }

end Sys2Proof.Machine
end

