-- ==== Sys2Proof/Machine/RegWrite.lean ====
section
/-!
DEFINITION. Register writes and reads by access code (R7-R12): reserved values and reserved combinations, and the
generic read with RC fields.
-/
namespace Sys2Proof.Machine

/-- Whether a value is permitted in a field. -/
def fieldOk (f : FieldRow) (x : Nat) : Bool := f.ok = [] || f.ok.any (fun r => decide (r.1 ≤ x) && decide (x ≤ r.2))

/-- Class of a field: its own, or the register's. -/
def fieldCls (r : RegRow) (f : FieldRow) : RClass := f.cls.getD r.cls

/-- One field of a write: the value the field then holds, and whether a reserved value was written (R8, R12). -/
def writeField (f : FieldRow) (old new : Word) : Nat × Bool :=
  let o := bits old f.lo f.w; let n := bits new f.lo f.w
  match f.acc with
  | .rw => if fieldOk f n then (n, false) else (o, true)
  | .w1c => (o &&& (2 ^ f.w - 1 - n), false)
  | .w1s => (o ||| n, false)
  | .wo | .ro | .rc => (o, false)

/-- Every field of a write. RSVD bits are ignored (R11). -/
def writeFields (fs : List FieldRow) (old new : Word) : Word × Bool :=
  fs.foldl (fun (a : Word × Bool) f =>
    let (x, b) := writeField f old new
    (setBits a.1 f.lo f.w x, a.2 || b)) (old, false)

/-- A reserved combination: when `bad` holds of the register's would-be value, the fields in `mask` that the write
changes keep their values (R12). -/
structure Combo where
  bad : Word → Bool
  mask : Nat

/-- Mask of a field. -/
def fmask (lo w : Nat) : Nat := (2 ^ w - 1) * 2 ^ lo

/-- Bits [47:21] base below a size: some bit under 2^size is set. -/
def lowBits (base size : Nat) : Bool := base * 2 ^ 21 % 2 ^ size != 0

/-- Number of ranks fitted by an MC_CFG value, at least one. -/
def fittedRanks (v : Word) : Nat := max 1 (bits v 3 2 * (if bit v 5 then 2 else 1))

/-- CDBG_RSEL selects an existing register (its table). -/
def rselOk (v : Word) : Bool :=
  let i := bits v 2 12
  match bits v 0 2 with
  | 0 => decide (i < 32)
  | 1 => (i == 0 || i == 1 || (decide (8 ≤ i) && decide (i ≤ 11)) || (decide (0x10 ≤ i) && decide (i ≤ 0x1F)) ||
      (decide (0x100 ≤ i) && decide (i ≤ 0x109)))
  | 2 => decide (i < 256)
  | _ => decide (i ≤ 192)

/-- Bench mode, as latched in BOOT_STATUS (R748, R808). -/
def Dev.bench (d : Dev) : Bool := d.flag bootUid 0x4000 10

/-- The reserved combinations of a register element (the register entries of the chapters). -/
def combos (d : Dev) (u : Nat) (r : RegName) (i : Nat) : List Combo :=
  match r with
  | .paceCfg => [⟨fun v => decide (bits v 24 8 < bits v 16 8 + 1), fmask 16 16⟩]
  | .winBase => [⟨fun v => lowBits (bits v 21 27) (d.fld u (0x4208 + 16 * i) 0 6), fmask 21 27⟩]
  | .winAttr => [⟨fun v => lowBits (d.fld u (0x4200 + 16 * i) 21 27) (bits v 0 6) ||
      lowBits (d.fld u (0x4600 + 8 * i) 21 27) (bits v 0 6), fmask 0 6⟩]
  | .winReloc =>
    let k := d.core (coreId (uidCore u))
    [⟨fun v => lowBits (bits v 21 27) (d.fld u (0x4208 + 16 * i) 0 6), fmask 21 27⟩,
     ⟨fun v => bit v 0 && !(k.rep == .b || k.rep == .c), 1⟩]
  | .homeSlice =>
    [⟨fun v => bit v 16 && unitKind (bits v 0 16) != some .l3, fmask 0 17⟩,
     ⟨fun v => (List.range 15).any (fun j =>
        let en (k : Nat) : Bool := if k = i then bit v 16 else d.flag u (0x4300 + 8 * k) 16
        !en j && en (j + 1)), fmask 16 1⟩]
  | .slcPart => [⟨fun v => bit v 0 && bits v 16 12 == 0, fmask 0 1 + fmask 16 12⟩]
  | .xrBase =>
    [⟨fun v => lowBits (bits v 21 27) (d.fld u (0x5008 + 16 * i) 0 6), fmask 21 27⟩,
     ⟨fun v => bit v 0 && d.fld u (0x5008 + 16 * i) 8 16 == 0, 1⟩]
  | .xrAttr =>
    [⟨fun v => lowBits (d.fld u (0x5000 + 16 * i) 21 27) (bits v 0 6), fmask 0 6⟩,
     ⟨fun v => d.flag u (0x5000 + 16 * i) 0 && bits v 8 16 == 0, fmask 8 16⟩]
  | .memRangeBase =>
    [⟨fun v => bit v 0 && (d.fld u (0x6008 + 16 * i) 0 12 == 0 || d.fld u (0x6008 + 16 * i) 16 12 == 0 ||
        decide (3072 < d.fld u (0x6008 + 16 * i) 16 12)), 1⟩]
  | .memRangeAttr =>
    let en := d.flag u (0x6000 + 16 * i) 0
    [⟨fun v => en && bits v 0 12 == 0, fmask 0 12⟩,
     ⟨fun v => en && (bits v 16 12 == 0 || decide (3072 < bits v 16 12)), fmask 16 12⟩]
  | .mcSched => [⟨fun v => bits v 32 8 == 0 || decide (bits v 24 8 ≤ bits v 32 8), fmask 24 16⟩]
  | .mcShare => [⟨fun v => bit v 0 && bits v 16 8 == 0, 1 + fmask 16 8⟩]
  | .mcCfg => [⟨fun v => decide (fittedRanks v ≤ bits v 8 2), fmask 3 3 + fmask 8 2⟩]
  | .cadCfg => [⟨fun v => decide (8 * 2 ^ bits v 2 3 ≤ bits v 32 8), fmask 2 3 + fmask 32 8⟩]
  | .seRtport =>
    [⟨fun v => decide (bits v 10 10 ≤ bits v 0 10) || decide (511 < bits v 10 10), fmask 0 20⟩,
     ⟨fun v => bits v 30 10 == 0 || decide (bits v 20 10 ≤ bits v 30 10), fmask 20 20⟩]
  | .bufAttr => [⟨fun v => bit v 0 && d.flag u 0x5818 i, 1⟩]
  | .twinCtl => [⟨fun v => bits v 0 12 == d.fld (hubUid 0) 0x8000 0 12, fmask 0 12⟩]
  | .twinInmask =>
    (List.range 64).map (fun n => ⟨fun v => bit v n && d.flag u (0x4008 + 16 * n) 0, fmask n 1⟩)
  | .ringBase | .mgtRingBase =>
    [⟨fun v => decide (2 ^ bits v 1 4 ≤ d.fld u (0x4208 + 16 * i) 0 16), fmask 1 4⟩]
  | .ringIdx | .mgtRingIdx =>
    [⟨fun v => decide (2 ^ d.fld u (0x4200 + 16 * i) 1 4 ≤ bits v 0 16), fmask 0 16⟩]
  | .trlDev =>
    [⟨fun v => bits v 18 16 == 0 && (List.range 32).any (fun n => d.flag u (0x8100 + 8 * n) 0), fmask 18 16⟩]
  | .remWin =>
    [⟨fun v => lowBits (bits v 8 27) (bits v 1 6) || !inRemote (bits v 8 27 * 2 ^ 21), fmask 1 6 + fmask 8 27⟩,
     ⟨fun v => bit v 0 && d.fld u 0x8000 18 16 == 0, 1⟩]
  | .tsBase => [⟨fun v => bits v 12 36 * 2 ^ 12 % 2 ^ bits v 0 5 != 0, fmask 0 5 + fmask 12 36⟩]
  | .tsCtl => [⟨fun v => bit v 10 && !d.bench, fmask 10 1⟩]
  | .dbmCtl => [⟨fun v => bit v 15 && !d.bench, fmask 15 1⟩]
  | .trcSrc =>
    let part := if unitKind u = some .core then some (d.core (coreId (uidCore u))).part else none
    [⟨fun v => bit v 0 && d.fld dbgUid (0x7000 + 64 * bits v 3 4) 2 8 != part.getD (bits v 8 8), fmask 3 4⟩]
  | .cdbgRsel => [⟨fun v => !rselOk v, fmask 0 14⟩]
  | _ => []

/-- Revert every reserved combination: each in turn until none is left bad or nothing more can be reverted. -/
def revert (cs : List Combo) (old : Word) : Nat → Word → Word
  | 0, v => v
  | n + 1, v =>
    let m := cs.foldl (fun m c => if c.bad v then m ||| c.mask else m) 0
    let mw := BitVec.ofNat 64 m
    let v' := (old &&& mw) ||| (v &&& ~~~mw)
    if v' = v then v else revert cs old n v'

/-- Write a register by its access codes. A reserved value or combination leaves the fields concerned as they were and
raises record 0x0101 with the register's offset (R12). -/
def Dev.regStore (d : Dev) (u : Nat) (r : RegRow) (i : Nat) (new : Word) : Dev :=
  let off := r.off + r.stride * i
  let old := d.reg u off
  let (v, bad) := writeFields r.fields old new
  let cs := combos d u r.name i
  let v' := revert cs old (cs.length + 1) v
  let d1 := d.setReg u off v'
  if bad || v' != v then d1.raise u (Rec.plain 0x0101 1 off) else d1

/-- Bits of a register that a read returns: every field but WO fields (R8, R10). -/
def readMask (fs : List FieldRow) : Nat :=
  fs.foldl (fun m f => match f.acc with | .wo => m | _ => m ||| fmask f.lo f.w) 0

/-- The RC bits of a register. -/
def rcMask (fs : List FieldRow) : Nat :=
  fs.foldl (fun m f => match f.acc with | .rc => m ||| fmask f.lo f.w | _ => m) 0

/-- What a read returns, from the stored value. -/
def readView (r : RegRow) (v : Word) : Word := v &&& BitVec.ofNat 64 (readMask r.fields)

/-- Read a register: RC fields are cleared unless the read peeks (R8, R9). -/
def Dev.regLoad (d : Dev) (u : Nat) (r : RegRow) (i : Nat) (peek : Bool) : Dev × Word :=
  let off := r.off + r.stride * i
  let v := d.reg u off
  let m := rcMask r.fields
  (if peek || m == 0 then d else d.setReg u off (v &&& ~~~(BitVec.ofNat 64 m)), readView r v)

end Sys2Proof.Machine
end

