-- ==== Sys2Proof/Machine/EvMbx.lean ====
section
/-!
DEFINITION. Events, inboxes, mailboxes and doorbells (R392-R419).
-/
namespace Sys2Proof.Machine

/-! Logical cores. -/

/-- The physical cores that run a logical core, one for each replica. -/
def Dev.coresOf (d : Dev) (l : Nat) : List CoreId :=
  (List.finRange 288).filter (fun c => (d.core c).placed && (d.core c).lcore == l)

/-- The physical cores of a partition. -/
def Dev.partCores (d : Dev) (p : Nat) : List CoreId :=
  (List.finRange 288).filter (fun c => (d.core c).placed && (d.core c).part == p)

/-- The partition of a logical core. -/
def Dev.lcorePart (d : Dev) (l : Nat) : Option Nat :=
  match SMap.get (fun _ => 0) d.kp.lpart l with
  | 0 => none
  | p + 1 => some p

/-- The released logical cores of a partition, in rising order. -/
def Dev.releasedLcores (d : Dev) (p : Nat) : List Nat :=
  (List.range 256).filter (fun l => (d.partCores p).any (fun c => (d.core c).lcore == l && (d.core c).run != .reset))

/-! The inbox (R405-R407). -/

/-- The inbox word of vector `v`: CORE_INBOX[v / 64]. -/
def inboxOff (v : Nat) : Nat := 0x4400 + 8 * (v / 64)

/-- A message reaches a core's inbox: its vector is pending at the highest PRI that has arrived. -/
def Dev.inboxSet (d : Dev) (c : CoreId) (v pri : Nat) : Dev :=
  let was := d.flag (coreUid c) (inboxOff v) (v % 64)
  let old := SMap.get (fun _ => 0) (d.core c).inboxPri v
  let p := if was then max old (pri + 1) else pri + 1
  (d.setFlag (coreUid c) (inboxOff v) (v % 64) true).modCore c
    (fun k => { k with inboxPri := SMap.set (fun _ => 0) k.inboxPri v p })

/-- A vector leaves the inbox: taken, or discarded. -/
def Dev.inboxClear (d : Dev) (c : CoreId) (v : Nat) : Dev :=
  (d.setFlag (coreUid c) (inboxOff v) (v % 64) false).modCore c
    (fun k => { k with inboxPri := SMap.set (fun _ => 0) k.inboxPri v 0 })

/-- The pending vectors of a core. -/
def Dev.inboxPending (d : Dev) (c : CoreId) : List Nat :=
  (List.range 256).filter (fun v => d.flag (coreUid c) (inboxOff v) (v % 64))

/-- The pending vector that a core takes: highest priority, then lowest number (R406), with its priority. -/
def Dev.inboxNext (d : Dev) (c : CoreId) : Option (Nat × Nat) :=
  let pri (v : Nat) : Nat := SMap.get (fun _ => 0) (d.core c).inboxPri v - 1
  (d.inboxPending c).foldl (fun a v => match a with
    | none => some (v, pri v)
    | some (w, p) => if p < pri v then some (v, pri v) else some (w, p)) none

/-! Sources. -/

/-- Offset of a register of mailbox `m`. -/
def mbxOff (m r : Nat) : Nat := 0x4000 + 64 * m + r
/-- The mailbox block's storage. -/
def mbxU : Nat := mbxUid 0

/-- Whether an unmasked doorbell of mailbox `m` is set (R414). -/
def Dev.bellActive (d : Dev) (m : Nat) : Bool :=
  decide (d.fld mbxU (mbxOff m 0x18) 0 32 &&& (2 ^ 32 - 1 - d.fld mbxU (mbxOff m 0x20) 0 32) ≠ 0)

/-- Whether the input of a level source is active. -/
def Dev.levelActive (d : Dev) (n : Nat) : Bool :=
  if 0x100 ≤ n ∧ n < 0x200 then d.bellActive (n - 0x100) else d.evLevel.contains n

/-- Whether the controller has a message of source `n` to send (R399, R400). -/
def Dev.sourceReady (d : Dev) (n : Nat) : Bool :=
  let e := evcUid 0
  !d.flag e (offEvSrc n) 0 && !d.evKept.any (fun k => k.2.2.2 == n) &&
    (if d.flag e (offEvSrc n) 1 then d.levelActive n && !d.flag e (offEvSrc n) 41 else d.flag e (offEvSrc n) 40)

/-- The message of source `n` has been sent: INSERV of a level source; PEND of an edge source when the inbox has
accepted it. -/
def Dev.sourceSent (d : Dev) (n : Nat) (accepted : Bool) : Dev :=
  if d.flag (evcUid 0) (offEvSrc n) 1 then d.setFlag (evcUid 0) (offEvSrc n) 41 true
  else if accepted then d.setFlag (evcUid 0) (offEvSrc n) 40 false else d

/-- The first of a list above `last`, or the first of all: ascending rotation (R401). -/
def rotate (last : Option Nat) (ls : List Nat) : Option Nat :=
  match last with
  | none => ls.head?
  | some x => (ls.find? (fun l => decide (x < l))).orElse (fun _ => ls.head?)

/-- Whether a core's cluster is in Hold or Off, where the inbox takes nothing (R404). DEDUCED, log entry 27. -/
def Dev.coreHeld (d : Dev) (c : CoreId) : Bool := decide (3 ≤ d.power (coreUid c))

/-- A message reaches a core. In Doze and Nap it wakes the core's wait: Nap exit starts (R623). -/
def Dev.messageCore (d : Dev) (c : CoreId) (v pri : Nat) : Dev :=
  let d1 := d.inboxSet c v pri
  if d1.power (coreUid c) = 2 ∧ SMap.get (fun _ => 0) d1.pw.napWake c = 0 then
    { d1 with pw := { d1.pw with napWake := SMap.set (fun _ => 0) d1.pw.napWake c (d1.dt + 1) } }
  else d1

/-- Send the message of source `n` to a logical core: into the inbox of the core that runs it, or kept with a wake
request while its cluster is in Hold (R403, R404). A target that no core runs receives nothing. -/
def Dev.deliverLcore (d : Dev) (n l : Nat) : Dev :=
  let v := d.fld (evcUid 0) (offEvSrc n) 32 8
  let pri := d.fld (evcUid 0) (offEvSrc n) 24 4
  match (d.coresOf l).head? with
  | none => d
  | some c =>
    let d := d.traceEmit (evcUid (d.activeHub 10)) 0x06 (n + 2 ^ 12 * v + 2 ^ 20 * l) (d.lcorePart l)
    if d.coreHeld c then
      let k := coreCluster c
      { d.sourceSent n false with
        evKept := d.evKept ++ [(l, v, pri, n)],
        pw := { d.pw with wakeAsked := if d.pw.wakeAsked.contains k then d.pw.wakeAsked else k :: d.pw.wakeAsked } }
    else (d.messageCore c v pri).sourceSent n true

/-- EVENT_MESSAGE_DELIVERY: send the message of source `n`, if it has one (R399-R404, R819). A source reserved for the
keeper reaches no partition. -/
def Dev.deliver (d : Dev) (n : Nat) : Dev :=
  let e := evcUid 0; let a := offEvSrc n
  if d.sourceReady n = false then d
  else match d.fld e a 4 2 with
  | 0 => d.deliverLcore n (d.fld e a 16 8)
  | 1 =>
    let p := d.fld e a 8 8
    let last := match SMap.get (fun _ => 0) d.evRot p with | 0 => none | x + 1 => some x
    match rotate last (d.releasedLcores p) with
    | none => d
    | some l => ({ d with evRot := SMap.set (fun _ => 0) d.evRot p (l + 1) }).deliverLcore n l
  | _ =>
    let v := d.fld e a 32 8
    let pri := max (d.fld e a 24 4 + 1) (SMap.get (fun _ => 0) d.kp.inbox v)
    ({ d with kp := { d.kp with inbox := SMap.set (fun _ => 0) d.kp.inbox v pri } }).sourceSent n true

/-- The messages kept for the cores of a cluster enter their inboxes when it has left Hold (R404). -/
def Dev.deliverKept (d : Dev) (k : Nat) : Dev :=
  let mine (l : Nat) : Bool := (d.coresOf l).any (fun c => coreCluster c == k)
  let d1 := { d with evKept := d.evKept.filter (fun e => !mine e.1),
                     pw := { d.pw with wakeAsked := d.pw.wakeAsked.filter (fun j => j != k) } }
  forAll (d.evKept.filter (fun e => mine e.1)) (fun e d =>
    match (d.coresOf e.1).head? with
    | none => d
    | some c => (d.messageCore c e.2.1 e.2.2.1).sourceSent e.2.2.2 true) d1

/-- A write of 1 to EOI: INSERV clears, and an input still active sends a new message (R400). -/
def Dev.eoi (d : Dev) (n : Nat) : Dev :=
  if d.flag (evcUid 0) (offEvSrc n) 1 then (d.setFlag (evcUid 0) (offEvSrc n) 41 false).deliver n else d

/-- Whether a source is granted to the partition of an S-level access (R398). -/
def Dev.srcOwned (d : Dev) (n p : Nat) : Bool :=
  decide (d.fld (evcUid 0) (offEvSrc n) 4 2 ≤ 1) && d.fld (evcUid 0) (offEvSrc n) 8 8 == p

/-- The keeper's write of EV_SRC[n]: SENSE and POL of a fixed source are read-only; EOI acts (R397, R400). -/
def Dev.evSrcKWrite (d : Dev) (r : RegRow) (n : Nat) (v : Word) : Dev :=
  let off := offEvSrc n
  let v' := match fixedSense n with
    | some b => setBit (setBit v 1 b) 2 false
    | none => v
  let d1 := d.regStore (evcUid 0) r n v'
  let d2 := d1.setFld (evcUid 0) off 40 2 (d.fld (evcUid 0) off 40 2)
  if bit v 42 then d2.eoi n else d2

/-- An S-level write of EV_SRC[n]: MASK and EOI only (R398). -/
def Dev.evSrcSWrite (d : Dev) (p n : Nat) (v : Word) : Dev × Answer :=
  if d.srcOwned n p then
    let d1 := d.setFlag (evcUid 0) (offEvSrc n) 0 (bit v 0)
    (if bit v 42 then d1.eoi n else d1, .data [])
  else (d, .err errNotPermitted)

/-- A write to CORE_INBOX[k]: each 1 discards the pending vector (R407 table). -/
def Dev.inboxWrite (d : Dev) (c : CoreId) (k : Nat) (v : Word) : Dev :=
  forUpto 64 (fun i d => if bit v i then d.inboxClear c (64 * k + i) else d) d

/-! Mailboxes (R408-R418). -/

/-- Whether a partition holds the MSG right (`bell = false`) or the BELL right on mailbox `m` (R409). -/
def Dev.mbxRight (d : Dev) (p m : Nat) (bell : Bool) : Bool :=
  if 256 ≤ m then !bell
  else d.lcorePart m == some p || d.flag mbxU (0x9000 + 64 * p + 8 * (m / 32)) (2 * (m % 32) + bell.toNat)

/-- Whether a partition owns mailbox `m`. -/
def Dev.mbxOwner (d : Dev) (p m : Nat) : Bool := decide (m < 256) && d.lcorePart m == some p

/-- Perform a permitted write to MBX_MSG (R411). The sender is a logical core, or the keeper (`none`). -/
def Dev.mbxMsg (d : Dev) (m : Nat) (sender : Option Nat) (v : Word) : Dev × Answer :=
  let st := mbxOff m 8
  if d.flag mbxU st 0 then (d.setFlag mbxU st 2 true, .err errMbxFull)
  else
    let d1 := d.setReg mbxU (mbxOff m 0) v
    let ovr := (d.flag mbxU st 2).toNat
    let w := match sender with
      | some l => 1 + at_ ovr 2 1 + at_ l 8 8
      | none => 1 + at_ ovr 2 1 + at_ 1 16 1
    let d2 := d1.setReg mbxU st (BitVec.ofNat 64 w)
    (if m < 256 then d2.raiseEdge m else d2, .data [])

/-- Perform an acknowledge of mailbox `m` with a code (R412). -/
def Dev.mbxAck (d : Dev) (m : Nat) (v : Word) : Dev × Answer :=
  let st := mbxOff m 8
  if bit v 32 = false then (d, .data [])
  else if d.flag mbxU st 0 = false then (d, .err errRefused)
  else
    let d1 := d.setReg mbxU (mbxOff m 0x10) (BitVec.ofNat 64 (bits v 0 32))
    let d2 := (d1.setFlag mbxU st 0 false).setFlag mbxU st 1 true
    if d2.flag mbxU st 16 then (d2.relayAck m (bits v 0 32), .data [])
    else
      let s := d2.fld mbxU st 8 8
      ((d2.setReg mbxU (0xD000 + 8 * s) (BitVec.ofNat 64 (bits v 0 32 + at_ m 32 9 + at_ 1 41 1))).raiseEdge (0x200 + s),
        .data [])

/-- Offset of RMBX_DEST[r]; RMBX_MSG and RMBX_STAT follow it. -/
def offProxy (r : Nat) : Nat := 0xE000 + 32 * r

/-- A permitted write of RMBX_MSG[r]: refused while FULL is 1, otherwise sent (R544). DEDUCED, log entry 59. -/
def Dev.proxyWrite (d : Dev) (r : Nat) (v : Word) : Dev × Answer :=
  let st := offProxy r + 0x10; let dest := d.reg mbxU (offProxy r)
  if d.flag mbxU st 0 then (d.setFlag mbxU st 2 true, .err errMbxFull)
  else
    let d1 := d.setReg mbxU (offProxy r + 8) v
    let d2 := d1.setReg mbxU st (BitVec.ofNat 64 (1 + at_ (d.flag mbxU st 2).toNat 2 1 + at_ (d.fld mbxU st 32 32) 32 32))
    let d3 := { d2 with nt := { d2.nt with proxyAt := SMap.set (fun _ => 0) d2.nt.proxyAt r (d.dt + 1) } }
    ((d3.trelubUnit (bits dest 9 12) 3 0 (natLe 1 (16 * r + bits dest 21 4) ++ natLe 8 v.toNat)).1, .data [])

/-- Whether proxy `r` is in use and a partition's (R544). DEDUCED, log entry 59. -/
def Dev.proxyOf (d : Dev) (p r : Nat) : Bool := d.flag mbxU (offProxy r) 0 && d.fld mbxU (offProxy r) 1 8 == p

/-- Perform a write to MBX_BELL: bits 30 and 31 only by the keeper (R415). -/
def Dev.mbxBell (d : Dev) (m : Nat) (keeper : Bool) (v : Word) : Dev :=
  let x := if keeper then bits v 0 32 else bits v 0 30
  d.setReg mbxU (mbxOff m 0x18) (BitVec.ofNat 64 (d.fld mbxU (mbxOff m 0x18) 0 32 ||| x))

/-- Perform a write to MBX_BELLCLR: each 1 clears the doorbell bit. -/
def Dev.mbxBellClr (d : Dev) (m : Nat) (v : Word) : Dev :=
  d.setReg mbxU (mbxOff m 0x18)
    (BitVec.ofNat 64 (d.fld mbxU (mbxOff m 0x18) 0 32 &&& (2 ^ 32 - 1 - bits v 0 32)))

/-- The keeper posts a notice to a partition and rings doorbell 31 of its logical cores (R415). -/
def Dev.postNotice (d : Dev) (p : Nat) (n : List Byte) : Dev :=
  forAll ((List.range 256).filter (fun l => d.lcorePart l == some p))
    (fun l d => d.mbxBell l true (BitVec.ofNat 64 (2 ^ 31)))
    { d with kp := { d.kp with notices := d.kp.notices ++ [(p, n)] } }

/-! The commands of the event controller. -/

/-- EVENT_EDGE (R399): an active edge at the input of an edge source sets PEND; one that is pending absorbs it. -/
def execEventEdge (n : BitVec 12) (s : State) : Host.Outcome State Fault Refusal :=
  onDev (fun d => d.raiseEdge n.toNat) s

/-- EVENT_LEVEL_CHANGE (R400): a level input becomes active or inactive. -/
def execEventLevelChange (n : BitVec 12) (on : Bool) (s : State) : Host.Outcome State Fault Refusal :=
  onDev (fun d => if d.flag (evcUid 0) (offEvSrc n.toNat) 1 then d.setLevel n.toNat on else d) s

/-- EVENT_MESSAGE_DELIVERY (R403): the controller sends the message of a source. -/
def execEventMessageDelivery (n : BitVec 12) (s : State) : Host.Outcome State Fault Refusal :=
  onDev (fun d => d.deliver n.toNat) s

end Sys2Proof.Machine
end

