-- ==== Sys2Proof/Machine/Resets.lean ====
section
/-!
DEFINITION. Retention classes and what each kind of reset takes away (R14, R334, R388, R643, R651-R654).
-/
namespace Sys2Proof.Machine

/-- A register after an event that loses some classes: every field of a lost class is at its reset value. The summary
STALL_UNIT follows the stall bounds (R79), so it is lost with class S. DEDUCED, log entry 36. -/
def loseFields (lost : RClass → Bool) (key : Nat) (v : Word) : Word :=
  match regAt (key / 65536) (key % 65536) with
  | none => v
  | some (r, i) =>
    let rst := resetWord (key / 65536) r i
    if r.name = .stallUnit then (if lost .S then rst else v)
    else r.fields.foldl (fun a f => if lost (fieldCls r f) then setBits a f.lo f.w (bits rst f.lo f.w) else a) v

/-- Lose register classes in the units that a reset reaches. `reach` takes the unit ID and the offset. -/
def Dev.loseRegs (d : Dev) (reach : Nat → Nat → Bool) (lost : RClass → Bool) : Dev :=
  let f := fun k v => if reach (k / 65536) (k % 65536) then loseFields lost k v else v
  { d with regs := SMap.mapVals regReset f d.regs }

/-- Classes that a unit reset loses (Table 15-9). -/
def lostUnit : RClass → Bool
  | .L | .V => true
  | _ => false
/-- Classes that a warm reset loses. -/
def lostWarm : RClass → Bool
  | .S | .L | .V => true
  | _ => false
/-- Classes that a power-on reset loses. -/
def lostPowerOn : RClass → Bool
  | .W | .S | .L | .V => true
  | _ => false
/-- Classes that a debug-domain reset loses. -/
def lostDebug : RClass → Bool
  | .D => true
  | _ => false
/-- Classes that Hold, region Off and Deep lose; the records that Hold saves are kept by the caller. -/
def lostPower : RClass → Bool
  | .L | .V => true
  | _ => false

/-- A core at reset that keeps its placement. -/
def resetCore (k : Core) : Core :=
  { Core.initial with placed := k.placed, lcore := k.lcore, part := k.part, rep := k.rep, tier := k.tier, cmask := k.cmask }

/-- Clear a core's local store, with its check bits (R257). -/
def Dev.clearLocal (d : Dev) (c : Nat) : Dev :=
  { d with localStore := SMap.keep (fun k => k / 2 ^ 17 != c) d.localStore,
           localErr := SMap.keep (fun k => k / 2 ^ 14 != c) d.localErr }

/-- The reservation of a core is lost. -/
def Dev.dropResv (d : Dev) (c : Nat) : Dev := { d with resv := SMap.erase d.resv c }

/-- CORE_RESET of Table 15-8: one physical core, its L1s and its local store. -/
def Dev.coreReset (d : Dev) (c : CoreId) : Dev :=
  let d1 := (d.clearLocal c).dropResv c
  (d1.loseRegs (fun u _ => u == coreUid c) lostUnit).modCore c resetCore

/-- The cores of a cluster. -/
def clusterCores (k : Nat) : List CoreId := (List.range 4).map (fun i => coreId (4 * k + i))

/-- Discard a cluster's caches without writing back, and its retention record (R334, R653). A record that held cores
makes the keeper treat the cluster as fenced. DEDUCED, log entry 42. -/
def Dev.dropCluster (d : Dev) (k : Nat) : Dev :=
  let d1 := (d.dropCache (l2Uid k)).dropCache (l3Uid k)
  let was := d1.pw.held.contains k && (clusterCores k).any (fun c => (d1.core c).placed)
  { d1 with
    pw := { d1.pw with held := d1.pw.held.filter (fun j => j != k), holdWake := SMap.erase d1.pw.holdWake k },
    kp := { d1.kp with lost := if was && !d1.kp.lost.contains k then k :: d1.kp.lost else d1.kp.lost } }

/-- CLUSTER_RESET: four cores, L2, L3 slice and the local ports of the mesh stop (ports 4 and 5 of Table 2-6). -/
def Dev.clusterReset (d : Dev) (k : Nat) : Dev :=
  let d1 := forAll (clusterCores k) (fun c d => d.coreReset c) d
  let d2 := (d1.dropCluster k).loseRegs (fun u _ => u == l2Uid k || u == l3Uid k) lostUnit
  d2.setFld (cstopUid k) 0x1008 4 2 0

/-- The clusters of a global region. -/
def regionClusters (g : Nat) : List Nat := (List.range 9).map (fun i => 9 * g + i)

/-- REGION_RESET: nine clusters, the region control and the region's retention SRAM. -/
def Dev.regionReset (d : Dev) (g : Nat) : Dev :=
  let d1 := forAll (regionClusters g) (fun k d => d.clusterReset k) d
  let d2 := d1.loseRegs (fun u _ => u == regionUid g) lostUnit
  { d2 with tm := { d2.tm with tc := SMap.keep (fun k => k / 9 != g) d2.tm.tc },
            regionSram := SMap.keep (fun a => a / 2 ^ 20 != g) d2.regionSram }

/-- Units on hub 0 that a die reset and a warm reset do not reach: the Harebell block with the always-on domain and the
time base, and the debug domain (R36, R651). -/
def alwaysOn (u : Nat) : Bool := u == hbUid || u == dbgUid

/-- Whether a register is held by both hubs, so that the loss of one loses nothing (R394, R428). DEDUCED, log entry 17. -/
def mirroredReg (u off : Nat) : Bool :=
  ((u == evcUid 0 || u == mbxUid 0) && decide (0x4000 ≤ off) && decide (off < 0xF000)) ||
    (u == hubUid 0 && decide (0x7000 ≤ off) && decide (off < 0x8000))

/-- Every cache unit of a die. -/
def dieCaches (die : Nat) : List Nat :=
  if die < 4 then (List.range 18).flatMap (fun i => [l2Uid (18 * die + i), l3Uid (18 * die + i)])
  else (List.range 4).map (fun i => xsliceUid (die - 4) i)

/-- Latch every pad group (R643). -/
def Dev.padLatch (d : Dev) : Dev :=
  let d1 := d.setFld hbUid 0x9010 0 10 0x3FF
  { d1 with pw := { d1.pw with padWait := [] } }

/-- DIE_RESET: every unit of the die; on hub 0, not what R36 excludes. A die reset of hub 0 latches the pads. The
keeper treats every cluster of a reset compute die as fenced (R44). -/
def Dev.dieReset (d : Dev) (die : Nat) : Dev :=
  let d1 := if die < 4 then forUpto 2 (fun r d => d.regionReset (2 * die + r)) d else
    forAll (dieCaches die) (fun u d => d.dropCache u) d
  let d2 := d1.loseRegs (fun u off => uidDie u == die && !alwaysOn u && !mirroredReg u off) lostUnit
  if die < 4 then
    let ks := (List.range 18).map (fun i => 18 * die + i)
    { d2 with kp := { d2.kp with lost := d2.kp.lost ++ ks.filter (fun k => !d2.kp.lost.contains k) } }
  else
    let clr (_ : Nat) (v : Word) : Word := setBits v 50 10 0
    let d3 := { d2 with routes := if die = 4 then SMap.mapVals (fun _ => (0x1F80 : Word)) clr d2.routes else d2.routes,
                        nt := { d2.nt with links := SMap.keep (fun l => decide (l / 20 ≠ die - 4)) d2.nt.links },
                        keeperSram := SMap.keep (fun a => a / 2 ^ 19 != die - 4) d2.keeperSram }
    if die = 4 then d3.padLatch else d3

/-- FENCED and the device marks are set again from the journal (R27, R367). -/
def Dev.fenceRestore (d : Dev) : Dev :=
  forAll d.nv.marks (fun e d => (d.setFlag (mcUid e.1) (0x4200 + 8 * e.2.1) 0 true).setFld (mcUid e.1)
    (0x4200 + 8 * e.2.1) 1 4 e.2.2) (forAll d.nv.fenced (fun u d => d.setFlag u 8 4 true) d)

/-- Every core at reset and not placed. -/
def Dev.resetCores (d : Dev) : Dev := { d with cores := Vector.replicate 288 Core.initial }

/-- The state beside the registers that every reset of the whole of dies 0-5 takes away: cores, caches, local stores,
retention records, events and mailboxes in flight, and what the keeper held for its work. -/
def Dev.loseDies (d : Dev) : Dev :=
  { d.resetCores with
    resv := [], localStore := [], localErr := [], l2 := [], homes := [], mcCount := [], evLevel := [], evRot := [],
    logQ := [], evKept := [],
    tm := { d.tm with tc := [], noTick := [] },
    pw := { d.pw with held := [], holdWake := [], napWake := [], regionWake := [], deep := .run, keeperOnly := false,
                      votes := [], holdAsked := [], wakeAsked := [], nvBusy := false, warmWaits := false, hot := [] },
    kp := KeeperSt.initial,
    au := AudioSt.initial, ep := EpochSt.initial, rm := ⟨[], [], []⟩, nt := NetSt.initial, snaps := [],
    keeperSram := [], regionSram := [],
    sv := { d.sv with wdogAt := [], wdogHeld := [], crbAt := [], rh := { d.sv.rh with step := 0, peerAt := 0, clusters := [] } },
    bt := { BootSt.initial with golden := d.bt.golden, bench := d.bt.bench, strapped := d.bt.strapped, residents := d.bt.residents, digest := d.bt.digest },
    ch := { d.ch with openRow := [], acts := [], halfRefi := [] } }

/-- Set PWR_CAUSE.RESET and count the boot in ELOG_CTL. DEDUCED, log entry 48. -/
def Dev.resetCause (d : Dev) (cause : Nat) : Dev :=
  ((d.setFld hbUid 0x9020 0 4 cause).setFld hbUid 0x9020 4 4 0).incFld hbUid 0xC000 48 16

/-- WARM_RESET: every unit of dies 0-5 loses classes S, L and V. The channels keep their training, sparing and
initialisation state with the SDRAM contents (R388), the pads are latched, and FENCED is set again from the journal.
DEDUCED, log entry 36. -/
def Dev.warmReset (d : Dev) (cause : Nat) : Dev :=
  let keep := (List.range 12).map (fun c => (c, d.reg (mcUid c) 0x4030, d.reg (mcUid c) 0x4000))
  let d1 := ({ d.loseDies with routes := [] }).loseRegs (fun u _ => !alwaysOn u) lostWarm
  let d2 := forAll keep (fun e d =>
    (d.setReg (mcUid e.1) 0x4030 (e.2.1 &&& 0x3FE0F)).setReg (mcUid e.1) 0x4000 e.2.2) d1
  let (f, d3) := (((d2.padLatch).resetCause cause).fenceRestore).draw
  -- R717: the sentinel restarts at 10,000 ms; RH_KEY is drawn again.
  ({ d3 with sv := { d3.sv with sentAt := d3.dt, sentMs := 10000, rhKey := BitVec.ofNat 64 f } }).setReg hbUid 0xA000 10000

/-- POWER_ON_RESET: also the always-on domain, the time base and Harebell; DT starts at 0 (R89). Class A, the
retained memory, the debug domain and the non-volatile contents stay. DEDUCED, log entry 37. -/
def Dev.powerOnReset (d : Dev) (cause : Nat) : Dev :=
  let d1 := (d.loseDies).loseRegs (fun _ _ => true) lostPowerOn
  let d2 := { d1 with
    dt := 0, sdram := [], sdramErr := [], routes := [],
    tm := ⟨[], [], none, 0⟩, pw := PowerSt.initial, hb := ⟨[], [], 0, [], [], []⟩, ch := { d1.ch with scrub := [] },
    bt := { d1.bt with strapped := false } }
  let (f, d3) := ((d2.resetCause cause).fenceRestore).draw
  { d3 with sv := { SurviveSt.initial (BitVec.ofNat 64 f) with rh := { d3.sv.rh with step := 0, peerAt := 0, clusters := [] } } }

/-- Reset the mailboxes of a partition's logical cores to their reset values (R651, Table 15-10). -/
def Dev.resetMailboxes (d : Dev) (p : Nat) : Dev :=
  forAll ((List.range 256).filter (fun l => d.lcorePart l == some p)) (fun l d =>
    { d with regs := d.regs.filter (fun e => !(decide (mbxU * 65536 + mbxOff l 0 ≤ e.1) &&
        decide (e.1 < mbxU * 65536 + mbxOff l 0x40)) && e.1 != mbxU * 65536 + 0xD000 + 8 * l) }) d

/-- The unit IDs that a partition owns in mode "owned". -/
def Dev.ownedUnits (d : Dev) (p : Nat) : List Nat :=
  ((List.range 10).map quadUid ++ (List.range 4).map pcieUid ++ (List.range 2).map mgtUid ++
    (List.range 4).map tdmUid ++ (List.range 4).map seUid).filter
      (fun u => d.fld u 0x10 8 2 == 1 && d.fld u 0x10 0 8 == p)

/-- The part of PARTITION_RESET that stops the partition: a core reset of each of its logical cores, its mailboxes and
Deep vote, then its rings and apertures disabled (R651, R652). -/
def Dev.partitionStop (d : Dev) (p : Nat) : Dev :=
  let d1 := forAll (d.partCores p) (fun c d => d.coreReset c) d
  let d2 := d1.resetMailboxes p
  let d3 := { d2 with pw := { d2.pw with votes := d2.pw.votes.filter (fun q => q != p),
                                          holdAsked := d2.pw.holdAsked.filter (fun q => q != p) },
                      kp := { d2.kp with released := d2.kp.released.filter (fun q => q != p) } }
  forAll (d3.ownedUnits p) (fun u d =>
    match unitKind u with
    | some .quad => forUpto 8 (fun i d => d.setFlag u (0x4200 + 16 * i) 0 false) d
    | some .mgt => forUpto 2 (fun i d => d.setFlag u (0x4200 + 16 * i) 0 false) d
    | some .pcie => forUpto 7 (fun i d => d.setFlag u (0x4100 + 8 * i) 0 false) d
    | _ => d) d3

end Sys2Proof.Machine
end

