-- ==== Sys2Proof/Machine/Chan.lean ====
section
/-!
DEFINITION. The commands of the memory channels: reads and writes, bring-up, scrub, sparing, mirroring and refresh
(R353-R391).
-/
namespace Sys2Proof.Machine

/-! Open rows (R358, R373, R382, R383). -/

/-- Row of a channel-local address. -/
def Dev.rowOf (d : Dev) (ch l : Nat) : Nat := l / 2 ^ 19 % 2 ^ (d.rowTop ch - 19)

/-- Key of the bank of a channel-local address: bank group and bank are hashed with the row (Table 8-2). -/
def Dev.bankOf (d : Dev) (ch l : Nat) : Nat :=
  let row := d.rowOf ch l
  let bg := (l / 2 ^ 8 % 8) ^^^ (row % 8)
  let ba := (l / 2 ^ 17 % 4) ^^^ (row / 8 % 4)
  ch * 1024 + d.rankOf ch l * 256 + subchOf l * 32 + bg * 4 + ba

/-- An access to a bank: a row that is not open is activated and the activate is counted; the draw of R382 and the
threshold of the DRAM's mode register 58 (R383) are open values. An "open" access leaves its row open. -/
def Dev.touchRow (d : Dev) (ch l : Nat) (stay : Bool) : Dev :=
  let b := d.bankOf ch l; let row := d.rowOf ch l
  let hit := SMap.get (fun _ => 0) d.ch.openRow b == row + 1
  let d1 := if hit then d else
    let (f, d2) := d.draw
    let n := SMap.get (fun _ => 0) d2.ch.acts b + 1
    let managed := d2.flag (mcUid ch) 0x4008 22 && f % 2 == 1
    { d2 with ch := { d2.ch with acts := SMap.set (fun _ => 0) d2.ch.acts b (if managed then 0 else n) } }
  { d1 with ch := { d1.ch with openRow := SMap.set (fun _ => 0) d1.ch.openRow b (if stay then row + 1 else 0) } }

/-- The row access that a request to an SDRAM address makes. -/
def Dev.touchAddr (d : Dev) (pa : Nat) (stay : Bool) : Dev :=
  match d.rangeOf pa with
  | none => d
  | some n => let (ch, l) := d.decodeIn n pa; d.touchRow ch l stay

/-- The answer that a sector read gives. -/
def sectorAnswer : Except Nat Sector → Answer
  | .ok s => .data (natLe 64 s.toNat)
  | .error e => .err e
/-- The answer that a write gives. -/
def unitAnswer : Except Nat Unit → Answer
  | .ok _ => .data []
  | .error e => .err e

/-- MEM_READ (R361-R368, R384): a channel serves a read of the codeword of an address. `stay` is the page hint. -/
def execMemRead (pa : BitVec 48) (stay : Bool) (s : State) : Host.Outcome State Fault Refusal :=
  onDev (fun d =>
    let (d1, r) := (d.touchAddr pa.toNat stay).sdramRead (pa.toNat / 64 * 64) 0
    d1.answer (sectorAnswer r)) s

/-- MEM_WRITE (R368): a full-codeword write, to both sides of a mirror. -/
def execMemWrite (pa : BitVec 48) (data : BitVec 512) (stay : Bool) (s : State) : Host.Outcome State Fault Refusal :=
  onDev (fun d =>
    let (d1, r) := (d.touchAddr pa.toNat stay).sdramWrite (pa.toNat / 64 * 64) data []
    d1.answer (unitAnswer r)) s

/-- MEM_PARTIAL_WRITE (R366): bytes within one sector; a read, a merge and a write of the whole codeword. A list that
is empty or leaves its sector is no request of a home. -/
def execMemPartialWrite (pa : BitVec 48) (bs : List Byte) (s : State) : Host.Outcome State Fault Refusal :=
  onDev (fun d =>
    if bs = [] ∨ 64 < pa.toNat % 64 + bs.length then d
    else
      let (d1, r) := (d.touchAddr pa.toNat true).sdramMerge pa.toNat bs
      d1.answer (unitAnswer r)) s

/-! Bring-up (R386-R388). -/

/-- STATE, TRAIN_SRC and INIT_BLK of a channel. -/
def Dev.mcState (d : Dev) (ch : Nat) : Nat := d.fld (mcUid ch) 0x4030 0 2
def Dev.trainSrc (d : Dev) (ch : Nat) : Nat := d.fld (mcUid ch) 0x4030 2 2
def Dev.initBlk (d : Dev) (ch : Nat) : Nat := d.fld (mcUid ch) 0x4030 9 9

/-- Capacity of a channel in GiB, less a spare rank (R358, R370). -/
def Dev.capacity (d : Dev) (ch : Nat) : Nat :=
  let v := d.reg (mcUid ch) 0x4000
  let ranks := bits v 3 2 * (if bit v 5 then 2 else 1)
  (ranks - (if bit v 7 then 1 else 0)) * (if bit v 6 then 64 else 32)

/-- SPD_READ (R353-R355, R386): the DIMMs of a channel are checked; `supported` says whether each is one of Table 8-1,
the part numbers must match, and a rate of two DIMMs is at most 6,400 MT/s. A refused channel stays unpopulated. -/
def execSpdRead (ch : Fin 12) (supported : Bool) (cfg : BitVec 7) (part0 part1 : Word) (s : State) :
    Host.Outcome State Fault Refusal :=
  onDev (fun d =>
    let dpc := bits cfg 3 2; let rate := bits cfg 0 3
    let ok := supported && (dpc == 1 || (dpc == 2 && part0 == part1 && decide (rate ≤ 2))) && decide (rate ≤ 4)
    if d.mcState ch ≠ 0 then d
    else if ok then
      let d1 := (d.setFld (mcUid ch) 0x4000 0 7 cfg.toNat).setFld (mcUid ch) 0x4030 0 2 1
      { d1 with ch := { d1.ch with populated := ch.val :: d1.ch.populated.filter (fun c => c != ch.val) } }
    else { d with ch := { d.ch with populated := d.ch.populated.filter (fun c => c != ch.val) } }) s

/-- STORED_TRAINING_LOAD (R386): a stored record whose CRC, serial numbers and pattern check are good is loaded. -/
def execStoredTrainingLoad (ch : Fin 12) (good : Bool) (s : State) : Host.Outcome State Fault Refusal :=
  onDev (fun d =>
    if d.mcState ch = 1 ∧ d.trainSrc ch = 0 ∧ d.ch.trained.contains ch.val ∧ good then
      d.setFld (mcUid ch) 0x4030 2 2 2 else d) s

/-- FULL_TRAINING (R386): full training of a populated channel completes. -/
def execFullTraining (ch : Fin 12) (s : State) : Host.Outcome State Fault Refusal :=
  onDev (fun d =>
    if d.mcState ch = 1 ∧ d.ch.populated.contains ch.val then d.setFld (mcUid ch) 0x4030 2 2 1 else d) s

/-- Whether a non-volatile write may start (R646, R648). -/
def Dev.nvAllowed (d : Dev) : Bool := !d.flag hbUid 0x9030 0 && d.flag hbUid 0x9030 15

/-- TRAINING_RECORD_WRITE (R386): after full training, when the supply monitors permit. -/
def execTrainingRecordWrite (ch : Fin 12) (s : State) : Host.Outcome State Fault Refusal :=
  onDev (fun d =>
    if d.trainSrc ch = 1 ∧ d.nvAllowed ∧ d.ch.trained.contains ch.val = false then
      { d with ch := { d.ch with trained := ch.val :: d.ch.trained } } else d) s

/-- Drop every entry of a map whose key lies in a range. -/
def dropRange {α : Type} (m : SMap α) (lo n : Nat) : SMap α := SMap.keep (fun k => decide (k < lo) || decide (lo + n ≤ k)) m

/-- INIT_BLOCK_DONE (R386, R387): the next 1 GiB block holds zero data and valid check symbols; with the last one the
channel is ready and scrub starts. -/
def execInitBlockDone (ch : Fin 12) (s : State) : Host.Outcome State Fault Refusal :=
  onDev (fun d =>
    if d.mcState ch = 1 ∧ d.trainSrc ch ≠ 0 ∧ d.initBlk ch < d.capacity ch then
      let b := d.initBlk ch
      let d1 := { d with sdram := dropRange d.sdram (sdKey ch (b * 2 ^ 30)) (2 ^ 30),
                         sdramErr := dropRange d.sdramErr (cwKey ch (b * 2 ^ 30)) (2 ^ 24) }
      let d2 := d1.setFld (mcUid ch) 0x4030 9 9 (b + 1)
      if b + 1 = d.capacity ch then d2.setFld (mcUid ch) 0x4030 0 2 2 else d2
    else d) s

/-! Mirroring and sparing (R368-R370). -/

/-- Copy every listed byte of a stretch of one channel to another place of the SDRAM store. -/
def Dev.copySdram (d : Dev) (src dst n : Nat) : Dev :=
  let bs := d.sdram.filter (fun e => decide (src ≤ e.1) && decide (e.1 < src + n))
  { d with sdram := bs.foldl (fun m e => SMap.set zeroByte m (e.1 - src + dst) e.2) (dropRange d.sdram dst n) }

/-- Clear the wrong positions of the codewords of a stretch, which a copy writes with new check symbols. -/
def Dev.cleanErrs (d : Dev) (lo n : Nat) : Dev := { d with sdramErr := dropRange d.sdramErr lo n }

/-- MIRROR_REBUILD_DONE (R369): every codeword of a mirrored range has been copied onto the returned channel, and
DEGRADED clears in both hubs. -/
def execMirrorRebuildDone (n : Fin 16) (s : State) : Host.Outcome State Fault Refusal :=
  onDev (fun d =>
    let a := offRange n + 8; let u := hubUid 0
    let chans := (List.range 12).filter (fun c => d.flag u a c)
    if d.flag u a 13 ∧ d.flag u a 14 ∧ chans.all (fun c => !d.fenced (mcUid c) && !d.fenced (mcUid (c + 6))) then
      let l := d.fld u a 30 8 * 2 ^ 30; let len := d.rangeSize n / max 1 chans.length
      let d1 := forAll chans (fun c d =>
        if d.ch.stale.contains c then (d.copySdram (sdKey (c + 6) l) (sdKey c l) len).cleanErrs (cwKey c l) (len / 64)
        else if d.ch.stale.contains (c + 6) then
          (d.copySdram (sdKey c l) (sdKey (c + 6) l) len).cleanErrs (cwKey (c + 6) l) (len / 64)
        else d) d
      let d2 := { d1 with ch := { d1.ch with stale :=
                            d1.ch.stale.filter (fun c => !chans.contains c && !chans.contains (c - 6)) } }
      (d2.setFlag (hubUid 0) a 14 false).setFlag (hubUid 1) a 14 false
    else d) s

/-- A write of MC_CFG: the ordinary fields, then SPARE_GO (R370). -/
def Dev.mcCfgWrite (d : Dev) (u : Nat) (r : RegRow) (v : Word) : Dev :=
  let was := d.flag u 0x4000 12
  let d1 := d.regStore u r 0 v
  if bit v 12 && !was then
    if d1.flag u 0x4000 7 && d1.fld u 0x4000 13 2 == 0 then d1.setFld u 0x4000 13 2 1 else d1.setFlag u 0x4000 12 false
  else d1

/-- SPARE_COPY_DONE (R370): the rank's contents are on the spare rank, which is in use from here on. -/
def execSpareCopyDone (ch : Fin 12) (s : State) : Host.Outcome State Fault Refusal :=
  onDev (fun d =>
    let u := mcUid ch
    if d.fld u 0x4000 13 2 = 1 then
      let rank := 2 ^ d.rowTop ch
      let src := d.fld u 0x4000 10 2 * rank; let dst := d.fld u 0x4000 8 2 * rank
      let d1 := (d.copySdram (sdKey ch src) (sdKey ch dst) rank).cleanErrs (cwKey ch dst) (rank / 64)
      ((d1.setFld u 0x4000 13 2 2).setFld u 0x4000 15 2 (d.fld u 0x4000 10 2)).setFlag u 0x4000 12 false
    else d) s

/-! Scrub and refresh (R371, R380, R389). -/

/-- PATROL_SCRUB_READ (R371): the next codeword in ascending local address is read and a correction written back. With
the last one the pass is counted and the counts of R367 start again. -/
def execPatrolScrubRead (ch : Fin 12) (s : State) : Host.Outcome State Fault Refusal :=
  onDev (fun d =>
    let u := mcUid ch
    if d.flag u 0x4010 0 ∧ d.mcState ch = 2 ∧ 0 < d.capacity ch then
      let i := SMap.get (fun _ => 0) d.ch.scrub ch
      let d1 := ((d.touchRow ch (64 * i) true).mcRead ch (64 * i) 1 true).1
      let last := i + 1 = d.capacity ch * 2 ^ 24
      let d2 := { d1 with ch := { d1.ch with scrub := SMap.set (fun _ => 0) d1.ch.scrub ch (if last then 0 else i + 1) } }
      if last then
        let d3 := { d2 with mcCount := SMap.keep (fun k => k / 128 != ch.val) d2.mcCount }
        (forUpto 8 (fun m d => (d.setFld u (0x4200 + 8 * m) 16 16 0).setFld u (0x4200 + 8 * m) 32 4 0) d3).wrapFld u 0x4010 32 16
      else d2
    else d) s

/-- REFRESH_DUE (R380): issued, or postponed under panic up to four intervals; outside panic a postponed one is also
repaid. -/
def execRefreshDue (ch : Fin 12) (s : State) : Host.Outcome State Fault Refusal :=
  onDev (fun d =>
    let u := mcUid ch; let n := d.fld u 0x4030 6 3
    if d.mcState ch ≠ 2 then d
    else if d.fld u 0x4030 4 2 = 2 then (if n < 4 then d.setFld u 0x4030 6 3 (n + 1) else d)
    else d.setFld u 0x4030 6 3 (n - 1)) s

/-- REFRESH_RATE_POLL (R380): mode register 4 asks for half the interval, or no longer does. -/
def execRefreshRatePoll (ch : Fin 12) (half : Bool) (s : State) : Host.Outcome State Fault Refusal :=
  onDev (fun d =>
    let rest := d.ch.halfRefi.filter (fun c => c != ch.val)
    { d with ch := { d.ch with halfRefi := if half then ch.val :: rest else rest } }) s

/-- OPEN_ROW_IDLE_CLOSE (R373): a bank idle for OPEN_IDLE × 8 ns closes its row. -/
def execOpenRowIdleClose (ch : Fin 12) (bank : Fin 1024) (s : State) : Host.Outcome State Fault Refusal :=
  onDev (fun d => { d with ch := { d.ch with openRow := SMap.set (fun _ => 0) d.ch.openRow (ch.val * 1024 + bank.val) 0 } }) s

/-- ZQ_CALIBRATION (R389): it takes a gap in each rank and changes nothing that an access reads. -/
def execZqCalibration (_ch : Fin 12) (s : State) : Host.Outcome State Fault Refusal :=
  onDev (fun d => d) s

end Sys2Proof.Machine
end

