-- ==== Sys2Proof/Machine/DieTime.lean ====
section
/-!
DEFINITION. Die temperature, pace and the slack governor, stall watchdogs, the time base and its counters (R42-R44,
R54-R95, R806).
-/
namespace Sys2Proof.Machine

/-- A 12-bit temperature in units of 1/8 °C as an integer. -/
def tempOf (t : BitVec 12) : Int := signedOf 12 t.toNat

/-- TEMP_CONVERSION (R42-R44): DIE_TEMP takes the highest reading. A rise through WARN raises a corrected record and,
with WARN_EV, the die's thermal source; the condition clears 3 °C below WARN. A rise through CRIT logs a fenced record
and, with CRIT_EN, resets the die. -/
def Dev.tempConversion (d : Dev) (die : Fin 6) (t : BitVec 12) (sensor : BitVec 4) : Dev :=
  let u := dieUid die
  let now := tempOf t
  let was := if d.flag u 0x4000 12 then tempOf (BitVec.ofNat 12 (d.fld u 0x4000 0 12)) else -2048
  let warn : Int := 8 * (d.fld u 0x4008 0 8 : Int); let crit : Int := 8 * (d.fld u 0x4008 8 8 : Int)
  let d1 := d.setReg u 0x4000 (BitVec.ofNat 64 (t.toNat + 2 ^ 12 + at_ sensor.toNat 16 4))
  let hot := d1.pw.hot.contains die
  let d2 :=
    if hot = false ∧ warn ≤ now then
      let d3 := ({ d1 with pw := { d1.pw with hot := die.val :: d1.pw.hot } }).raise u (Rec.plain 0x0205 1 t.toNat)
      if d.flag u 0x4008 16 then d3.setLevel (0x444 + die) true else d3
    else if hot ∧ now ≤ warn - 24 then
      ({ d1 with pw := { d1.pw with hot := d1.pw.hot.filter (fun x => x != die.val) } }).setLevel (0x444 + die) false
    else d1
  if was < crit ∧ crit ≤ now then
    let d3 := d2.raise u (Rec.plain 0x0206 3 t.toNat)
    if d.flag u 0x4008 17 then d3.dieReset die else d3
  else d2

/-- TEMP_CONVERSION (R42-R44). -/
def execTempConversion (die : Fin 6) (t : BitVec 12) (sensor : BitVec 4) (s : State) : Host.Outcome State Fault Refusal :=
  onDev (fun d => d.tempConversion die t sensor) s

/-! Pace (R61-R73). -/

/-- Whether a cluster is active and powered: it takes part in the pace alarm (R62). -/
def Dev.clusterActive (d : Dev) (k : Nat) : Bool := d.role (l2Uid k) == 0 && decide (d.power (l2Uid k) < 3)

/-- The alarm condition of R62 for a pace. -/
def Dev.paceLow (d : Dev) (g pace : Nat) : Bool :=
  let req := d.fld (regionUid g) 0x4000 0 16
  decide (req ≠ 0) && decide (100 * pace < req * (100 + d.fld (regionUid g) 0x4000 16 8))

/-- PACE_WINDOW (R61, R62): the monitor of a powered cluster completes a 1 µs window. DEDUCED, log entry 38. -/
def execPaceWindow (k : Fin 72) (pace : BitVec 16) (s : State) : Host.Outcome State Fault Refusal :=
  onDev (fun d =>
    let g := k.val / 9; let a := 0x4100 + 8 * (k.val % 9); let u := regionUid g
    if 3 ≤ d.power (l2Uid k) then d
    else
      let d1 := ((d.setFld u a 0 16 pace.toNat).setFld u a 16 16 (min (d.fld u a 16 16) pace.toNat)).setFlag u a 32 true
      if d.clusterActive k && d.paceLow g pace.toNat then (d1.setFlag u 0x4000 32 true).setLevel (0x44A + g) true
      else d1) s

/-- The commanded set point of a region in mV. -/
def Dev.railOf (d : Dev) (g : Nat) : Nat := SMap.get (fun _ => 0) d.pw.rail g

/-- Command a region's rail to a set point. PRESUMED, log entry 39. -/
def Dev.setRail (d : Dev) (g mv : Nat) : Dev :=
  let old := SMap.set (fun _ => 0) d.pw.railOld g (d.railOf g)
  let at' := SMap.set (fun _ => 0) d.pw.railAt g (d.dt + 1)
  { d with pw := { d.pw with rail := SMap.set (fun _ => 0) d.pw.rail g mv, railOld := old, railAt := at' } }

/-- The fallback set point of a region: REQ holds the required pace (R63, R65). -/
def Dev.fallback (d : Dev) (g : Nat) : Nat := fallbackMv (d.fld (regionUid g) 0x4000 0 16)

/-- Command the fallback set point, or keep a higher one (R67, R69, R73). -/
def Dev.toFallback (d : Dev) (g : Nat) : Dev :=
  if d.fallback g ≤ d.railOf g then d else d.setRail g (d.fallback g)

/-- GOVERNOR_EVALUATION (R67, R68): the monitors' minima since the last evaluation decide a step of 5 mV; they are
restarted for the next period. `inTime`: every declared core finished each of its blocks within U of the period.
DEDUCED, log entry 38. -/
def execGovernorEvaluation (g : Fin 8) (inTime : Bool) (s : State) : Host.Outcome State Fault Refusal :=
  onDev (fun d =>
    let u := regionUid g; let req := d.fld u 0x4000 0 16
    let act := (List.range 9).filter (fun c => d.clusterActive (9 * g.val + c))
    let above (c : Nat) : Bool := decide (req * (100 + d.fld u 0x4000 24 8) ≤ 100 * d.fld u (0x4100 + 8 * c) 16 16)
    let mv := d.railOf g
    let d1 :=
      if mv = 0 then d
      else if d.kp.floorMode.contains g then d.toFallback g
      else if act.all above then (if inTime ∧ 555 ≤ mv then d.setRail g (mv - 5) else d)
      else if mv + 5 ≤ 900 then d.setRail g (mv + 5) else d
    forUpto 9 (fun c d => d.setFld u (0x4100 + 8 * c) 16 16 0xFFFF) d1) s

/-- PACE_ALARM_RESPONSE (R69): with ALARM set, the keeper commands the fallback set point or keeps a higher one. -/
def execPaceAlarmResponse (g : Fin 8) (s : State) : Host.Outcome State Fault Refusal :=
  onDev (fun d => if d.flag (regionUid g) 0x4000 32 then d.toFallback g else d) s

/-- Unit ID of the active keeper pair. -/
def Dev.keeperU (d : Dev) : Nat := keeperUid (d.activeHub 12)

/-- SMB_TIMEOUT (R806): record 0x0208; a set-point command that it cut short is lost. Regulator n answers at address
0x40 + n. PRESUMED, log entry 39. -/
def execSmbTimeout (target : BitVec 7) (cmd : BitVec 8) (setPoint : Bool) (s : State) :
    Host.Outcome State Fault Refusal :=
  onDev (fun d =>
    let g := target.toNat - 0x40
    let d1 := d.raise d.keeperU (Rec.plain 0x0208 2 (target.toNat + 256 * cmd.toNat))
    if setPoint ∧ 0x40 ≤ target.toNat ∧ g < 8 ∧ SMap.get (fun _ => 0) d.pw.railAt g ≠ 0 then
      let old := SMap.get (fun _ => 0) d.pw.railOld g
      { d1 with pw := { d1.pw with rail := SMap.set (fun _ => 0) d1.pw.rail g old, railAt := SMap.erase d1.pw.railAt g } }
    else d1) s

/-! Stall watchdogs (R77-R83). -/

/-- Largest BOUND among the first `n` ports of a unit. -/
def Dev.maxBound (d : Dev) (u : Nat) : Nat → Nat
  | 0 => 0
  | n + 1 => max (d.maxBound u n) (d.fld u (0x1100 + 8 * n) 0 20)

/-- UNIT_BOUND follows the stall bounds (R79). -/
def Dev.recomputeBound (d : Dev) (u : Nat) : Dev := d.setFld u 0x1000 0 20 (d.maxBound u (nports u) + 32)

/-- A write of STALL_BOUND[p]: a BOUND outside its class's range is reserved (R78); otherwise UNIT_BOUND is
recomputed (R79). -/
def Dev.stallBoundWrite (d : Dev) (u p : Nat) (v : Word) : Dev :=
  let a := 0x1100 + 8 * p; let b := bits v 0 20; let c := (port u p).2
  if b < classMin c ∨ classMax c < b then d.raise u (Rec.plain 0x0101 1 a)
  else (d.setFld u a 0 20 b).recomputeBound u

/-- A write of STALL_STATUS: each 1 reopens its port (R82). -/
def Dev.stallReopen (d : Dev) (u : Nat) (v : Word) : Dev :=
  d.setReg u 0x1008 (d.reg u 0x1008 &&& ~~~v)

/-- Whether port `p` of unit `u` can stall: it exists, has a partner, is open, and the partner is powered (R83, R814). -/
def Dev.canStall (d : Dev) (u p : Nat) : Bool :=
  let q := (port u p).1
  decide (p < nports u) && decide (q ≠ 0xFFFF) && !d.flag u 0x1008 p && decide (d.power q < 3)

/-- STALL_EXPIRY (R80): the port closes, STALL_LAST is written, the transactions that the unit holds for the port end
with "stalled", and the record and the stall source are raised. The keeper has the other side to fence.
DESIGN CHOICE, log entry 2. -/
def execStallExpiry (u : Nat) (p : Fin 64) (phase : BitVec 2) (holds : Bool) (s : State) :
    Host.Outcome State Fault Refusal :=
  onDev (fun d =>
    let q := (port u p).1
    if d.canStall u p then
      let last := p.val + at_ phase.toNat 6 2 + at_ q 8 16 + at_ (d.dt / 8) 24 40
      let d1 := (d.setFlag u 0x1008 p true).setReg u 0x1010 (BitVec.ofNat 64 last)
      let d2 := if holds then d1.answer (.err errStalled) else d1
      let d3 := d2.raise u ⟨0x0201, 2, p.val + at_ phase.toNat 6 2, q, none⟩
      let d4 := d3.raiseEdge (0xA18 + uidDie u)
      { d4 with kp := { d4.kp with toFence := if q = u ∨ d4.kp.toFence.contains q then d4.kp.toFence
                                              else d4.kp.toFence ++ [q] } }
    else d) s

/-! The time base (R84-R95). -/

/-- The next mark after the present DT: the next multiple of 8,192 ns. -/
def nextMark (dt : Nat) : Nat := (dt / 8192 + 1) * 8192

/-- Whether the time counter of a cluster is valid. DESIGN CHOICE, log entry 31. -/
def Dev.counterValid (d : Dev) (k : Nat) : Bool :=
  let m := SMap.get (fun _ => 0) d.tm.tc k
  decide (m ≠ 0) && decide (m ≤ d.dt + 1)

/-- Load the time counter of a cluster with the next mark (R84). -/
def Dev.loadCounter (d : Dev) (k : Nat) : Dev :=
  { d with tm := { d.tm with tc := SMap.set (fun _ => 0) d.tm.tc k (nextMark d.dt + 1) } }

/-- TIME_COUNTER_LOAD (R84): the counter is sent the value of the next mark, and is valid from that mark on. -/
def execTimeCounterLoad (k : Fin 72) (s : State) : Host.Outcome State Fault Refusal :=
  onDev (fun d => d.loadCounter k) s

/-- DT_MARK (R86, R89): at a mark, the counters listed fail the check of their low 13 bits; each valid one among them
becomes invalid, reloads, and its region control writes a corrected record. A load written to TB_LOAD sets DT, and
every counter then reloads. -/
def execDtMark (bad : List (Fin 72)) (s : State) : Host.Outcome State Fault Refusal :=
  onDev (fun d =>
    if d.dt % 8192 ≠ 0 then d
    else
      let d1 := forAll bad (fun k d =>
        if d.counterValid k then (d.loadCounter k).raise (regionUid (k.val / 9)) (Rec.plain 0x0202 1 (k.val % 9))
        else d) d
      match d1.tm.load with
      | none => d1
      | some v =>
        let d2 := { d1 with dt := v * 8192, tm := { d1.tm with load := none } }
        forUpto 72 (fun k d => d.loadCounter k) d2) s

/-- A write of TB_LOAD (R89). -/
def Dev.tbLoadWrite (d : Dev) (v : Word) : Dev × Answer :=
  if d.flag hbUid 0x8000 5 then ({ d with tm := { d.tm with load := some (bits v 13 51) } }, .data [])
  else (d, .err errRefused)

/-- PLL_LOCK_LOSS (R90). -/
def execPllLockLoss (s : State) : Host.Outcome State Fault Refusal :=
  onDev (fun d => (d.setFlag hbUid 0x8008 5 true).raise hbUid (Rec.plain 0x0203 2 0)) s

/-- TICK_LOSS (R91): the region control writes a device record; its watchdogs count the on-die oscillator. -/
def execTickLoss (g : Fin 8) (s : State) : Host.Outcome State Fault Refusal :=
  onDev (fun d =>
    if d.tm.noTick.contains g then d
    else ({ d with tm := { d.tm with noTick := g.val :: d.tm.noTick } }).raise (regionUid g) (Rec.plain 0x0204 4 0)) s

/-- TICK_RESTORE (R91). -/
def execTickRestore (g : Fin 8) (s : State) : Host.Outcome State Fault Refusal :=
  onDev (fun d => { d with tm := { d.tm with noTick := d.tm.noTick.filter (fun x => x != g.val) } }) s

/-- One measured offset from the reference, in ns: 16 in a row below 100 ns lock the time base (R95). -/
def Dev.discipline (d : Dev) (off : Int) : Dev :=
  let n := if off.natAbs < 100 then min 16 (d.tm.streak + 1) else 0
  ({ d with tm := { d.tm with streak := n } }).setFld hbUid 0x8008 0 2 (if n = 16 then 2 else 1)

/-- Whether some cadence is enabled: the keeper then leaves TB_OFFSET alone (R432). -/
def Dev.anyCadence (d : Dev) : Bool := (List.range 16).any (fun c => d.flag (hubUid 0) (0x7000 + 16 * c) 0)

/-- PTP_EVENT_MESSAGE (R93, R94): timestamped in its edge island, it gives the keeper's ordinary clock an offset. The
clock writes TB_TRIM and the difference of network time and DT to TB_OFFSET. Acts while PTP is the reference. -/
def execPtpEventMessage (off : Int) (trim : BitVec 32) (netOffset : Word) (s : State) :
    Host.Outcome State Fault Refusal :=
  onDev (fun d =>
    if d.fld hbUid 0x8000 0 3 = 2 then
      let t := trim.toNat
      let d1 := if t ≤ 51200000 ∨ 4243767296 ≤ t then d.setFld hbUid 0x8020 0 32 t else d
      (if d.anyCadence then d1 else d1.setReg hbUid 0x8028 netOffset).discipline off
    else d) s

/-- PPS_EDGE (R94, R95): the edge is stamped with 1 ns resolution. With 1PPS as reference it also counts towards lock. -/
def execPpsEdge (sub : BitVec 3) (off : Int) (s : State) : Host.Outcome State Fault Refusal :=
  onDev (fun d =>
    let d1 := (d.setReg hbUid 0x8030 (BitVec.ofNat 64 (d.dt + sub.toNat))).setFlag hbUid 0x8008 3 true
    let src := d.fld hbUid 0x8000 0 3
    if src = 1 ∨ src = 4 then d1.discipline off else d1) s

/-- HOLDOVER_ENTRY (R95): the reference is absent; the last trim is kept. The crystal alone is never absent. -/
def execHoldoverEntry (s : State) : Host.Outcome State Fault Refusal :=
  onDev (fun d =>
    let src := d.fld hbUid 0x8000 0 3
    if src = 0 then d
    else
      let d1 := ({ d with tm := { d.tm with streak := 0 } }).setFld hbUid 0x8008 0 2 3
      if src = 1 ∨ src = 4 then d1.setFlag hbUid 0x8008 3 false else d1) s

end Sys2Proof.Machine
end

