-- ==== Sys2Proof/Machine/Harebell.lean ====
section
/-!
DEFINITION. Harebell: triggers, the winner, messages and the network packet (R708-R716).
-/
namespace Sys2Proof.Machine

/-- Offset of HB_TRIG[t]. -/
def offTrig (t : Nat) : Nat := 0xB100 + 8 * t

/-- Whether a trigger is a latched one: 0, 5, 6, or 1-4 with LATCH = 1. -/
def Dev.trigLatched (d : Dev) (t : Nat) : Bool := t == 0 || t == 5 || t == 6 || d.flag hbUid (offTrig t) 8

/-- Whether a trigger is active (R709). -/
def Dev.trigActive (d : Dev) (t : Nat) : Bool :=
  d.flag hbUid (offTrig t) 0 && (d.hb.latch.contains t || (!d.trigLatched t && d.hb.alarm.contains t))

/-- The winning trigger: highest PRI, then lowest number (R710). -/
def Dev.trigWinner (d : Dev) : Option Nat :=
  (List.range 7).foldl (fun a t => if d.trigActive t = false then a else match a with
    | none => some t
    | some w => if d.fld hbUid (offTrig w) 5 3 < d.fld hbUid (offTrig t) 5 3 then some t else some w) none

/-- Message that a trigger plays. -/
def Dev.trigMsg (d : Dev) (t : Nat) : Nat := if t = 6 then d.hb.msg6 else d.fld hbUid (offTrig t) 1 4

/-- Set the latch of a trigger. -/
def Dev.trigSet (d : Dev) (t : Nat) : Dev :=
  { d with hb := { d.hb with latch := if d.hb.latch.contains t then d.hb.latch else t :: d.hb.latch } }

/-- Clear the latch of a trigger. -/
def Dev.trigClear (d : Dev) (t : Nat) : Dev := { d with hb := { d.hb with latch := d.hb.latch.filter (fun x => x != t) } }

/-- The input of a trigger becomes active or inactive: a latched trigger keeps an activation in its latch. -/
def Dev.trigInput (d : Dev) (t : Nat) (on : Bool) : Dev :=
  let rest := d.hb.alarm.filter (fun x => x != t)
  let d1 := { d with hb := { d.hb with alarm := if on ∧ 1 ≤ t ∧ t ≤ 4 then t :: rest else rest } }
  if on ∧ d.trigLatched t then d1.trigSet t else d1

/-- Whether Harebell is playing. -/
def Dev.hbPlaying (d : Dev) : Bool := d.flag hbUid 0xB000 1

/-- Pad groups that Harebell holds while it plays (R636): 2 for its TDM outputs, 6 for MGT0. -/
def Dev.hbHolds (d : Dev) (group : Nat) : Bool :=
  d.hbPlaying && (group == 2 || group == 6)

/-- Perform the release of a pad group: at one instant, and no longer in high impedance (R644, R645). -/
def Dev.padFree (d : Dev) (g : Nat) : Dev :=
  let d1 := d.setFlag hbUid 0x9010 g false
  { d1 with pw := { d1.pw with hiZ := d1.pw.hiZ.filter (fun x => x != g) } }

/-- Releases deferred while Harebell played take effect (R645). -/
def Dev.padDeferred (d : Dev) : Dev :=
  let gs := d.pw.padWait
  forAll gs (fun g d => d.padFree g) { d with pw := { d.pw with padWait := [] } }

/-- PAD_RELEASE: the groups of a mask, those that Harebell holds when it stops (R645). -/
def Dev.padRelease (d : Dev) (mask : Nat) : Dev :=
  forUpto 10 (fun g d =>
    if mask / 2 ^ g % 2 = 0 then d
    else if d.hbHolds g then { d with pw := { d.pw with padWait := if d.pw.padWait.contains g then d.pw.padWait else g :: d.pw.padWait } }
    else d.padFree g) d

/-- Harebell's phase: −TB_OFFSET rounded down to a multiple of 8 ns (R713, R432). -/
def Dev.netPhase (d : Dev) : Int := (-(signedOf 64 (d.reg hbUid 0x8028).toNat)) / 8 * 8

/-- Media count at 48 kHz of the latest sample instant at or before the present DT. -/
def Dev.hbCount (d : Dev) : Int := ((((d.dt : Int) - d.netPhase) / 8 + 1) * 48000 - 1) / 125000000

/-- DT of the start of Harebell's frame `m` (R713). -/
def Dev.hbDtOf (d : Dev) (m : Int) : Int := d.netPhase + m * 125000000 / 48000 * 8

/-- The last 1 ms boundary of Harebell's media count. -/
def Dev.hbMs (d : Dev) : Int := d.hbCount / 48 * 48

/-- What plays at a media count: the count from which it plays, and the message. DEDUCED, log entry 56. -/
def Dev.hbSeg (d : Dev) (mc : Int) : Option (Int × Nat) :=
  match d.hb.segs.find? (fun x => decide (x.1 ≤ mc)) with
  | some (m0, some n) => some (m0, n)
  | _ => none

/-- A sample of what plays: a message with the loop flag repeats, another is silent after its end (R711).
DEDUCED, log entry 56. -/
def Dev.hbSample (d : Dev) (mc : Int) : BitVec 16 :=
  match d.hbSeg mc with
  | none => 0
  | some (m0, n) => match d.hb.msgs[n]? with
    | none => 0
    | some x =>
      let i := (mc - m0).toNat
      if x.loop && x.samples != [] then x.samples.getD (i % x.samples.length) 0 else x.samples.getD i 0

/-- Record what plays from a media count on. -/
def Dev.hbPush (d : Dev) (m : Int) (n : Option Nat) : Dev := { d with hb := { d.hb with segs := (m, n) :: d.hb.segs.take 3 } }

/-- HAREBELL_WINNER_CHANGE (R710): at a 1 ms boundary the winning trigger's message starts, or playing ends. Nothing
starts before Harebell is armed (R685). -/
def Dev.hbWinnerChange (d : Dev) : Dev :=
  let now := d.fld hbUid 0xB000 6 3
  if d.flag hbUid 0xB000 0 = false then d
  else match d.trigWinner with
  | some t =>
    if now = t then d
    else
      let m := d.trigMsg t
      let d1 := (((d.setFlag hbUid 0xB000 1 true).setFld hbUid 0xB000 2 4 m).setFld hbUid 0xB000 6 3 t).incFld hbUid 0xB000 16 16
      let d2 := d1.hbPush d.hbMs (some m)
      (d2.raise hbUid (Rec.plain 0x0703 1 (t + 16 * m))).raiseEdge 0xB40
  | none =>
    if now = 7 then d
    else
      let d1 := (((d.setFlag hbUid 0xB000 1 false).setFld hbUid 0xB000 6 3 7)).raiseEdge 0xB41
      (d1.hbPush d.hbMs none).padDeferred

/-- HAREBELL_TRIGGER_ACTIVE (R709): the input of a trigger becomes active or inactive. -/
def execHarebellTriggerActive (t : Fin 7) (on : Bool) (s : State) : Host.Outcome State Fault Refusal :=
  onDev (fun d => d.trigInput t on) s

def execHarebellWinnerChange (s : State) : Host.Outcome State Fault Refusal :=
  onDev (fun d => d.hbWinnerChange) s

/-- HAREBELL_MESSAGE_END (R711): the message of the winning trigger has ended. One with the loop flag repeats; otherwise
a latched trigger clears, and a level trigger plays silence (`hbSample`). -/
def execHarebellMessageEnd (s : State) : Host.Outcome State Fault Refusal :=
  onDev (fun d =>
    match d.hbSeg d.hbCount with
    | none => d
    | some (m0, n) => match d.hb.msgs[n]? with
      | none => d
      | some x =>
        let t := d.fld hbUid 0xB000 6 3
        if x.loop || !d.trigLatched t || decide (d.hbCount < m0 + x.samples.length) then d else d.trigClear t) s

/-- A write of HB_CMD (R711): clears, then sets, so that a set of the same trigger is performed. -/
def Dev.hbCmd (d : Dev) (v : Word) : Dev :=
  let d1 := forUpto 7 (fun t d => if bit v (8 + t) then d.trigClear t else d) d
  let d2 := if bit v 6 then { d1 with hb := { d1.hb with msg6 := bits v 16 4 } } else d1
  forUpto 7 (fun t d => if bit v t then d.trigSet t else d) d2

/-- Whether Harebell has the output of a TDM port (R713). -/
def Dev.hbTakes (d : Dev) (p : Nat) : Bool := d.hbPlaying && decide (p < 4) && d.flag hbUid (0xB200 + 8 * p) 0

/-- Harebell's frame at a TDM port for a media count: the sample in every slot of SLOTS, zero in the others. -/
def Dev.hbFrame (d : Dev) (p : Nat) (m : Int) : List Nat :=
  let w := d.reg hbUid (0xB200 + 8 * p)
  (List.range (bits w 2 5 + 1)).map (fun i => if bit w (32 + i) then (d.hbSample m).toNat * 65536 else 0)

/-- Harebell drives its frame at a port in master mode, once for each media count (R713). -/
def Dev.hbDrive (d : Dev) (p : Nat) : Dev :=
  let m := d.hbCount
  if d.hbTakes p && !d.flag hbUid (0xB200 + 8 * p) 1 && decide (0 ≤ m) && SMap.get (fun _ => 0) d.hb.out p != m.toNat + 1 then
    { d with hb := { d.hb with out := SMap.set (fun _ => 0) d.hb.out p (m.toNat + 1) },
             sent := d.sent ++ [.tdm p (d.hbFrame p m) (d.hbDtOf m).toNat] }
  else d

/-- The clocks at the balls take a frame of Harebell's out of a port in slave mode (R713). -/
def Dev.hbFollow (d : Dev) (p : Nat) : Dev :=
  if d.hbTakes p && d.flag hbUid (0xB200 + 8 * p) 1 then
    let d1 := d.setFlag hbUid 0xB000 (9 + p) false
    { d1 with sent := d1.sent ++ [.tdm p (d1.hbFrame p d1.hbCount) d1.dt] }
  else d

/-- NOCLK of a port that Harebell drives in slave mode (R713). -/
def Dev.hbNoClock (d : Dev) (p : Nat) (lost : Bool) : Dev :=
  if d.hbTakes p && d.flag hbUid (0xB200 + 8 * p) 1 then d.setFlag hbUid 0xB000 (9 + p) lost else d

/-- HAREBELL_NET_PACKET (R714): one AES67 L16 packet of the 48 samples up to the last 1 ms boundary on MGT0 (port 0x40 of
the model's record of outputs), if Harebell played then, NET_A.EN is 1 and the link is up. -/
def execHarebellNetPacket (s : State) : Host.Outcome State Fault Refusal :=
  onDev (fun d =>
    let mc := d.hbMs - 48
    if (d.hbSeg mc).isSome ∧ d.flag hbUid 0xB300 63 ∧ d.flag (mgtUid 0) 0x4000 3 then
      let a := d.reg hbUid 0xB300; let b := d.reg hbUid 0xB308
      let hdr := [0x80#8, BitVec.ofNat 8 (bits a 48 7)] ++ natBe 2 (unsignedOf 16 (mc / 48)) ++ natBe 4 (unsignedOf 32 mc) ++
        natBe 4 (bits b 32 32)
      let body := (List.range 48).flatMap (fun (i : Nat) => natBe 2 (d.hbSample (mc + (i : Int))).toNat)
      { d with sent := d.sent ++ [.packet 0x40 (bits a 0 32) (bits a 32 16) 0 (bits a 55 6) (hdr ++ body) d.dt] }
    else d) s

end Sys2Proof.Machine
end

