-- ==== Sys2Proof/Machine/Cadence.lean ====
section
/-!
DEFINITION. Cadences, and the engines' access to memory and block buffers (R428-R439).
-/
namespace Sys2Proof.Machine

/-- Value held under a key plus one; none for 0. -/
def opt (m : SMap Nat) (k : Nat) : Option Nat :=
  match SMap.get (fun _ => 0) m k with
  | 0 => none
  | n + 1 => some n
/-- Hold a value under a key plus one. -/
def putOpt (m : SMap Nat) (k v : Nat) : SMap Nat := SMap.set (fun _ => 0) m k (v + 1)

/-- The configuration word of cadence `c`. -/
def Dev.cadCfg (d : Dev) (c : Nat) : Word := d.reg (hubUid 0) (0x7000 + 16 * c)
/-- EN of a cadence. -/
def Dev.cadEn (d : Dev) (c : Nat) : Bool := bit (d.cadCfg c) 0
/-- Sample rate fs in Hz. -/
def Dev.cadFs (d : Dev) (c : Nat) : Nat := if bit (d.cadCfg c) 1 then 96000 else 48000
/-- Block length N. -/
def Dev.cadN (d : Dev) (c : Nat) : Nat := 8 * 2 ^ bits (d.cadCfg c) 2 3
/-- GUARD in ns. -/
def Dev.cadGuard (d : Dev) (c : Nat) : Nat := 1000 * bits (d.cadCfg c) 16 8
/-- SHIFT in samples. -/
def Dev.cadShift (d : Dev) (c : Nat) : Nat := bits (d.cadCfg c) 32 8
/-- PHASE: the signed DT of media count 0. -/
def Dev.cadPhase (d : Dev) (c : Nat) : Int := signedOf 64 (d.reg (hubUid 0) (0x7008 + 16 * c)).toNat

/-- DT(m) of a media count (R429). -/
def Dev.dtOf (d : Dev) (c : Nat) (m : Int) : Int := d.cadPhase c + 8 * (m * 125000000 / (d.cadFs c : Int))
/-- First media count of block `b` (R430). -/
def Dev.blkMc (d : Dev) (c : Nat) (b : Int) : Int := b * d.cadN c + d.cadShift c
/-- DT_start(b) (R430). -/
def Dev.dtStart (d : Dev) (c : Nat) (b : Int) : Int := d.dtOf c (d.blkMc c b)
/-- Largest media count whose sample instant is not after `t`. -/
def Dev.mcAt (d : Dev) (c : Nat) (t : Int) : Int := (((t - d.cadPhase c) / 8 + 1) * d.cadFs c - 1) / 125000000
/-- Block that holds a media count. -/
def Dev.mcBlk (d : Dev) (c : Nat) (m : Int) : Int := (m - d.cadShift c) / d.cadN c

/-- First block that starts at or after `t` (R433). -/
def Dev.blkFrom (d : Dev) (c : Nat) (t : Int) : Int := d.mcBlk c (d.mcAt c (t - 1)) + 1

/-- Last block started in this run. -/
def Dev.blkNow (d : Dev) (c : Nat) : Option Nat := opt d.au.started c

/-- The next block of a cadence to start, if the run has one. -/
def Dev.blkNext (d : Dev) (c : Nat) : Option Nat :=
  match opt d.au.first c with
  | none => none
  | some f =>
    let n := match d.blkNow c with | none => f | some b => b + 1
    match opt d.au.stop c with
    | none => some n
    | some l => if n ≤ l then some n else none

/-- The next block event of a cadence, if the run has one (R431). -/
def Dev.blkNextEvent (d : Dev) (c : Nat) : Option Nat :=
  match opt d.au.first c with
  | none => none
  | some f =>
    let n := match opt d.au.done c with | none => f | some b => b + 1
    match opt d.au.stop c with
    | none => some n
    | some l => if n ≤ l then some n else none

/-- Enable a cadence: the run's first block is the first that starts at least 64 µs from now (R433). -/
def Dev.cadStart (d : Dev) (c : Nat) : Dev :=
  let f := (d.blkFrom c (d.dt + 64000)).toNat
  let d1 := { d with au := { d.au with first := putOpt d.au.first c f, stop := SMap.erase d.au.stop c,
                                        started := SMap.erase d.au.started c, done := SMap.erase d.au.done c } }
  d1.setReg (hubUid 0) (0x7100 + 8 * c) 0

/-- Disable a cadence: no block starts after the one in progress (R433). With none started the run is over. -/
def Dev.cadStop (d : Dev) (c : Nat) : Dev :=
  match d.blkNow c with
  | some b => { d with au := { d.au with stop := putOpt d.au.stop c b } }
  | none => { d with au := { d.au with first := SMap.erase d.au.first c } }

/-- A write of CAD_CFG[c] or CAD_PHASE[c] by the keeper (R432, R433). `v` is the new CAD_CFG; while EN is 1 no other field
changes. Enabling sets PHASE to −TB_OFFSET rounded down to a multiple of 8 ns. -/
def Dev.cadCfgWrite (d : Dev) (r : RegRow) (c : Nat) (v : Word) : Dev × Answer :=
  let u := hubUid 0
  let was := d.cadEn c
  if was ∧ v &&& 0xFF00FF001E ≠ d.cadCfg c &&& 0xFF00FF001E then (d, .err errRefused)
  else
    let d1 := d.regStore u r c v
    if !was && d1.cadEn c then
      let ph := BitVec.ofInt 64 d1.netPhase
      ((d1.setReg u (0x7008 + 16 * c) ph).cadStart c, .data [])
    else if was && !d1.cadEn c then (d1.cadStop c, .data [])
    else (d1, .data [])

/-- A write of CAD_PHASE[c] (R433). -/
def Dev.cadPhaseWrite (d : Dev) (r : RegRow) (c : Nat) (v : Word) : Dev × Answer :=
  if d.cadEn c then (d, .err errRefused) else (d.regStore (hubUid 0) r c v, .data [])

/-! Engines and memory (R457, R823). -/

/-- The requester that an engine is: no cluster, no slice list. DEDUCED, log entry 80. -/
def engRq : Rq := ⟨1000, 0, [], 0, .none⟩

/-- Read part of one sector for an engine: through its home inside an exchange range, from SDRAM outside one. -/
def Dev.engSector (d : Dev) (pa : Nat) : Dev × Except Nat Sector :=
  if (d.xrOf pa).isSome || inRemote pa then d.homeLoad engRq (pa / 64 * 64) else d.sdramRead (pa / 64 * 64) 0

/-- Read `n` sectors from an aligned address, with the list of those that answered with an error. -/
def Dev.engSectors (d : Dev) (pa : Nat) : Nat → Dev × List (Except Nat Sector)
  | 0 => (d, [])
  | n + 1 =>
    let (d1, r) := d.engSector pa
    let (d2, rs) := d1.engSectors (pa + 64) n
    (d2, r :: rs)

/-- The bytes of sectors; those of a sector in error read as zero. -/
def sectorsBytes (rs : List (Except Nat Sector)) : List Byte :=
  rs.flatMap (fun r => match r with | .ok s => natLe 64 s.toNat | .error _ => List.replicate 64 0)

/-- The first error among sectors. -/
def sectorsErr (rs : List (Except Nat Sector)) : Option Nat :=
  rs.findSome? (fun r => match r with | .ok _ => none | .error e => some e)

/-- Read `n` bytes for an engine. -/
def Dev.engRead (d : Dev) (pa n : Nat) : Dev × Except Nat (List Byte) :=
  let base := pa / 64 * 64
  let (d1, rs) := d.engSectors base ((pa + n - base + 63) / 64)
  match sectorsErr rs with
  | some e => (d1, .error e)
  | none => (d1, .ok (((sectorsBytes rs).drop (pa - base)).take n))

/-- Write bytes within one sector for an engine. -/
def Dev.engPut (d : Dev) (pa : Nat) (bs : List Byte) : Dev × Except Nat Unit :=
  let r := if (d.xrOf pa).isSome || inRemote pa then d.homeStore engRq pa bs else d.sdramMerge pa bs
  ((r.1).loseResv pa bs.length none, r.2)

/-- Cut a list of bytes at an address into pieces that lie within one sector each; `fuel` bounds their number. -/
def sectorPieces : Nat → Nat → List Byte → List (Nat × List Byte)
  | 0, _, _ => []
  | _, _, [] => []
  | fuel + 1, pa, bs =>
    let n := 64 - pa % 64
    (pa, bs.take n) :: sectorPieces fuel (pa + n) (bs.drop n)

/-- Write bytes for an engine; the first error is kept. -/
def Dev.engWrite (d : Dev) (pa : Nat) (bs : List Byte) : Dev × Except Nat Unit :=
  (sectorPieces (bs.length / 64 + 2) pa bs).foldl (fun a p =>
    let (d1, r) := a.1.engPut p.1 p.2
    (d1, match a.2 with | .error e => .error e | .ok _ => r)) (d, .ok ())

/-! Block buffers (R434-R439). -/

/-- EN of buffer `n` of an engine. -/
def Dev.bufEn (d : Dev) (se n : Nat) : Bool := d.flag (seUid se) (0x4000 + 16 * n) 0
/-- First address of a buffer. -/
def Dev.bufBase (d : Dev) (se n : Nat) : Nat := d.fld (seUid se) (0x4000 + 16 * n) 12 36 * 4096
/-- Attribute word of a buffer. -/
def Dev.bufAttr (d : Dev) (se n : Nat) : Word := d.reg (seUid se) (0x4008 + 16 * n)
/-- Whether a buffer is an output buffer. -/
def Dev.bufOut (d : Dev) (se n : Nat) : Bool := bit (d.bufAttr se n) 0
/-- DEPTH: 4 or 8 slots. -/
def Dev.bufDepth (d : Dev) (se n : Nat) : Nat := if bit (d.bufAttr se n) 1 then 8 else 4
/-- Cadence of a buffer. -/
def Dev.bufCad (d : Dev) (se n : Nat) : Nat := bits (d.bufAttr se n) 2 4
/-- Link offset LO. -/
def Dev.bufLo (d : Dev) (se n : Nat) : Nat := bits (d.bufAttr se n) 6 2
/-- Number of 16-channel groups G. -/
def Dev.bufG (d : Dev) (se n : Nat) : Nat := bits (d.bufAttr se n) 8 10 + 1
/-- Bytes of the sample area of a slot. -/
def Dev.bufBytes (d : Dev) (se n : Nat) : Nat := d.bufG se n * d.cadN (d.bufCad se n) * 64

/-- First address of the slot of block `b` (R434, R436). -/
def Dev.slotAt (d : Dev) (se n : Nat) (b : Int) : Nat :=
  d.bufBase se n + (b % (d.bufDepth se n : Int)).toNat * (512 + d.bufBytes se n)

/-- Offset of a sample within the sample area. -/
def sampleOff (nn ch j : Nat) : Nat := ((ch / 16) * nn + j) * 64 + 4 * (ch % 16)

/-- A 32-bit sample from a sample area, as a signed number. -/
def areaSample (nn : Nat) (area : List Byte) (ch j : Nat) : Int :=
  signedOf 32 (leNat ((area.drop (sampleOff nn ch j)).take 4))

/-- A sample area built from a function of channel and sample index. -/
def areaOf (g nn : Nat) (f : Nat → Nat → Int) : List Byte :=
  (List.range g).flatMap (fun grp => (List.range nn).flatMap (fun j =>
    (List.range 16).flatMap (fun c => natLe 4 (unsignedOf 32 (f (16 * grp + c) j)))))

/-! The commands of the cadences. -/

/-- A mailbox snapshot is taken for every replicated partition whose mailbox cadence is `c` (R422), with the proxies of the
partition (R546). MBX_BELLCLR reads the doorbell bits. -/
def Dev.snapPartition (d : Dev) (p : Nat) (blk : Option Nat) : Dev :=
  forAll (d.partCores p) (fun c d =>
    let k := d.core c
    if k.rep = .none then d
    else
      let rs := [0, 8, 0x10, 0x18, 0x20].map (fun r => (mbxOff k.lcore r, d.reg mbxU (mbxOff k.lcore r)))
      let la := (0xD000 + 8 * k.lcore, d.reg mbxU (0xD000 + 8 * k.lcore))
      let px := ((List.range 16).filter (fun r => d.proxyOf p r)).flatMap (fun r =>
        [8, 0x10].map (fun o => (offProxy r + o, d.reg mbxU (offProxy r + o))))
      let s : Snap := ⟨k.lcore, blk, la :: (mbxOff k.lcore 0x28, d.reg mbxU (mbxOff k.lcore 0x18)) :: rs ++ px⟩
      let others := d.snaps.filter (fun x => !(x.lcore == k.lcore && x.blk == blk))
      let mine := others.filter (fun x => x.lcore == k.lcore && x.blk.isSome)
      let drop := if 4 ≤ mine.length ∧ blk.isSome then mine.head? else none
      { d with snaps := others.filter (fun x => some x != drop) ++ [s] }) d

/-- The block event of the next block of a cadence: CAD_BSN advances (R431), and the mailbox block takes its snapshots
before any WAITB returns the block (R422). -/
def Dev.blockEvent (d : Dev) (c : Nat) : Dev :=
  match d.blkNextEvent c with
  | none => d
  | some b =>
    if (d.dt : Int) < d.dtStart c b + d.cadGuard c then d
    else
      let d1 := { d with au := { d.au with done := putOpt d.au.done c b } }
      let d2 := d1.setReg (hubUid 0) (0x7100 + 8 * c) (BitVec.ofNat 64 (b % 2 ^ 48 + 2 ^ 48))
      forUpto 256 (fun p d => if opt d.kp.mcad p = some c then d.snapPartition p (some b) else d) d2

def execBlockEvent (c : Fin 16) (s : State) : Host.Outcome State Fault Refusal :=
  onDev (fun d => d.blockEvent c) s

end Sys2Proof.Machine
end

