-- ==== Sys2Proof/Machine/Streams.lean ====
section
/-!
DEFINITION. Stream engines: descriptors, receive checks, capture blocks, transmit packets; and the TDM ports
(R440-R470, R820).
-/
namespace Sys2Proof.Machine

/-! Descriptors (R443, R444, Table 10-3). -/

/-- Little-endian field of a descriptor. -/
def dLe (ds : List Byte) (o n : Nat) : Nat := leNat ((ds.drop o).take n)
/-- Network-order field of a descriptor. -/
def dBe (ds : List Byte) (o n : Nat) : Nat := beNat ((ds.drop o).take n)

def dEn (ds : List Byte) : Bool := dLe ds 0 1 % 2 == 1
def dAvtp (ds : List Byte) : Bool := dLe ds 0 1 / 2 % 4 == 1
def dDual (ds : List Byte) : Bool := dLe ds 0 1 / 8 % 2 == 1
def dV6 (ds : List Byte) : Bool := dLe ds 0 1 / 16 % 2 == 1
def dLearn (ds : List Byte) : Bool := dLe ds 0 1 / 32 % 2 == 1
def dFormat (ds : List Byte) : Nat := dLe ds 2 1
def dPt (ds : List Byte) : Nat := dLe ds 3 1
def dChans (ds : List Byte) : Nat := dLe ds 4 1
def dFirst (ds : List Byte) : Nat := dLe ds 6 2
/-- Bytes of a network sample. -/
def dWidth (ds : List Byte) : Nat := match dFormat ds with | 0 => 2 | 1 => 3 | _ => 4
/-- Samples per packet at a rate (R441). -/
def dPs (ds : List Byte) (fs : Nat) : Nat :=
  (match dLe ds 5 1 with | 0 => 6 | 1 => 12 | 2 => 16 | 3 => 48 | _ => 192) * (fs / 48000)
/-- Port of a path. -/
def dPort (ds : List Byte) (pathB : Bool) : Nat := if pathB then dLe ds 9 1 else dLe ds 8 1
/-- Destination of a path: an IPv4 or IPv6 address, an AVTP stream ID, or for port 42 the far device ID in
bytes 16-17 (R543). -/
def dDst (ds : List Byte) (pathB : Bool) : Nat :=
  let o := if pathB then 32 else 16
  if dPort ds pathB = 42 then dLe ds o 2 else if dAvtp ds then dBe ds o 8 else if dV6 ds then dBe ds o 16 else dBe ds o 4
/-- UDP destination port of a path: bytes 14-15; for path B bytes 60-61 on receive and 62-63 on transmit. -/
def dUdp (ds : List Byte) (tx pathB : Bool) : Nat :=
  if pathB then (if tx then dLe ds 62 2 else dLe ds 60 2) else dLe ds 14 2

/-- Fields of a channel-map entry. -/
def mEn (e : Nat) : Bool := e / 2 ^ 31 % 2 == 1
def mCh (e : Nat) : Nat := e % 2 ^ 14
def mBuf (e : Nat) : Nat := e / 2 ^ 14 % 64

/-- Key of a stream of an engine. -/
def stKey (se s : Nat) : Nat := se * 1024 + s
/-- Descriptor that an engine holds. -/
def Dev.rxDesc (d : Dev) (se s : Nat) : List Byte := SMap.get (fun _ => []) d.au.rx (stKey se s)
def Dev.txDesc (d : Dev) (se s : Nat) : List Byte := SMap.get (fun _ => []) d.au.tx (stKey se s)
/-- Map entry that an engine holds. -/
def Dev.rxEntry (d : Dev) (se e : Nat) : Nat := SMap.get (fun _ => 0) d.au.rxMap (se * 16384 + e)
def Dev.txEntry (d : Dev) (se e : Nat) : Nat := SMap.get (fun _ => 0) d.au.txMap (se * 16384 + e)

/-- The first enabled entry of a list. -/
def firstEn (es : List Nat) : Option Nat := es.find? mEn

/-- The map entries of a held stream. -/
def Dev.rxEntries (d : Dev) (se s : Nat) : List Nat :=
  let ds := d.rxDesc se s
  (List.range (dChans ds)).map (fun i => d.rxEntry se (dFirst ds + i))
def Dev.txEntries (d : Dev) (se s : Nat) : List Nat :=
  let ds := d.txDesc se s
  (List.range (dChans ds)).map (fun i => d.txEntry se (dFirst ds + i))

/-- Whether a descriptor and its entries keep to Table 10-3 and R444. A disabled one needs nothing. -/
def Dev.descOk (d : Dev) (se : Nat) (tx : Bool) (s : Nat) (ds : List Byte) (es : List Nat) : Bool :=
  let w := dLe ds 0 2
  let on := es.filter mEn
  let bufs := on.map mBuf
  let cad := match on with | e :: _ => d.bufCad se (mBuf e) | [] => 0
  let lo := match on with | e :: _ => d.bufLo se (mBuf e) | [] => 0
  let fs := d.cadFs cad
  let others := (List.range 1024).filter (fun t => t != s && dEn (d.rxDesc se t))
  !dEn ds ||
    (decide (w / 2 % 4 ≤ 1) && decide (w < (if tx then 32 else 128)) &&
      (if dAvtp ds then dFormat ds == 2 else decide (dFormat ds ≤ 1) && decide (96 ≤ dPt ds) && decide (dPt ds ≤ 127)) &&
      decide (1 ≤ dChans ds) && decide (dChans ds ≤ 64) && decide (dLe ds 5 1 ≤ 4) &&
      decide (dFirst ds + dChans ds ≤ 16384) && decide (dChans ds * dPs ds fs * dWidth ds ≤ 1440) &&
      es.all (fun e => e / 2 ^ 20 % 2 ^ 11 == 0) &&
      bufs.all (fun b => d.bufEn se b && d.bufOut se b == tx && d.bufCad se b == cad && (tx || d.bufLo se b == lo)) &&
      (if tx then decide (on ≠ []) && decide (dPs ds fs ≤ d.cadN cad)
       else decide ((on.map (fun e => e % 2 ^ 20)).Nodup) &&
         others.all (fun t => (d.rxEntries se t).all (fun e => !mEn e || !on.any (fun x => x % 2 ^ 20 == e % 2 ^ 20)))))

/-- Raise source `n` of a stream engine (Table 10-5). -/
def Dev.seEvent (d : Dev) (se n : Nat) : Dev := d.raiseEdge (0x500 + 256 * se + n)

/-- Table base `i` of an engine. -/
def Dev.tblBase (d : Dev) (se i : Nat) : Nat := d.fld (seUid se) (0x5008 + 8 * i) 12 36 * 4096

/-- Read a stream's descriptor and map entries from the tables: none on a read error (R820). -/
def Dev.readDesc (d : Dev) (se : Nat) (tx : Bool) (s : Nat) : Dev × Option (List Byte × List (Nat × Nat)) :=
  match d.engRead (d.tblBase se (if tx then 1 else 0) + 64 * s) 64 with
  | (d1, .error _) => (d1, none)
  | (d1, .ok ds) =>
    let f := dFirst ds; let n := dChans ds
    if dEn ds = false ∨ 16384 < f + n then (d1, some (ds, []))
    else match d1.engRead (d1.tblBase se (if tx then 3 else 2) + 4 * f) (4 * n) with
      | (d2, .error _) => (d2, none)
      | (d2, .ok bs) => (d2, some (ds, (List.range n).map (fun i => (f + i, leNat ((bs.drop (4 * i)).take 4)))))

/-- Take a descriptor and its entries into the engine (R820): the stream's counts of R453 wait for a block start. -/
def Dev.installDesc (d : Dev) (r : Reload) : Dev :=
  let k := stKey r.se r.stream
  let ds := if dEn r.desc then r.desc else []
  let putAll (m : SMap Nat) : SMap Nat := r.map.foldl (fun m e => SMap.set (fun _ => 0) m (r.se * 16384 + e.1) e.2) m
  if r.tx then
    { d with au := { d.au with tx := SMap.set (fun _ => []) d.au.tx k ds, txMap := putAll d.au.txMap,
                               txNext := SMap.erase d.au.txNext k } }
  else
    let la := [0, 1, 2].foldl (fun m p => SMap.erase m (3 * k + p)) d.au.lastAcc
    { d with au := { d.au with rx := SMap.set (fun _ => []) d.au.rx k ds, rxMap := putAll d.au.rxMap, lastAcc := la,
                               lostKeys := d.au.lostKeys.filter (fun x => x / 3 != k),
                               seen := d.au.seen.filter (fun x => x.1 != k), ssrc := SMap.erase d.au.ssrc k } }

/-- SE_RELOAD (R445, R820): a good descriptor takes effect at the next block start of its cadence; a bad or unreadable
one leaves the old and raises source 0x09. -/
def Dev.seReload (d : Dev) (se : Nat) (tx : Bool) (s : Nat) : Dev :=
  match d.readDesc se tx s with
  | (d1, none) => d1.seEvent se 9
  | (d1, some (ds, es)) =>
    if d1.descOk se tx s ds (es.map (·.2)) then
      let old := if tx then firstEn (d1.txEntries se s) else firstEn (d1.rxEntries se s)
      let cad := match firstEn (es.map (·.2)) with
        | some e => d1.bufCad se (mBuf e)
        | none => match old with | some e => d1.bufCad se (mBuf e) | none => 0
      { d1 with au := { d1.au with reloads := d1.au.reloads.filter (fun r => !(r.se == se && r.tx == tx && r.stream == s)) ++
                                   [⟨se, tx, s, cad, ds, es⟩] } }
    else d1.seEvent se 9

/-- Descriptors read at plan load take effect at once (R820). -/
def Dev.descLoad (d : Dev) (se : Nat) (tx : Bool) (s : Nat) : Dev :=
  match d.readDesc se tx s with
  | (d1, none) => d1.seEvent se 9
  | (d1, some (ds, es)) =>
    if dEn ds && d1.descOk se tx s ds (es.map (·.2)) then d1.installDesc ⟨se, tx, s, 0, ds, es⟩ else d1

/-- The counts of R453 start at the first block start at which a receive stream's descriptor is in effect; a transmit
stream's first packet is the first whose run begins at or after that block start, or at or after the first block of a new
run of the cadence (R454). DEDUCED, log entry 53. -/
def Dev.startCounts (d : Dev) (c : Nat) : Dev :=
  let fresh := d.au.rx.filter (fun e => match firstEn (d.rxEntries (e.1 / 1024) (e.1 % 1024)) with
    | some m => dEn e.2 && d.bufCad (e.1 / 1024) (mBuf m) == c && (opt d.au.lastAcc (3 * e.1)).isNone
    | none => false)
  let la := fresh.foldl (fun m e => [0, 1, 2].foldl (fun m p => putOpt m (3 * e.1 + p) d.dt) m) d.au.lastAcc
  let b := (d.blkNow c).getD 0
  let tx := d.au.tx.foldl (fun m e => match firstEn (d.txEntries (e.1 / 1024) (e.1 % 1024)) with
    | some x =>
      if dEn e.2 && d.bufCad (e.1 / 1024) (mBuf x) == c && ((opt d.au.txNext e.1).isNone || opt d.au.first c == some b) then
        let ps := dPs e.2 (d.cadFs c)
        putOpt m e.1 ((d.blkMc c b + ps - 1) / ps * ps).toNat
      else m
    | none => m) d.au.txNext
  { d with au := { d.au with lastAcc := la, txNext := tx } }

/-- The reloads of a cadence take effect at its block start. DEDUCED, log entry 53. -/
def Dev.applyReloads (d : Dev) (c : Nat) : Dev :=
  let mine := d.au.reloads.filter (fun r => r.cad == c)
  (forAll mine (fun r d => d.installDesc r)
    { d with au := { d.au with reloads := d.au.reloads.filter (fun r => r.cad != c) } }).startCounts c

/-! Receive (R446-R453). -/

/-- What the checks of Table 10-4 take from a packet: whether length and header pass, source (SSRC), sequence identity,
timestamp, and the offset of the samples. -/
structure PktView where
  lenOk : Bool
  hdrOk : Bool
  src : Nat
  seq : Nat
  ts : Nat
  body : List Byte

/-- View of an RTP packet: 12 bytes, an optional extension, the samples. PRESUMED, log entry 44. -/
def rtpView (ds : List Byte) (ps : Nat) (bs : List Byte) : PktView :=
  let b0 := dLe bs 0 1
  let ext := if b0 / 16 % 2 = 1 then 4 * (1 + dBe bs 14 2) else 0
  ⟨bs.length == 12 + ext + dChans ds * ps * dWidth ds,
   b0 / 64 == 2 && b0 / 32 % 2 == 0 && b0 % 16 == 0 && dLe bs 1 1 % 128 == dPt ds,
   dBe bs 8 4, dBe bs 2 2, dBe bs 4 4, bs.drop (12 + ext)⟩

/-- View of an AVTP AAF data unit of IEEE 1722: 24 bytes of header, the samples. PRESUMED, log entry 44. -/
def avtpView (ds : List Byte) (ps fs : Nat) (bs : List Byte) : PktView :=
  let b1 := dLe bs 1 1
  let n := dChans ds * ps * 4
  ⟨dBe bs 20 2 == n && decide (24 + n ≤ bs.length),
   dLe bs 0 1 == 2 && b1 / 128 == 1 && b1 / 16 % 8 == 0 && dLe bs 16 1 == 2 && dLe bs 17 1 / 16 == (if fs = 96000 then 7 else 5) &&
     dBe bs 17 2 % 1024 == dChans ds && dLe bs 19 1 == 32 && b1 % 2 == 1,
   dBe bs 4 8, dLe bs 2 1 * 2 ^ 32 + dBe bs 12 4, dBe bs 12 4, bs.drop 24⟩

/-- The value with low 32 bits `t` that lies nearest to `x` (R450). -/
def nearest32 (t : Nat) (x : Int) : Int :=
  let k := (((t : Int) - x) % 2 ^ 32)
  if k < 2 ^ 31 then x + k else x + k - 2 ^ 32

/-- Media count of a packet's first sample, given that of the block being completed (R450, Table 10-4). -/
def pktMc (ds : List Byte) (fs ts : Nat) (x : Int) : Int :=
  if dAvtp ds then
    let t := nearest32 ((ts + 2 ^ 32 - dLe ds 48 4 % 2 ^ 32) % 2 ^ 32) (x * 1000000000 / fs)
    t * fs / 1000000000
  else nearest32 ((ts + 2 ^ 32 - dLe ds 52 4) % 2 ^ 32) x

/-- The stream that a packet matches, and by which path (R448). -/
def Dev.matchRx (d : Dev) (se : Nat) (p : Pkt) : Option (Nat × Bool) :=
  let fits (ds : List Byte) (b : Bool) : Bool :=
    dEn ds && dAvtp ds == p.avtp && (p.avtp || dV6 ds == p.v6) && dPort ds b == p.port && dDst ds b == p.dst &&
      (p.avtp || dUdp ds false b == p.udp)
  (d.au.rx.filter (fun e => e.1 / 1024 == se)).findSome? (fun e =>
    if fits e.2 false then some (e.1 % 1024, false)
    else if dDual e.2 && fits e.2 true then some (e.1 % 1024, true) else none)

/-- Record a refused packet in SE_LAST. -/
def Dev.seLast (d : Dev) (se s : Nat) (pathB : Bool) (code : Nat) : Dev :=
  let bsn := match firstEn (d.rxEntries se s) with | some e => (d.blkNow (d.bufCad se (mBuf e))).getD 0 | none => 0
  (d.setReg (seUid se) 0x5048 (BitVec.ofNat 64 (s + at_ pathB.toNat 10 1 + at_ code 12 4 + at_ (d.dt / 8) 24 40))).traceEmit
    (seUid se) 0x05 (s + at_ code 12 4 + at_ bsn 16 48) (some (d.fld (seUid se) 0x10 0 8))

/-- Discard a packet at check `code` 1-4 (R449). -/
def Dev.seRefuse (d : Dev) (se s : Nat) (pathB : Bool) (code : Nat) : Dev :=
  ((d.incFld (seUid se) 0x5038 (16 * (code - 1)) 16).seLast se s pathB code).seEvent se 0

/-- Capture block that the engine completes in the present block of a cadence: none while the cadence is not enabled, but for the
block in progress when it was disabled (R433, R450). -/
def Dev.capNow (d : Dev) (c lo : Nat) : Option Int :=
  match d.blkNow c with
  | none => none
  | some b => if d.cadEn c || decide ((d.dt : Int) < d.dtStart c (b + 1)) then some ((b : Int) - lo) else none

/-- A network sample as a Q1.31 value (R446). -/
def rxSample (ds : List Byte) (bs : List Byte) : Nat :=
  match dFormat ds with | 0 => beNat bs * 2 ^ 16 | 1 => beNat bs * 2 ^ 8 | _ => beNat bs

/-- Mark samples of a source as supplied by a path. -/
def markCap (cs : List Capture) (src : Nat) (blk : Int) (mask : Nat) (pathB : Bool) : List Capture :=
  let add (c : Capture) : Capture :=
    if pathB then { c with pathB := c.pathB ||| mask } else { c with pathA := c.pathA ||| mask }
  if cs.any (fun c => c.src == src && c.blk == blk) then
    cs.map (fun c => if c.src == src && c.blk == blk then add c else c)
  else cs ++ [add ⟨src, blk, 0, 0⟩]

/-- Mask of the samples of a packet that fall into block `blk`. -/
def blkMask (lo hi first nn : Int) : Nat :=
  ((List.range nn.toNat).filter (fun (j : Nat) => decide (lo ≤ first + (j : Int)) && decide (first + (j : Int) < hi))).foldl
    (fun a j => a + 2 ^ j) 0

/-- Write the samples of a packet that fall into open blocks. -/
def Dev.rxWrite (d : Dev) (se c : Nat) (ds body : List Byte) (mc : Int) (ps : Nat) (k : Int) : Dev :=
  let w := dWidth ds; let nch := dChans ds; let nn := d.cadN c
  forUpto nch (fun i d =>
    let e := d.rxEntry se (dFirst ds + i)
    if mEn e = false then d
    else forUpto ps (fun p d =>
      let m := mc + p
      let b := d.mcBlk c m
      if b < k then d
      else
        let j := (m - d.blkMc c b).toNat
        let a := d.slotAt se (mBuf e) b + 512 + sampleOff nn (mCh e) j
        let x := rxSample ds ((body.drop ((p * nch + i) * w)).take w)
        (d.engWrite a (natLe 4 x)).1) d) d

/-- An accepted packet restarts the clocks of R453 for its stream or path; a lost one is restored.
DESIGN CHOICE, log entry 54. -/
def Dev.rxAlive (d : Dev) (se k key src : Nat) : Dev :=
  let d1 := { d with au := { d.au with lastAcc := putOpt d.au.lastAcc (3 * k + key) d.dt } }
  if d1.au.lostKeys.contains (3 * k + key) then
    ({ d1 with au := { d1.au with lostKeys := d1.au.lostKeys.filter (fun x => x != 3 * k + key) } }).seEvent se src
  else d1

/-- The level of a receive port at an occupancy: 0 normal, 1 urgent, 2 panic (R457). DEDUCED, log entry 15. -/
def Dev.rxLevel (d : Dev) (se occ : Nat) : Nat :=
  let u := seUid se
  if d.fld u 0x5030 10 10 ≤ occ then 2 else if d.fld u 0x5030 0 10 ≤ occ then 1 else 0

/-- The level of a transmit port at an occupancy while a fetch is outstanding. DEDUCED, log entry 15. -/
def Dev.txLevel (d : Dev) (se occ : Nat) : Nat :=
  let u := seUid se
  if occ ≤ d.fld u 0x5030 30 10 then 2 else if occ ≤ d.fld u 0x5030 20 10 then 1 else 0

/-- Present a port's level; entry to panic raises source 6 or 7, and the channels act on the highest level of all ports
(R379, R457). -/
def Dev.setLevelRt (d : Dev) (se : Nat) (tx : Bool) (lvl : Nat) : Dev :=
  let lo := if tx then 42 else 40
  let was := d.fld (seUid se) 0x5030 lo 2
  let d1 := d.setFld (seUid se) 0x5030 lo 2 lvl
  let d2 := if lvl = 2 ∧ was ≠ 2 then d1.seEvent se (if tx then 7 else 6) else d1
  let top := (List.range 4).foldl (fun a i => max a (max (d2.fld (seUid i) 0x5030 40 2) (d2.fld (seUid i) 0x5030 42 2))) 0
  forUpto 12 (fun c d => d.setFld (mcUid c) 0x4030 4 2 top) d2

/-- RX_PACKET (R448-R453, R457, R458): a packet reaches an engine whose receive write buffer holds `occ` entries.
DESIGN CHOICE, log entry 54. -/
def Dev.rxPacket (d : Dev) (se : Nat) (p : Pkt) (occ : Nat) : Dev :=
  match d.matchRx se p with
  | none => d
  | some (s, pathB) =>
    let ds := d.rxDesc se s; let k := stKey se s
    match firstEn (d.rxEntries se s) with
    | none => d
    | some e0 =>
      let c := d.bufCad se (mBuf e0); let lo := d.bufLo se (mBuf e0)
      let fs := d.cadFs c; let nn := d.cadN c; let ps := dPs ds fs
      let v := if dAvtp ds then avtpView ds ps fs p.bytes else rtpView ds ps p.bytes
      let d0 := d.setLevelRt se false (d.rxLevel se occ)
      if v.lenOk = false then d0.seRefuse se s pathB 1
      else if v.hdrOk = false then d0.seRefuse se s pathB 2
      else
        let learned := opt d.au.ssrc k
        let d1 := if dLearn ds ∧ dAvtp ds = false ∧ learned = none then
          { d0 with au := { d0.au with ssrc := putOpt d0.au.ssrc k v.src } } else d0
        let srcOk := if dAvtp ds then v.src == dDst ds pathB
          else if dLearn ds then learned.getD v.src == v.src else v.src == dBe ds 10 4
        if srcOk = false then d1.seRefuse se s pathB 3
        else match d1.capNow c lo with
        | none => d1.seRefuse se s pathB 4
        | some kb =>
          let mc := pktMc ds fs v.ts (d1.blkMc c kb)
          if mc < d1.blkMc c (kb - 2) ∨ d1.blkMc c (kb + 3) ≤ mc then d1.seRefuse se s pathB 4
          else if 512 ≤ occ then
            ((d1.incFld (seUid se) 0x5040 32 32).seLast se s pathB 6).seEvent se 8
          else
            let late := decide (mc < d1.blkMc c kb)
            let wholly := decide (mc + ps ≤ d1.blkMc c kb)
            let dup := dDual ds && d1.au.seen.any (fun x =>
              x.1 == k && x.2.1 == v.seq && decide (d1.blkMc c (kb - 2) ≤ x.2.2))
            let d2 := if wholly then d1 else d1.rxAlive se k (if pathB then 2 else 1) 5
            let marks (cs : List Capture) : List Capture := (List.range 8).foldl (fun cs (i : Nat) =>
              let b := kb + (i : Int)
              let m := blkMask mc (mc + ps) (d1.blkMc c b) nn
              if m = 0 then cs else markCap cs k b m pathB) cs
            let d3 := { d2 with au := { d2.au with cap := marks d2.au.cap } }
            if dup then d3
            else
              let seen := (if dDual ds then [(k, v.seq, mc)] else []) ++
                d3.au.seen.filter (fun x => x.1 != k || decide (d1.blkMc c (kb - 2) ≤ x.2.2))
              let d4 := { d3 with au := { d3.au with seen := seen } }
              let d5 := if wholly then d4 else (d4.rxAlive se k 0 3).rxWrite se c ds v.body mc ps kb
              if late then ((d5.incFld (seUid se) 0x5040 0 32).seLast se s pathB 5).seEvent se 1 else d5

def execRxPacket (se : Fin 4) (p : Pkt) (occ : Nat) (s : State) : Host.Outcome State Fault Refusal :=
  onDev (fun d => d.rxPacket se p occ) s

/-- Two block periods of a cadence, in ns, rounded up. -/
def Dev.twoBlocks (d : Dev) (c : Nat) : Nat := (2 * d.cadN c * 1000000000 + d.cadFs c - 1) / d.cadFs c

/-- A stream or path without an accepted packet for two block periods is lost (R453): the learned SSRC is cleared when
the stream is. -/
def Dev.rxLost (d : Dev) (se s key src : Nat) : Dev :=
  let k := stKey se s; let ds := d.rxDesc se s
  match firstEn (d.rxEntries se s), opt d.au.lastAcc (3 * k + key) with
  | some e, some t =>
    let c := d.bufCad se (mBuf e)
    if dEn ds && (key == 0 || dDual ds) && !d.au.lostKeys.contains (3 * k + key) && decide (t + d.twoBlocks c ≤ d.dt) then
      let d1 := { d with au := { d.au with lostKeys := (3 * k + key) :: d.au.lostKeys,
                                           ssrc := if key = 0 then SMap.erase d.au.ssrc k else d.au.ssrc } }
      d1.seEvent se src
    else d
  | _, _ => d

/-- STREAM_LOST. -/
def execStreamLost (se : Fin 4) (st : Fin 1024) (s : State) : Host.Outcome State Fault Refusal :=
  onDev (fun d => d.rxLost se st 0 2) s

/-- PATH_LOST. -/
def execPathLost (se : Fin 4) (st : Fin 1024) (pathB : Bool) (s : State) : Host.Outcome State Fault Refusal :=
  onDev (fun d => d.rxLost se st (if pathB then 2 else 1) 4) s

/-! Capture blocks (R435-R438). -/

/-- Mask of a complete block. -/
def fullMask (nn : Nat) : Nat := 2 ^ nn - 1

/-- What a source supplied to a block. -/
def Dev.capOf (d : Dev) (src : Nat) (k : Int) : Nat × Nat :=
  match d.au.cap.find? (fun c => c.src == src && c.blk == k) with
  | some c => (c.pathA, c.pathB)
  | none => (0, 0)

/-- Whether a stream of an engine is mapped to a buffer. -/
def Dev.mappedTo (d : Dev) (se s n : Nat) : Bool := (d.rxEntries se s).any (fun e => mEn e && mBuf e == n)

/-- Status of a receive stream in the header of capture block `k` of buffer `n` (Table 10-1). -/
def Dev.streamStatus (d : Dev) (se s n : Nat) (k : Int) : Nat :=
  if dEn (d.rxDesc se s) = false ∨ d.mappedTo se s n = false then 3
  else
    let (a, b) := d.capOf (stKey se s) k
    let full := fullMask (d.cadN (d.bufCad se n))
    if a ||| b = 0 then 3
    else if a ||| b ≠ full then 2
    else if dDual (d.rxDesc se s) ∧ (a = 0 ∨ b = 0) then 1 else 0

/-- TDM port number of local port `l` of the group bound to an engine. -/
def tdmPort (se l : Nat) : Nat := 4 * se + l

/-- The slot map word of slot `i` of local port `l` of the group bound to an engine. -/
def Dev.tdmSlot (d : Dev) (se l i : Nat) : Word := d.reg (tdmUid se) (0x4400 + 256 * l + 8 * i)
/-- Configuration of local port `l`. -/
def Dev.tdmCfg (d : Dev) (se l : Nat) : Word := d.reg (tdmUid se) (0x4000 + 64 * l)

/-- Whether channel `ch`, sample `j` of capture block `k` of a buffer was supplied by a packet or a TDM frame. -/
def Dev.supplied (d : Dev) (se n : Nat) (k : Int) : Nat → Nat → Bool :=
  let chans := (List.range 1024).flatMap (fun s =>
    if dEn (d.rxDesc se s) then
      let (a, b) := d.capOf (stKey se s) k
      ((d.rxEntries se s).filter (fun e => mEn e && mBuf e == n)).map (fun e => (mCh e, a ||| b))
    else [])
  let tdms := (List.range 4).flatMap (fun l => (List.range 32).filterMap (fun i =>
    let w := d.tdmSlot se l i
    if bit w 0 && !bit w 1 && bits w 16 6 == n then some (bits w 2 14, (d.capOf (4096 + tdmPort se l) k).1) else none))
  fun ch j => (chans ++ tdms).any (fun e => e.1 == ch && e.2 / 2 ^ j % 2 == 1)

/-- The header of capture block `k` of a buffer (Table 10-1). DEDUCED, log entry 43. -/
def Dev.slotHeader (d : Dev) (se n : Nat) (k : Int) : List Byte :=
  let sts := (List.range 1024).map (fun s => d.streamStatus se s n k)
  let mapped := (List.range 1024).filter (fun s => dEn (d.rxDesc se s) && d.mappedTo se s n)
  let miss := (mapped.filter (fun s => decide (2 ≤ d.streamStatus se s n k))).length
  let single := (mapped.filter (fun s => d.streamStatus se s n k == 1)).length
  let tdm := (List.range 4).map (fun l => BitVec.ofNat 8 (SMap.get (fun _ => 0) d.au.tdmBits (tdmPort se l)))
  natLe 8 (k % 2 ^ 48).toNat ++ natLe 8 (unsignedOf 64 (d.blkMc (d.bufCad se n) k)) ++ natLe 2 miss ++ natLe 2 single ++
    tdm ++ List.replicate 232 0 ++
    (List.range 256).map (fun i => BitVec.ofNat 8 (sts.getD (4 * i) 3 + 4 * sts.getD (4 * i + 1) 3 +
      16 * sts.getD (4 * i + 2) 3 + 64 * sts.getD (4 * i + 3) 3))

/-- CAPTURE_CLOSE (R437): at the block start of k + 1 + LO the engine writes zero into every sample that nothing
supplied, then the header. DEDUCED, log entry 43. -/
def Dev.captureClose (d : Dev) (se n : Nat) : Dev :=
  let c := d.bufCad se n
  match d.blkNow c with
  | none => d
  | some b =>
    if d.bufEn se n = false ∨ d.bufOut se n ∨ opt d.au.closed (64 * se + n) = some b then d
    else
      let k : Int := b - 1 - d.bufLo se n
      let a := d.slotAt se n k; let nn := d.cadN c; let have_ := d.supplied se n k
      let d1 := forUpto (16 * d.bufG se n) (fun ch d => forUpto nn (fun j d =>
        if have_ ch j then d else (d.engWrite (a + 512 + sampleOff nn ch j) (natLe 4 0)).1) d) d
      let d2 := (d1.engWrite a (d.slotHeader se n k)).1
      let d3 := if d2.flag (seUid se) 0x5810 12 && d2.flag (seUid se) 0x5818 n then
          match d2.engRead a (512 + d2.bufBytes se n) with
          | (dA, .ok slot) => (dA.trelubUnit (d2.fld (seUid se) 0x5810 0 12) 0 0 (natLe 4 (64 * se + n) ++ natLe 8 (k % 2 ^ 48).toNat ++ slot)).1
          | (dA, .error e) => if e = errPoisoned then dA.raise (seUid se) (Rec.plain 0x0307 2 a) else dA
        else d2
      let clear (m : SMap Nat) : SMap Nat := (List.range 4).foldl (fun m l =>
        SMap.set (fun _ => 0) m (tdmPort se l) (SMap.get (fun _ => 0) m (tdmPort se l) % 2)) m
      { d3 with au := { d3.au with closed := putOpt d3.au.closed (64 * se + n) b, tdmBits := clear d3.au.tdmBits,
                                   cap := d3.au.cap.filter (fun x => decide (k - 8 ≤ x.blk)) } }

def execCaptureClose (se : Fin 4) (n : Fin 64) (s : State) : Host.Outcome State Fault Refusal :=
  onDev (fun d => d.captureClose se n) s

/-! Transmit (R447, R454-R456). -/

/-- Round a value to nearest even after a right shift (RNE of R188). -/
def rneShift (x : Int) (r : Nat) : Int :=
  let q := x / 2 ^ r; let f := x % 2 ^ r
  if 2 * f < 2 ^ r then q else if 2 ^ r < 2 * f then q + 1 else if q % 2 = 0 then q else q + 1

/-- A Q1.31 sample in a network format (R447). -/
def txSample (ds : List Byte) (x : Int) : List Byte :=
  match dFormat ds with
  | 0 => natBe 2 (unsignedOf 16 (clampS 16 (rneShift x 16)))
  | 1 => natBe 3 (unsignedOf 24 (clampS 24 (rneShift x 8)))
  | _ => natBe 4 (unsignedOf 32 x)

/-- The commit group of an engine whose BUF_A is a buffer. -/
def Dev.groupOfBuf (d : Dev) (se n : Nat) : Option Nat :=
  firstUpto 32 (fun g => d.flag (seUid se) (0x6000 + 32 * g) 0 && d.fld (seUid se) (0x6000 + 32 * g) 3 6 == n)

/-- State of a commit group. -/
def Dev.cgSt (d : Dev) (se g : Nat) : CgSt := SMap.get (fun _ => CgSt.initial) d.au.cg (32 * se + g)
/-- Change the state of a commit group. -/
def Dev.modCg (d : Dev) (se g : Nat) (f : CgSt → CgSt) : Dev :=
  { d with au := { d.au with cg := SMap.set (fun _ => CgSt.initial) d.au.cg (32 * se + g) (f (d.cgSt se g)) } }

/-- The sample of an output buffer at a media count, as played, and whether network streams send it; zero and sent when
no play block covers it. -/
def Dev.played (d : Dev) (se n ch : Nat) (m : Int) : Int × Bool :=
  let c := d.bufCad se n; let b := d.mcBlk c m
  match d.groupOfBuf se n with
  | none => (0, true)
  | some g => match (d.cgSt se g).plays.find? (fun p => (p.1 : Int) == b) with
    | none => (0, true)
    | some p => (areaSample (d.cadN c) p.2.1 ch (m - d.blkMc c b).toNat, p.2.2)

/-- The payload of a transmit stream's packet for the run of samples from media count `mf`, and whether it is sent. -/
def Dev.txPayload (d : Dev) (se s : Nat) (ds : List Byte) (ps fs : Nat) (mf : Int) (pathB : Bool) : List Byte × Bool :=
  let es := d.txEntries se s
  let smp := (List.range ps).flatMap (fun (p : Nat) => es.map (fun e =>
    if mEn e then d.played se (mBuf e) (mCh e) (mf + (p : Int)) else (0, true)))
  let body := smp.flatMap (fun x => txSample ds x.1)
  let seq := mf / ps + dLe ds 56 2
  let hdr := if dAvtp ds then
      let ts := mf * 1000000000 / fs + dLe ds 48 4
      [0x02#8, 0x81#8] ++ natBe 1 (unsignedOf 8 seq) ++ [0#8] ++ natBe 8 (dDst ds pathB) ++ natBe 4 (unsignedOf 32 ts) ++
        [0x02#8] ++ natBe 2 ((if fs = 96000 then 0x7000 else 0x5000) + dChans ds) ++ [32#8] ++ natBe 2 body.length ++ [0#8, 0#8]
    else
      [0x80#8] ++ natBe 1 (dPt ds) ++ natBe 2 (unsignedOf 16 seq) ++ natBe 4 (unsignedOf 32 (mf + dLe ds 52 4)) ++
        natBe 4 (dBe ds 10 4)
  (hdr ++ body, smp.all (fun x => x.2))

/-- TX_PACKET (R454-R456, R511): after the last sample instant of its run, a transmit stream's packet leaves by path A and,
with DUAL, by path B; a run that touches a suppressed block is not sent. `occ` is the occupancy of the read buffer. -/
def Dev.txPacket (d : Dev) (se s occ : Nat) : Dev :=
  let ds := d.txDesc se s
  match firstEn (d.txEntries se s) with
  | none => d
  | some e0 =>
    let c := d.bufCad se (mBuf e0); let fs := d.cadFs c; let ps := dPs ds fs
    let d0 := d.setLevelRt se true (d.txLevel se occ)
    match (opt d.au.txNext (stKey se s)).map (fun m => (m : Int)) with
    | none => d0
    | some mf =>
      let tooFar : Bool := match opt d.au.stop c with
        | some b => decide (d.blkMc c (b + 1) ≤ mf + ps - 1)
        | none => false
      if dEn ds = false ∨ tooFar ∨ (d.dt : Int) < d.dtOf c (mf + ps) then d0
      else
        let d1 := { d0 with au := { d0.au with txNext := putOpt d0.au.txNext (stKey se s) (mf + ps).toNat } }
        let pay (b : Bool) : List Byte × Bool := d.txPayload se s ds ps fs mf b
        if (pay false).2 = false then d1
        else
          let out (b : Bool) : Sent := .packet (dPort ds b) (if dAvtp ds then dBe ds (if b then 40 else 24) 6 else dDst ds b)
            (if dAvtp ds then 0 else dUdp ds true b) (dLe ds 58 2) (dLe ds 60 2 % 64) (pay b).1 d.dt
          let send (d : Dev) (b : Bool) : Dev :=
            if dPort ds b = 42 then
              let d2 := (d.trelubUnit (dDst ds b) 1 0 (pay b).1).1
              { d2 with sent := d2.sent ++ [.note 42 [dDst ds b, dUdp ds true b] d.dt] }
            else { d with sent := d.sent ++ [out b] }
          if dDual ds then send (send d1 false) true else send d1 false

def execTxPacket (se : Fin 4) (st : Fin 1024) (occ : Nat) (s : State) : Host.Outcome State Fault Refusal :=
  onDev (fun d => d.txPacket se st occ) s

/-! TDM ports (R460-R467). -/

/-- Raise source `n` of TDM port `p`. -/
def Dev.tdmEvent (d : Dev) (p n : Nat) : Dev := d.raiseEdge (0x900 + 8 * p + n)
/-- Unit and register offset of a port's TDM_STATUS. -/
def tdmStat (p : Nat) : Nat × Nat := (tdmUid (p / 4), 0x4008 + 64 * (p % 4))
/-- Set a status bit of a port. -/
def Dev.tdmFlag (d : Dev) (p i : Nat) (b : Bool) : Dev := d.setFlag (tdmStat p).1 (tdmStat p).2 i b
/-- Mark a bit of the slot header of a port for the block under way. -/
def Dev.tdmMark (d : Dev) (p b : Nat) : Dev :=
  { d with au := { d.au with tdmBits := SMap.set (fun _ => 0) d.au.tdmBits p (SMap.get (fun _ => 0) d.au.tdmBits p ||| b) } }

/-- A repeat or a drop: counted, marked in the header, source 3 (R464). -/
def Dev.tdmSlip (d : Dev) (p : Nat) : Dev := ((d.wrapFld (tdmStat p).1 (tdmStat p).2 8 16).tdmMark p 2).tdmEvent p 3

/-- Store the FIFOs of a port and show their fill in TDM_STATUS. -/
def Dev.setFifos (d : Dev) (p : Nat) (fi fo : List (List Nat)) : Dev :=
  let d1 := { d with au := { d.au with fifoIn := SMap.set (fun _ => []) d.au.fifoIn p fi,
                                       fifoOut := SMap.set (fun _ => []) d.au.fifoOut p fo } }
  (d1.setFld (tdmStat p).1 (tdmStat p).2 1 3 fi.length).setFld (tdmStat p).1 (tdmStat p).2 4 3 fo.length

def Dev.fifoIn (d : Dev) (p : Nat) : List (List Nat) := SMap.get (fun _ => []) d.au.fifoIn p
def Dev.fifoOut (d : Dev) (p : Nat) : List (List Nat) := SMap.get (fun _ => []) d.au.fifoOut p
/-- Configuration word of port 0-15. -/
def Dev.tdmPortCfg (d : Dev) (p : Nat) : Word := d.tdmCfg (p / 4) (p % 4)

/-- Push a frame into a FIFO of four; a full one drops its oldest. -/
def fifoPush (q : List (List Nat)) (f : List Nat) : List (List Nat) × Bool :=
  if 4 ≤ q.length then (q.drop 1 ++ [f], true) else (q ++ [f], false)

/-- Drive a frame at a port at DT `t`: nothing while the pad group is held (R643), while Harebell has the output (R713), or with
no clock. -/
def Dev.tdmDrive (d : Dev) (p : Nat) (f : List Nat) (t : Nat) : Dev :=
  if d.hbTakes p || d.flag hbUid 0x9010 (2 + p / 4) || !d.flag (tdmStat p).1 (tdmStat p).2 0 then d
  else { d with sent := d.sent ++ [.tdm p f t] }

/-- TDM_FRAME_RECEIVED (R464, R467): the external clocks bring a frame into a slave port and take one out, Harebell's where
Harebell has the output (R713). A frame out of
sync is discarded and counts as a slip. -/
def Dev.tdmFrame (d : Dev) (p : Nat) (f : List Nat) (syncOk : Bool) : Dev :=
  let cfg := d.tdmPortCfg p
  if bit cfg 0 = false ∨ bit cfg 1 = false ∨ d.flag (tdmStat p).1 (tdmStat p).2 0 = false then d
  else if syncOk = false then
    ((d.wrapFld (tdmStat p).1 (tdmStat p).2 8 16).tdmMark p 2).tdmEvent p 2
  else
    let (fi, drop) := fifoPush (d.fifoIn p) f
    let d1 := if drop then d.tdmSlip p else d
    match d1.fifoOut p with
    | [] => ((d1.setFifos p fi []).tdmSlip p).tdmDrive p (SMap.get (fun _ => []) d1.au.prevOut p) d.dt
    | g :: fo =>
      let d2 := d1.setFifos p fi fo
      ({ d2 with au := { d2.au with prevOut := SMap.set (fun _ => []) d2.au.prevOut p g } }).tdmDrive p g d.dt

def execTdmFrameReceived (p : Fin 16) (f : List Nat) (syncOk : Bool) (s : State) : Host.Outcome State Fault Refusal :=
  onDev (fun d => (d.tdmFrame p f syncOk).hbFollow p) s

/-- Write one input frame as sample `m` into the buffers that the slot map names. -/
def Dev.tdmStore (d : Dev) (p : Nat) (m : Int) (f : List Nat) : Dev :=
  let se := p / 4; let l := p % 4; let c := bits (d.tdmPortCfg p) 11 4
  let b := d.mcBlk c m; let j := (m - d.blkMc c b).toNat; let nn := d.cadN c
  let d1 := forUpto (bits (d.tdmPortCfg p) 2 5 + 1) (fun i d =>
    let w := d.tdmSlot se l i
    if bit w 0 && !bit w 1 then
      (d.engWrite (d.slotAt se (bits w 16 6) b + 512 + sampleOff nn (bits w 2 14) j) (natLe 4 (f.getD i 0))).1
    else d) d
  { d1 with au := { d1.au with cap := markCap d1.au.cap (4096 + p) b (2 ^ j) false } }

/-- TDM_INPUT_HANDOFF (R462, R464, R465): at DT(m + 1) the port hands over its oldest input frame as sample m. In master
mode that is `f`, the frame that started at DT(m); an empty slave FIFO repeats the previous frame; without a clock the
samples are zero. -/
def Dev.tdmInput (d : Dev) (p : Nat) (f : List Nat) : Dev :=
  let cfg := d.tdmPortCfg p; let c := bits cfg 11 4
  let m := d.mcAt c d.dt - 1
  if bit cfg 0 = false ∨ (d.blkNow c).isNone ∨ m < 0 ∨ opt d.au.inCnt p = some m.toNat then d
  else
    let d0 := { d with au := { d.au with inCnt := putOpt d.au.inCnt p m.toNat } }
    if bit cfg 1 = false then d0.tdmStore p m f
    else if d0.flag (tdmStat p).1 (tdmStat p).2 0 = false then (d0.tdmMark p 1).tdmStore p m []
    else match d0.fifoIn p with
      | [] => (d0.tdmSlip p).tdmStore p m (SMap.get (fun _ => []) d0.au.prevIn p)
      | g :: fi =>
        let d1 := d0.setFifos p fi (d0.fifoOut p)
        ({ d1 with au := { d1.au with prevIn := SMap.set (fun _ => []) d1.au.prevIn p g } }).tdmStore p m g

def execTdmInputHandoff (p : Fin 16) (f : List Nat) (s : State) : Host.Outcome State Fault Refusal :=
  onDev (fun d => d.tdmInput p f) s

/-- TDM_OUTPUT_HANDOFF (R463): at DT(m) the engine hands over output sample m; a master port drives it, a slave port
queues it. Harebell drives its own frame where it has the output (R713). -/
def Dev.tdmOutput (d : Dev) (p : Nat) : Dev :=
  let cfg := d.tdmPortCfg p; let c := bits cfg 11 4; let se := p / 4; let l := p % 4
  let m := d.mcAt c d.dt
  if bit cfg 0 = false ∨ (d.blkNow c).isNone ∨ m < 0 ∨ opt d.au.outCnt p = some m.toNat then d
  else
    let d0 := { d with au := { d.au with outCnt := putOpt d.au.outCnt p m.toNat } }
    let f := (List.range (bits cfg 2 5 + 1)).map (fun i =>
      let w := d0.tdmSlot se l i
      if bit w 0 && bit w 1 then unsignedOf 32 (d0.played se (bits w 16 6) (bits w 2 14) m).1 else 0)
    if bit cfg 1 = false then d0.tdmDrive p f (d.dtOf c (m + 2)).toNat
    else
      let (fo, drop) := fifoPush (d0.fifoOut p) f
      let d1 := d0.setFifos p (d0.fifoIn p) fo
      if drop then d1.tdmSlip p else d1

def execTdmOutputHandoff (p : Fin 16) (s : State) : Host.Outcome State Fault Refusal :=
  onDev (fun d => (d.tdmOutput p).hbDrive p) s

/-- TDM_CLOCK_LOST (R465): a slave port sees no bit clock edge for 2 µs; a partial frame is discarded. -/
def execTdmClockLost (p : Fin 16) (s : State) : Host.Outcome State Fault Refusal :=
  onDev (fun d =>
    if bit (d.tdmPortCfg p) 0 && bit (d.tdmPortCfg p) 1 && d.flag (tdmStat p).1 (tdmStat p).2 0 then
      (((d.tdmFlag p 0 false).tdmMark p 1).tdmEvent p 0).hbNoClock p true
    else d.hbNoClock p true) s

/-- Frames with which a FIFO is refilled to two. -/
def refill (prev : List Nat) (q : List (List Nat)) : List (List Nat) :=
  match q with | [] => [prev, prev] | [a] => [a, prev] | a :: b :: _ => [a, b]

/-- TDM_CLOCK_RESTORED (R465): the FIFOs are refilled to two frames and CLK_OK is set. -/
def execTdmClockRestored (p : Fin 16) (s : State) : Host.Outcome State Fault Refusal :=
  onDev (fun d =>
    if bit (d.tdmPortCfg p) 0 && bit (d.tdmPortCfg p) 1 && !d.flag (tdmStat p).1 (tdmStat p).2 0 then
      let z := List.replicate (bits (d.tdmPortCfg p) 2 5 + 1) 0
      let d1 := d.setFifos p (refill z (d.fifoIn p)) (refill z (d.fifoOut p))
      let d2 := { d1 with au := { d1.au with tdmBits := SMap.set (fun _ => 0) d1.au.tdmBits p
                                                (SMap.get (fun _ => 0) d1.au.tdmBits p / 2 * 2) } }
      ((d2.tdmFlag p 0 true).tdmEvent p 1).hbNoClock p false
    else d.hbNoClock p false) s

/-- A write of TDM_CFG[l]: EN counts slips from zero, and a master port has its clock (TDM_STATUS). -/
def Dev.tdmCfgWrite (d : Dev) (u : Nat) (r : RegRow) (l : Nat) (v : Word) : Dev :=
  let was := d.flag u (0x4000 + 64 * l) 0
  let d1 := d.regStore u r l v
  let cfg := d1.reg u (0x4000 + 64 * l)
  if !was && bit cfg 0 then d1.setReg u (0x4008 + 64 * l) (BitVec.ofNat 64 (if bit cfg 1 then 0 else 1))
  else if bit cfg 0 = false then d1.setFlag u (0x4008 + 64 * l) 0 false
  else d1

end Sys2Proof.Machine
end

