-- ==== Sys2Proof/Machine/Commit.lean ====
section
/-!
DEFINITION. Fencing; completion, the block hash, the vote, concealment, play blocks, twin operation (R18-R33, R335-R337,
R471-R513, R823).
-/
namespace Sys2Proof.Machine

/-! Fencing. -/

/-- Note a cluster that the keeper treats as fenced. -/
def Dev.loseCluster (d : Dev) (k : Nat) : Dev :=
  { d with kp := { d.kp with lost := if d.kp.lost.contains k then d.kp.lost else d.kp.lost ++ [k] } }

/-- Every sector that a slice homed is lost: the slice's lines and the copies of them in the L2s (R335). -/
def Dev.homeLoss (d : Dev) (uid : Nat) : Dev :=
  let lines := (d.homes.filter (fun e => e.1 / 2 ^ 15 == uid)).filterMap (fun e => e.2)
  let d1 := forAll lines (fun l d => forUpto 4 (fun i d =>
    forAll (dirClusters (l.sec i).dir) (fun c d => d.l2Drop c (l.tag * 256 + 64 * i)) d) d) d
  d1.dropCache uid

/-- LOST of every enabled exchange range homed on a hub, in both copies (R336). -/
def Dev.loseRanges (d : Dev) (hub : Nat) : Dev :=
  forUpto 64 (fun n d =>
    let a := 0x5000 + 16 * n
    if d.flag (hubUid 0) a 0 && d.fld (hubUid 0) (a + 8) 6 1 == hub then
      (d.setFlag (hubUid 0) (a + 8) 25 true).setFlag (hubUid 1) (a + 8) 25 true
    else d) d

/-- DEGRADED of every mirrored range that uses a channel or its partner, in both copies; the channel is stale until it has
been rebuilt (R369). -/
def Dev.degrade (d : Dev) (ch : Nat) : Dev :=
  let hit (d : Dev) (n : Nat) : Bool := let a := offRange n + 8
    d.flag (hubUid 0) (offRange n) 0 && d.flag (hubUid 0) a 13 && (d.flag (hubUid 0) a ch || (decide (6 ≤ ch) && d.flag (hubUid 0) a (ch - 6)))
  if (List.range 16).any (hit d) then
    let d1 := forUpto 16 (fun n d => if hit d n then
      (d.setFlag (hubUid 0) (offRange n + 8) 14 true).setFlag (hubUid 1) (offRange n + 8) 14 true else d) d
    { d1 with ch := { d1.ch with stale := if d1.ch.stale.contains ch then d1.ch.stale else ch :: d1.ch.stale } }
  else d

/-- Fence a unit: FENCED is set, and what its loss brings with it (R18, R335, R336, R369). A unit of a cluster takes
the whole cluster out of work (R28). -/
def Dev.fenceUnit (d : Dev) (u : Nat) : Dev :=
  if d.fenced u then d
  else
    let d1 := d.setFlag u 8 4 true
    match unitKind u with
    | none => d
    | some .l3 => ((if d.drained u then d1 else d1.homeLoss u)).loseCluster (uidClusterNo u)
    | some .core | some .l2 | some .cstop => d1.loseCluster (uidClusterNo u)
    | some .xslice => if d.drained u then d1 else d1.loseRanges (uidDie u - 4)
    | some .mc => d1.degrade (uidMc u)
    | _ => d1

/-- Fence a cluster: its cores, L2 and L3 slice. The mesh stop goes on routing (R30). The halt of each of its cores ends
(R756). DEDUCED, log entry 42. -/
def Dev.fenceCluster (d : Dev) (k : Nat) : Dev :=
  let d1 := forAll [clusterUid k 0 0, clusterUid k 0 1, clusterUid k 0 2, clusterUid k 0 3, l2Uid k, l3Uid k]
    (fun u d => d.fenceUnit u) d
  forAll (clusterCores k) (fun c d => if d.halted c.val then d.endHalt c.val else d) d1

/-- FENCE_UNIT (R18): the keeper fences a unit. -/
def execFenceUnit (u : Nat) (s : State) : Host.Outcome State Fault Refusal := onDev (fun d => d.fenceUnit u) s

/-- STALL_FENCE (R80, event 5): the keeper fences the other side of a stalled port. -/
def execStallFence (u : Nat) (s : State) : Host.Outcome State Fault Refusal :=
  onDev (fun d =>
    if d.kp.toFence.contains u then
      ({ d with kp := { d.kp with toFence := d.kp.toFence.filter (fun x => x != u) } }).fenceUnit u
    else d) s

/-- STANDBY_TAKEOVER (R41, R395): the standby instance of a fenced keeper pair, event controller or mailbox block is
active from now on, and its takeover is recorded. -/
def execStandbyTakeover (u : Nat) (s : State) : Host.Outcome State Fault Refusal :=
  onDev (fun d =>
    let other := mkUid (9 - uidDie u) 0 15 (uidType u) 0
    let ok := match unitKind u with | some .keeper | some .evc | some .mbx => true | _ => false
    if ok && d.fenced other && !d.fenced u && d.role u == 1 then
      ((d.setRole u 0).setRole other 2).raise u ⟨0x0604, 3, u, other, none⟩
    else d) s

/-! Completion (R476, R477). -/

/-- Whether a core takes part in a cadence (R477). -/
def Dev.takesPart (d : Dev) (k : Core) (c : Nat) : Bool :=
  if k.cmask = 0 then SMap.get (fun _ => 0) d.kp.cads k.part / 2 ^ c % 2 == 1 else k.cmask / 2 ^ c % 2 == 1

/-- The core completes block `b` of cadence `c` (R476). -/
def Dev.signalBlock (d : Dev) (k : Core) (c b : Nat) : Dev :=
  let x : Completion := ⟨k.part, repCode k.rep, c, b, k.lcore⟩
  let keep := d.au.complete.filter (fun y => decide (b ≤ y.blk + 8) || y.cad != c)
  { d with au := { d.au with complete := if keep.contains x then keep else x :: keep } }

/-- Whether a replica, or a single-tier partition, has completed a block (R477). -/
def Dev.blockComplete (d : Dev) (p rep c b : Nat) : Bool :=
  let cs := (d.partCores p).filter (fun x => repCode (d.core x).rep == rep && d.takesPart (d.core x) c)
  decide (cs ≠ []) && cs.all (fun x => d.au.complete.contains ⟨p, rep, c, b, (d.core x).lcore⟩)

/-! Groups. -/

/-- CG_CFG of group `g` of an engine. -/
def Dev.cgCfg (d : Dev) (se g : Nat) : Word := d.reg (seUid se) (0x6000 + 32 * g)
def Dev.cgEn (d : Dev) (se g : Nat) : Bool := bit (d.cgCfg se g) 0
/-- TIER: 0 single, 1 pair, 2 triple. -/
def Dev.cgTier (d : Dev) (se g : Nat) : Nat := bits (d.cgCfg se g) 1 2
def Dev.cgPart (d : Dev) (se g : Nat) : Nat := bits (d.cgCfg se g) 24 8
/-- Output buffer of replica 0-2. -/
def Dev.cgBuf (d : Dev) (se g rep : Nat) : Nat := bits (d.cgCfg se g) (3 + 6 * rep) 6
/-- Cadence of a group. -/
def Dev.cgCad (d : Dev) (se g : Nat) : Nat := d.bufCad se (d.cgBuf se g 0)
/-- DEFER of a group (R439). -/
def Dev.cgDefer (d : Dev) (se g : Nat) : Nat := if d.cgTier se g = 0 then 0 else 1
/-- LEAD in ns. -/
def Dev.lead (d : Dev) (se : Nat) : Nat := 1000 * d.fld (seUid se) 0x5800 0 8
/-- The commit deadline D(b) (R478). -/
def Dev.deadline (d : Dev) (se g b : Nat) : Int :=
  d.dtStart (d.cgCad se g) (b + 1 + d.cgDefer se g) - d.lead se

/-- LIVE bits, as a mask of replicas, that apply to block `b` (R484). -/
def Dev.liveFor (d : Dev) (se g b : Nat) : Nat :=
  match (d.cgSt se g).live.find? (fun e => decide (e.1 ≤ b)) with | some e => e.2 | none => 0
/-- Replicas of a mask. -/
def repsOf (m : Nat) : List Nat := (List.range 3).filter (fun r => m / 2 ^ r % 2 == 1)

/-- The block from which a write of LIVE bits applies: the next block start, or the first of the next run. -/
def Dev.liveFrom (d : Dev) (c : Nat) : Nat :=
  match d.blkNow c with | some b => b + 1 | none => 0

/-- Write the LIVE bits of a group, applying from block `b` on. -/
def Dev.setLive (d : Dev) (se g m b : Nat) : Dev :=
  (d.setFld (seUid se) (0x6000 + 32 * g) 21 3 m).modCg se g (fun x => { x with live := (b, m) :: x.live.take 7 })

/-- A write of CG_CFG[g]: LIVE bits apply from the next block start (R484); a group whose EN is newly set starts with an
empty history (R494) and a count of 0. -/
def Dev.cgCfgWrite (d : Dev) (u : Nat) (r : RegRow) (g : Nat) (v : Word) : Dev :=
  let se := uidSe u
  let was := d.cgEn se g
  let d1 := d.regStore u r g v
  let m := bits (d1.cgCfg se g) 21 3
  let d2 := if d1.cgEn se g && !was then
      (d1.modCg se g (fun _ => CgSt.initial)).setReg u (0x6010 + 32 * g) 0 else d1
  d2.modCg se g (fun x => { x with live := (d2.liveFrom (d2.cgCad se g), m) :: x.live.take 7 })

/-- Every enabled group of a partition: engine and group. -/
def Dev.groupsOf (d : Dev) (p : Nat) : List (Nat × Nat) :=
  (List.range 4).flatMap (fun se => ((List.range 32).filter (fun g => d.cgEn se g && d.cgPart se g == p)).map (fun g => (se, g)))

/-- Whether a replica (0-2) of a partition is live: some group of the partition holds its LIVE bit. -/
def Dev.repLive (d : Dev) (p rep : Nat) : Bool :=
  (d.groupsOf p).any (fun e => bit (d.cgCfg e.1 e.2) (21 + rep))

/-- The live replicas of a partition. -/
def Dev.liveReps (d : Dev) (p : Nat) : List Nat := (List.range 3).filter (fun r => d.repLive p r)

/-! The hash (R485, R486). -/

/-- One bit of the CRC-64: the top bit decides, the register shifts left. -/
def crc64Bit (r : BitVec 64) (b : Bool) : BitVec 64 :=
  if bit r 63 != b then (r <<< 1) ^^^ 0x42F0E1EBA9EA3693#64 else r <<< 1

/-- Eight bits of a byte, most significant first. -/
def crc64Byte (r : BitVec 64) (x : Byte) : BitVec 64 :=
  crc64Bit (crc64Bit (crc64Bit (crc64Bit (crc64Bit (crc64Bit (crc64Bit (crc64Bit r (bit x 7)) (bit x 6)) (bit x 5)) (bit x 4))
    (bit x 3)) (bit x 2)) (bit x 1)) (bit x 0)

/-- CRC-64 with the ECMA-182 polynomial, all ones in and out. -/
def crc64 (bs : List Byte) : Nat := (~~~(bs.foldl crc64Byte (BitVec.allOnes 64))).toNat

/-- Hash of a replica's output for a block. -/
def blockHash (b : Nat) (area : List Byte) : Nat := crc64 (natLe 8 (b % 2 ^ 48) ++ area)

/-! The vote (R487-R491). -/

/-- Record a commit event in COMMIT_LAST. `rep` is 3 for none. DEDUCED, log entry 51. -/
def Dev.commitLast (d : Dev) (se g rep ev b : Nat) : Dev :=
  (d.setReg (seUid se) 0x5808 (BitVec.ofNat 64 (g + at_ rep 5 2 + at_ ev 8 4 + at_ b 16 48))).traceEmit (seUid se) 0x05
    (g + 2 ^ 10 + at_ ev 12 4 + at_ b 16 48) (some (d.cgPart se g))

/-- Unit ID of the first core of a replica, 0xFFFF where no core runs it: the unit that names it. -/
def Dev.repUnit (d : Dev) (p rep : Nat) : Nat :=
  match ((d.partCores p).filter (fun c => repCode (d.core c).rep == rep + 1)).head? with
  | some c => coreUid c
  | none => 0xFFFF

/-- A commit record: code, severity, block, replica. -/
def Dev.commitRecord (d : Dev) (se g code sev b rep : Nat) : Dev :=
  d.raise (seUid se) ⟨code, sev, b % 2 ^ 48, if rep < 3 then d.repUnit (d.cgPart se g) rep else 0xFFFF, some (d.cgPart se g)⟩

/-- The keeper has a replica to fence; evidence is what was raised from DT_start(b − 1) on (R496, R497). -/
def Dev.suspect (d : Dev) (se g b : Nat) (rep : Option Nat) : Dev :=
  let t := (d.dtStart (d.cgCad se g) ((b : Int) - 1)).toNat
  { d with au := { d.au with suspects := d.au.suspects ++ [(d.cgPart se g, rep, t)] } }

/-- Replicas whose ready hash for a block equals `h`. -/
def agreeing (x : CgSt) (b h : Nat) (live : List Nat) : List Nat :=
  live.filter (fun r => x.hashes.contains (b, r, h))

/-- Ready hash of a replica for a block. -/
def hashFor (x : CgSt) (b r : Nat) : Option Nat :=
  (x.hashes.find? (fun e => e.1 == b && e.2.1 == r)).map (fun e => e.2.2)

/-- The outcome that the hashes ready so far settle (R487, R488). -/
def settle (x : CgSt) (b : Nat) (live : List Nat) : Option Verdict :=
  let ready := live.filterMap (fun r => (hashFor x b r).map (fun h => (r, h)))
  let need := if live.length = 1 then 1 else 2
  match ready.find? (fun e => decide (need ≤ (agreeing x b e.2 live).length)) with
  | some e => some (.release ((agreeing x b e.2 live).headD e.1) e.2)
  | none => if ready.length = live.length then some .conceal else none

/-- The verdict already taken on a block. -/
def verdictOf (x : CgSt) (b : Nat) : Option Verdict := (x.verdicts.find? (fun e => e.1 == b)).map (·.2)

/-- Whether `b` is the latest block decided: CG_STAT.LAST, GAP and LATE speak of it. -/
def Dev.latest (d : Dev) (se g b : Nat) : Bool := ((d.cgSt se g).verdicts.head?.map (·.1)) == some b

/-- A live replica differs from a released majority: outvoted (R489). -/
def Dev.outvote (d : Dev) (se g b r : Nat) : Dev :=
  let a := 0x6010 + 32 * g
  let d0 := d.setFlag (seUid se) a (8 + r) true
  let d1 := if d0.latest se g b then d0.setFld (seUid se) a 0 2 1 else d0
  (((d1.commitLast se g r 1 b).commitRecord se g 0x0401 2 b r)).suspect se g b (some r)

/-- A concealment is decided: GAP and CONCEALED count it, and LAST says so; the rehearsal's keeper sees it through CG_STAT. -/
def Dev.countConceal (d : Dev) (se g : Nat) : Dev :=
  let a := 0x6010 + 32 * g
  (((d.incFld (seUid se) a 2 4).incFld (seUid se) a 16 32).setFld (seUid se) a 11 3 0).setFld (seUid se) a 0 2 2

/-- A release is decided: GAP restarts, and so far no replica is outvoted or late. -/
def Dev.countRelease (d : Dev) (se g : Nat) : Dev :=
  let a := 0x6010 + 32 * g
  ((d.setFld (seUid se) a 2 4 0).setFld (seUid se) a 11 3 0).setFld (seUid se) a 0 2 0

/-- With TWIN, send the decision and the released hash to the peer (R510). -/
def Dev.twinSend (d : Dev) (se g b : Nat) (v : Verdict) : Dev :=
  if bit (d.cgCfg se g) 33 && d.flag (seUid se) 0x5810 12 then
    let body := match v with | .release _ h => natLe 1 1 ++ natLe 8 h | .conceal => natLe 1 0 ++ natLe 8 0
    (d.trelubUnit (d.fld (seUid se) 0x5810 0 12) 0 1 (natLe 4 (32 * se + g) ++ natLe 8 (b % 2 ^ 48) ++ body)).1
  else d

/-- Take a verdict on a block. DEDUCED, log entry 52. -/
def Dev.decide_ (d : Dev) (se g b : Nat) (v : Verdict) : Dev :=
  let live := repsOf (d.liveFor se g b)
  let x := d.cgSt se g
  let d1 := (d.twinSend se g b v).modCg se g (fun x => { x with verdicts := (b, v) :: x.verdicts.take 15 })
  match v with
  | .release r h =>
    let ag := agreeing x b h live
    let d2 := if 2 ≤ ag.length then d1.modCg se g (fun x => { x with agreed := (b, ag) }) else d1
    let d3 := d2.countRelease se g
    let out := if 2 ≤ ag.length then live.filter (fun q => (hashFor x b q).isSome && !ag.contains q) else []
    forAll out (fun q d => d.outvote se g b q) d3
  | .conceal =>
    let pair := live.length = 2 ∧ live.all (fun r => (hashFor x b r).isSome)
    let d2 := d1.countConceal se g
    if pair then ((d2.commitLast se g 3 2 b).commitRecord se g 0x0402 2 b 3).suspect se g b none
    else (d2.commitLast se g 3 3 b).commitRecord se g 0x0403 2 b 3

/-- CRB_VOTE on a replica's hash of a block that it perturbs (R732): 0 inverted, 1 withheld. DEDUCED, log entry 50. -/
def Dev.voteFault (d : Dev) (se g r b : Nat) : Option Nat :=
  ((d.cgSt se g).pert.find? (fun x => x.1 == b && x.2.1 == r)).map (fun x => x.2.2)

/-- HASH_READY (R479, R486-R489, R823): the hash of a replica's output for block `b` is ready in time. -/
def Dev.hashReady (d : Dev) (se g r b : Nat) : Dev :=
  let tier := d.cgTier se g; let x := d.cgSt se g
  let live := repsOf (d.liveFor se g b)
  if d.cgEn se g = false ∨ tier = 0 ∨ tier < r ∨ live.contains r = false ∨ (hashFor x b r).isSome ∨
      d.blockComplete (d.cgPart se g) (r + 1) (d.cgCad se g) b = false ∨ d.deadline se g b < d.dt then d
  else
    let n := d.cgBuf se g r
    match d.engRead (d.slotAt se n b + 512) (d.bufBytes se n) with
    | (d1, .error e) =>
      if e = errPoisoned then d1.raise (seUid se) (Rec.plain 0x0307 2 (d.slotAt se n b)) else d1
    | (d1, .ok area) =>
      let h := blockHash b area
      match d1.voteFault se g r b with
      | some 1 => d1.incFld (seUid se) 0x3000 32 16
      | f =>
        let h' := if f.isSome then 2 ^ 64 - 1 - h else h
        let d2 := if f.isSome then d1.incFld (seUid se) 0x3000 32 16 else d1
        let d3 := d2.modCg se g (fun x => { x with hashes := (b, r, h') :: x.hashes.take 31 })
        match verdictOf x b with
        | some (.release q hq) =>
          if hq ≠ h' ∧ q ≠ r ∧ 2 ≤ (agreeing x b hq live).length then d3.outvote se g b r
          else d3.modCg se g (fun x => if (x.agreed.1 == b) && hq == h' then
            { x with agreed := (b, x.agreed.2 ++ [r]) } else x)
        | some .conceal => d3
        | none => match settle (d3.cgSt se g) b live with
          | some v => d3.decide_ se g b v
          | none => d3

def execHashReady (se : Fin 4) (g : Fin 32) (r : Fin 3) (b : Nat) (s : State) : Host.Outcome State Fault Refusal :=
  onDev (fun d => d.hashReady se g r b) s

/-- Replicas late for the block before `b`, as handled at its deadline. -/
def lateBefore (x : CgSt) (b : Nat) : List Nat :=
  match x.closed.find? (fun e => e.1 + 1 == b) with | some e => e.2 | none => []

/-- COMMIT_DEADLINE (R480, R490, R491, R504): D(b) has passed. Live replicas without a hash are late, twice in a row is a
failure; an undecided block is concealed. A single-tier block is released when it is complete. DESIGN CHOICE, log entry 2.
DEDUCED, log entry 52. -/
def Dev.commitDeadline (d : Dev) (se g b : Nat) : Dev :=
  let x := d.cgSt se g; let tier := d.cgTier se g; let a := 0x6010 + 32 * g
  if d.cgEn se g = false ∨ x.closed.any (fun e => e.1 == b) ∨ (d.dt : Int) < d.deadline se g b then d
  else if tier = 0 then
    let d1 := d.modCg se g (fun x => { x with closed := (b, []) :: x.closed.take 7 })
    if d1.blockComplete (d1.cgPart se g) 0 (d1.cgCad se g) b then
      (d1.modCg se g (fun x => { x with verdicts := (b, .release 0 0) :: x.verdicts.take 15 })).countRelease se g
    else d1.decide_ se g b .conceal
  else
    let live := repsOf (d.liveFor se g b)
    let late := live.filter (fun r => (hashFor x b r).isNone)
    let d1 := d.modCg se g (fun x => { x with closed := (b, late) :: x.closed.take 7 })
    let d3 := forAll late (fun r d => (d.commitLast se g r 4 b).commitRecord se g 0x0404 1 b r) d1
    let d4 := forAll (late.filter (fun r => (lateBefore x b).contains r)) (fun r d =>
      ((((d.setFlag (seUid se) a (8 + r) true).commitLast se g r 5 b).commitRecord se g 0x0405 2 b r)).suspect se g b (some r)) d3
    let d5 := if (verdictOf x b).isNone then d4.decide_ se g b .conceal else d4
    if d5.latest se g b = false then d5
    else
      let d6 := d5.setFld (seUid se) a 11 3 (late.foldl (fun m r => m + 2 ^ r) 0)
      match verdictOf x b with
      | some (.release _ h) =>
        if (agreeing (d6.cgSt se g) b h live).length = live.length then d6 else d6.setFld (seUid se) a 0 2 1
      | _ => d6

def execCommitDeadline (se : Fin 4) (g : Fin 32) (b : Nat) (s : State) : Host.Outcome State Fault Refusal :=
  onDev (fun d => d.commitDeadline se g b) s

/-! Concealment and play (R482, R483, R492-R495, R506). -/

/-- One sample of a concealed block (R492). `h` is the fade length in samples. -/
def concealSample (p : Nat → Int) (g : Nat) (last : Int) (nn h j : Nat) : Int :=
  let k := min 32 nn
  let prev := if g = 1 then last else p (nn - 1)
  let x := if j < k then (prev * (k - j : Nat) + p j * j) / (k : Nat) else p j
  if 2 ≤ g then
    let t := (g - 2) * nn + j
    if h ≤ t then 0 else x * (h - t : Nat) / (h : Nat)
  else x

/-- Crossfade of the first released block after concealment (R493). -/
def crossSample (q : Nat → Int) (c : Int) (nn j : Nat) : Int :=
  let k := min 32 nn
  if j < k then (c * (k - j : Nat) + q j * j) / (k : Nat) else q j

/-- Fade length of R492 in samples of a cadence. -/
def Dev.fadeLen (d : Dev) (se c : Nat) : Nat := d.fld (seUid se) 0x5800 8 6 * d.cadFs c / 1000

/-- The sample area of a group's history, sectors that cannot be read as zero (R823), and zero before the first
release (R494). -/
def Dev.history (d : Dev) (se g : Nat) : Dev × List Byte :=
  let n := d.bufBytes se (d.cgBuf se g 0)
  if (d.cgSt se g).ever = false then (d, List.replicate n 0)
  else
    let base := d.fld (seUid se) (0x6008 + 32 * g) 12 36 * 4096 + 512
    let (d1, rs) := d.engSectors base (n / 64)
    (d1, sectorsBytes rs)

/-- The last sample of each channel of a sample area. -/
def lastSamples (gg nn : Nat) (area : List Byte) : List Int :=
  (List.range (16 * gg)).map (fun ch => areaSample nn area ch (nn - 1))

/-- Play an area as play block `pb`. -/
def Dev.playArea (d : Dev) (se g pb : Nat) (area : List Byte) (net : Bool) (run : Nat) : Dev :=
  let n := d.cgBuf se g 0; let nn := d.cadN (d.bufCad se n)
  d.modCg se g (fun x => { x with plays := (pb, area, net) :: x.plays.take 3, run := run, last := lastSamples (d.bufG se n) nn area })

/-- Play a concealed block; at silence, or with no live replica, a designated group raises the commit-loss trigger
(R506). -/
def Dev.playConceal (d : Dev) (se g pb b : Nat) (net : Bool) : Dev :=
  let n := d.cgBuf se g 0; let c := d.bufCad se n; let nn := d.cadN c; let gg := d.bufG se n
  let x := d.cgSt se g; let run := x.run + 1; let h := d.fadeLen se c
  let (d1, hist) := d.history se g
  let area := areaOf gg nn (fun ch j => concealSample (areaSample nn hist ch) run (x.last.getD ch 0) nn h j)
  let d2 := d1.playArea se g pb area net run
  let silent := decide (2 ≤ run) && decide (h ≤ (run - 2) * nn + nn - 1)
  let alone := decide (d.cgTier se g ≠ 0) && decide (d.liveFor se g b = 0)
  if bit (d.cgCfg se g) 32 && (silent || alone) then d2.trigSet 5 else d2

/-- Play a released slot: history first, then the crossfade after concealment; a slot that cannot be read is played as
concealed and leaves the history (R823, R707). -/
def Dev.playRelease (d : Dev) (se g pb b r : Nat) (net : Bool) : Dev :=
  let n := d.cgBuf se g (if d.cgTier se g = 0 then 0 else r); let c := d.bufCad se n; let nn := d.cadN c; let gg := d.bufG se n
  let x := d.cgSt se g
  match d.engRead (d.slotAt se n b + 512) (d.bufBytes se n) with
  | (d1, .error e) =>
    (if e = errPoisoned then d1.raise (seUid se) (Rec.plain 0x0307 2 (d.slotAt se n b)) else d1).playConceal se g pb b net
  | (d1, .ok q) =>
    let base := d.fld (seUid se) (0x6008 + 32 * g) 12 36 * 4096 + 512
    let d2 := ((d1.engWrite base q).1).modCg se g (fun x => { x with ever := true })
    let area := if x.run = 0 then q else
      areaOf gg nn (fun ch j => crossSample (areaSample nn q ch) (x.last.getD ch 0) nn j)
    d2.playArea se g pb area net 0

/-- PLAY_BLOCK (R439, R482): at the start of play block `pb` of a group the engine plays block pb − 1 − DEFER. A block
without a decision is concealed (R454); a suppressed block plays concealed on TDM only (R511). DEDUCED, log entry 51. -/
def Dev.playBlock (d : Dev) (se g : Nat) : Dev :=
  let c := d.cgCad se g; let x := d.cgSt se g
  match d.blkNow c with
  | none => d
  | some pb =>
    if d.cgEn se g = false ∨ x.plays.any (fun p => p.1 == pb) then d
    else
      let b := pb - 1 - d.cgDefer se g
      if x.supp.contains b then d.playConceal se g pb b false
      else match verdictOf x b with
      | some (.release r _) => d.playRelease se g pb b r true
      | _ => d.playConceal se g pb b true

def execPlayBlock (se : Fin 4) (g : Fin 32) (s : State) : Host.Outcome State Fault Refusal :=
  onDev (fun d => d.playBlock se g) s

/-! Block start (R430, R337, R445, R484). -/

/-- LOST clears on a stream-buffer range at the first block boundary after its home has moved: no slice of the range's
hub is fenced (R337). -/
def Dev.clearStreamLost (d : Dev) : Dev :=
  let bufs := (List.range 4).flatMap (fun se => ((List.range 64).filter (fun n => d.bufEn se n)).map (fun n => d.bufBase se n))
  forUpto 64 (fun n d =>
    let a := 0x5000 + 16 * n
    let hub := d.fld (hubUid 0) (a + 8) 6 1
    let ok := (List.range 4).all (fun i => !d.fenced (xsliceUid hub i))
    if d.flag (hubUid 0) (a + 8) 25 && ok && bufs.any (fun b => d.xrOf b == some n) then
      (d.setFlag (hubUid 0) (a + 8) 25 false).setFlag (hubUid 1) (a + 8) 25 false
    else d) d

/-- The next block of a cadence starts (R430): reloads take effect, LOST of stream buffers clears, and CRB_VOTE perturbs this
block of its group and counts down. -/
def Dev.blockStart (d : Dev) (c : Nat) : Dev :=
  match d.blkNext c with
  | none => d
  | some b =>
    if (d.dt : Int) < d.dtStart c b then d
    else
      let d1 := { d with au := { d.au with started := putOpt d.au.started c b } }
      let d2 := (d1.applyReloads c).clearStreamLost
      forUpto 4 (fun se d =>
        let u := seUid se
        let g := d.fld u 0x3030 0 5; let left := d.fld u 0x3030 8 8
        if d.crumbling u && d.cgEn se g && d.cgCad se g == c && decide (left ≠ 0) then
          (d.setFld u 0x3030 8 8 (left - 1)).modCg se g (fun x => { x with pert := (b, d.fld u 0x3030 5 2, d.fld u 0x3030 7 1) :: x.pert.take 7 })
        else d) d2

def execBlockStart (c : Fin 16) (s : State) : Host.Outcome State Fault Refusal := onDev (fun d => d.blockStart c) s

/-! Twin devices (R507-R512). -/

/-- The device ID (R47). -/
def Dev.deviceId (d : Dev) : Nat := d.ownId
/-- Whether the own device ID is the lower of the twins. -/
def Dev.twinLower (d : Dev) (se : Nat) : Bool := decide (d.deviceId < d.fld (seUid se) 0x5810 0 12)

/-- Status of stream `s` in a slot header. -/
def hdrStatus (h : List Byte) (s : Nat) : Nat := dLe h (256 + s / 4) 1 / 4 ^ (s % 4) % 4
/-- Rank of a status: 0b00 and 0b01 are better than 0b10, and 0b10 than 0b11 (R508). -/
def statusRank (x : Nat) : Nat := if x ≤ 1 then 0 else x

/-- TWIN_INPUT_ARRIVAL (R508): the peer's slot of capture block `k` of a mirrored buffer is merged, stream by stream. -/
def Dev.twinInput (d : Dev) (se n : Nat) (k : Nat) (slot : List Byte) : Dev :=
  let u := seUid se; let c := d.bufCad se n
  let due := d.dtStart c (k + 1 + d.bufLo se n) + d.cadGuard c - 2000
  if d.flag u 0x5810 12 = false ∨ d.flag u 0x5818 n = false ∨ due < d.dt ∨
      slot.length ≠ 512 + d.bufBytes se n ∨ opt d.au.merged (64 * se + n) = some k then d
  else
    let a := d.slotAt se n k; let nn := d.cadN c
    match d.engRead a 512 with
    | (d1, .error _) => d1
    | (d1, .ok own) =>
      let theirs (s : Nat) : Bool :=
        let x := statusRank (hdrStatus own s); let y := statusRank (hdrStatus slot s)
        decide (y < x) || (x == y && !d.twinLower se)
      let d2 := forUpto 1024 (fun s d =>
        if theirs s then forAll ((d.rxEntries se s).filter (fun e => mEn e && mBuf e == n)) (fun e d =>
          forUpto nn (fun j d =>
            let o := 512 + sampleOff nn (mCh e) j
            (d.engWrite (a + o) ((slot.drop o).take 4)).1) d) d
        else d) d1
      let st (s : Nat) : Nat := if theirs s then hdrStatus slot s else hdrStatus own s
      let mapped := (List.range 1024).filter (fun s => dEn (d.rxDesc se s) && d.mappedTo se s n)
      let miss := (mapped.filter (fun s => decide (2 ≤ st s))).length
      let single := (mapped.filter (fun s => st s == 1)).length
      let hdr := own.take 16 ++ natLe 2 miss ++ natLe 2 single ++ (own.drop 20).take 236 ++
        (List.range 256).map (fun i => BitVec.ofNat 8 (st (4 * i) + 4 * st (4 * i + 1) + 16 * st (4 * i + 2) + 64 * st (4 * i + 3)))
      let d3 := ((d2.engWrite a hdr).1).setFlag u 0x5810 14 false
      { d3 with au := { d3.au with merged := putOpt d3.au.merged (64 * se + n) k } }

def execTwinInputArrival (se : Fin 4) (n : Fin 64) (k : Nat) (slot : List Byte) (s : State) :
    Host.Outcome State Fault Refusal := onDev (fun d => d.twinInput se n k slot) s

/-- TWIN_INPUT_DEADLINE (R509): the peer's slot of capture block `k` has not arrived in time. -/
def execTwinInputDeadline (se : Fin 4) (n : Fin 64) (k : Nat) (s : State) : Host.Outcome State Fault Refusal :=
  onDev (fun d =>
    let u := seUid se; let c := d.bufCad se n
    let due := d.dtStart c (k + 1 + d.bufLo se n) + d.cadGuard c - 2000
    if d.flag u 0x5810 12 && d.flag u 0x5818 n && decide (due ≤ d.dt) && (opt d.au.merged (64 * se + n) != some k) then
      d.setFlag u 0x5810 14 true
    else d) s

/-- The moment at which a twin acts on a block (R510). -/
def Dev.twinDue (d : Dev) (se g b : Nat) : Int := d.dtStart (d.cgCad se g) (b + 2) - d.lead se / 2

/-- TWIN_DECISION_ARRIVAL (R510): the peer's decision on block `b`, in time; one that comes later is ignored. -/
def execTwinDecisionArrival (se : Fin 4) (g : Fin 32) (b : Nat) (hash : Option Nat) (s : State) :
    Host.Outcome State Fault Refusal :=
  onDev (fun d =>
    if d.flag (seUid se) 0x5810 12 && bit (d.cgCfg se g) 33 && decide ((d.dt : Int) < d.twinDue se g b) then
      (d.setFlag (seUid se) 0x5810 13 true).modCg se g (fun x => { x with peer := (b, hash) :: x.peer.take 7 })
    else d) s

/-- Suppress a block: CG_STAT.LAST and event 0x7 (R511). -/
def Dev.suppress (d : Dev) (se g b : Nat) : Dev :=
  ((d.setFld (seUid se) (0x6010 + 32 * g) 0 2 3).commitLast se g 3 7 b).modCg se g (fun x => { x with supp := b :: x.supp.take 7 })

/-- TWIN_ACTION (R510, Table 11-6). -/
def Dev.twinAction (d : Dev) (se g b : Nat) : Dev :=
  let x := d.cgSt se g
  if d.flag (seUid se) 0x5810 12 = false ∨ bit (d.cgCfg se g) 33 = false ∨ x.acted.contains b ∨
      (d.dt : Int) < d.twinDue se g b then d
  else
    let d1 := d.modCg se g (fun x => { x with acted := b :: x.acted.take 7 })
    match verdictOf x b, (x.peer.find? (fun e => e.1 == b)).map (·.2) with
    | _, none => d1.setFlag (seUid se) 0x5810 13 false
    | some (.release _ h), some (some h') =>
      if h = h' then d1
      else
        let d2 := (d1.commitLast se g 3 6 b).commitRecord se g 0x0406 2 b 3
        if d.twinLower se then d2 else d2.suppress se g b
    | some (.release _ _), some none => d1
    | _, some (some _) => d1.suppress se g b
    | _, some none => d1

def execTwinAction (se : Fin 4) (g : Fin 32) (b : Nat) (s : State) : Host.Outcome State Fault Refusal :=
  onDev (fun d => d.twinAction se g b) s

end Sys2Proof.Machine
end

