-- ==== Sys2Proof/Machine/Image.lean ====
section
/-!
DEFINITION. The layout of the Aedsor image and of the partition record (R563-R586).
-/
namespace Sys2Proof.Machine

/-- Little-endian number in bytes [o, o + n). -/
def iLe (bs : List Byte) (o n : Nat) : Nat := leNat ((bs.drop o).take n)

/-- A section of an image: its type, flags, payload, and the byte offset of its frame. -/
structure Sect where
  ty : Nat
  flags : Nat
  body : List Byte
  off : Nat
  crcOk : Bool
  padOk : Bool

/-- The sections of an image that fill bytes [o, stop), `none` when they do not. The first argument bounds their
number. -/
def sections (img : List Byte) (stop : Nat) : Nat → Nat → Option (List Sect)
  | 0, o => if o = stop then some [] else none
  | n + 1, o =>
    if o = stop then some []
    else if stop < o + 12 then none
    else
      let len := iLe img (o + 4) 4
      let size := (12 + len + 7) / 8 * 8
      if len % 4 ≠ 0 ∨ stop < o + size then none
      else match sections img stop n (o + size) with
        | none => none
        | some rest =>
          let fr := (img.drop o).take (8 + len)
          some (⟨iLe img o 2, iLe img (o + 2) 2, (img.drop (o + 8)).take len, o,
            crc32c fr == iLe img (o + 8 + len) 4,
            ((img.drop (o + 12 + len)).take (size - 12 - len)).all (· == 0)⟩ :: rest)

/-- The sections of an image that is well framed. -/
def imageSects (img : List Byte) : List Sect :=
  (sections img (iLe img 8 4 - 256) (iLe img 12 4) 64).getD []

/-- The sections of a type. -/
def sectsOf (ss : List Sect) (ty : Nat) : List Sect := ss.filter (fun s => s.ty == ty)

/-- The payload of a once-only section, empty when it is absent. -/
def sectBody (ss : List Sect) (ty : Nat) : List Byte :=
  match sectsOf ss ty with | s :: _ => s.body | [] => []

/-- Offsets of `n` entries of a size that begin at `base`. -/
def entries (base size n : Nat) : List Nat := (List.range n).map (fun i => base + size * i)

/-- The partition record in a payload. -/
def parseRec (b : List Byte) : PartRec :=
  let nlc := iLe b 2 2; let ncad := iLe b 4 1; let nwin := iLe b 5 1; let nslc := iLe b 6 1; let nshr := iLe b 7 1
  let o1 := 64 + 8 * ncad; let o2 := o1 + 32 * nlc; let o3 := o2 + 32 * nwin; let o4 := o3 + 4 * nslc
  { part := iLe b 0 1, tier := iLe b 1 1, flags := iLe b 8 1, debug := iLe b 9 1, mcad := iLe b 10 1,
    rejoin := if iLe b 12 4 = 0 then 16384 else iLe b 12 4,
    cads := (entries 64 8 ncad).map (fun o => (iLe b o 1, iLe b (o + 2) 6)),
    cores := (entries o1 32 nlc).map (fun o =>
      ⟨iLe b o 1, iLe b (o + 1) 1 % 2 == 1, iLe b (o + 1) 1 / 2 % 2 == 1, iLe b (o + 1) 1 / 4 % 2 == 1,
        [iLe b (o + 2) 2, iLe b (o + 4) 2, iLe b (o + 6) 2], iLe b (o + 8) 8, iLe b (o + 16) 1, iLe b (o + 17) 2,
        iLe b (o + 20) 4, [iLe b (o + 24) 2, iLe b (o + 26) 2, iLe b (o + 28) 2]⟩),
    wins := (entries o2 32 nwin).map (fun o =>
      ⟨[iLe b o 8, iLe b (o + 8) 8, iLe b (o + 16) 8], iLe b (o + 24) 1, iLe b (o + 25) 1, iLe b (o + 26) 1,
        iLe b (o + 27) 1, iLe b (o + 28) 1, iLe b (o + 29) 1 == 1⟩),
    slices := (entries o3 4 nslc).map (fun o => ⟨iLe b o 2, iLe b (o + 2) 2 % 4096, iLe b (o + 2) 2 / 4096 % 4⟩),
    shares := (entries o4 4 nshr).map (fun o => ⟨iLe b o 1, iLe b (o + 1) 1, iLe b (o + 2) 1, iLe b (o + 3) 1⟩) }

/-- The number of replicas of a tier. -/
def tierReps (tier : Nat) : Nat := tier + 1

/-- Replica `r` (0-2) of a tier: none in a single-tier partition. -/
def repAt (tier r : Nat) : Rep :=
  if tier = 0 then .none else match r with | 0 => .a | 1 => .b | _ => .c

/-- Index of a replica, 0 for A and for a single tier. -/
def repIx : Rep → Nat
  | .none => 0 | .a => 0 | .b => 1 | .c => 2

/-- The record in force of a partition. -/
def Dev.recOf (d : Dev) (p : Nat) : Option PartRec := d.kp.recs.find? (fun r => r.part == p)

/-- Replace the record of a partition. -/
def Dev.putRec (d : Dev) (r : PartRec) : Dev :=
  { d with kp := { d.kp with recs := d.kp.recs.map (fun x => if x.part = r.part then r else x) } }

/-- Whether a partition's record grants a service: 4 HAREBELL, 5 RESTRUCTURE, 6 POWER (FLAGS bits). -/
def Dev.granted (d : Dev) (p i : Nat) : Bool :=
  match d.recOf p with | some r => r.flags / 2 ^ i % 2 == 1 | none => false

/-- The utilisation limit U in percent. -/
def Dev.utilisation (d : Dev) : Nat := iLe (sectBody (imageSects d.kp.image) 0x000E) 0 1

/-- The entry of a logical core. -/
def PartRec.entry (r : PartRec) (l : Nat) : Option CoreEnt := r.cores.find? (fun e => e.lcore == l)

/-- The slices of a replica code, in the order written (R580). -/
def PartRec.sliceList (r : PartRec) (rep : Nat) : List SliceEnt := r.slices.filter (fun s => s.rep == rep)

/-- First address and size of a window for a replica index. -/
def WinEnt.span (w : WinEnt) (r : Nat) : Nat × Nat := (w.bases.getD r 0, 2 ^ w.size)

/-- The private window of a replica that holds a physical address: its base for that replica and for another. -/
def PartRec.privAt (r : PartRec) (ix pa : Nat) : Option WinEnt :=
  r.wins.find? (fun w => !w.shared && decide ((w.span ix).1 ≤ pa) && decide (pa < (w.span ix).1 + (w.span ix).2))

/-! Release of cores (R99, R100, R473, R688). -/

/-- The last block consumed at release, plus one, for each cadence of a record (R473). -/
def Dev.releaseBlocks (d : Dev) (r : PartRec) : SMap Nat :=
  r.cads.foldl (fun m c => SMap.set (fun _ => 0) m c.1 (max c.2 ((opt d.au.done c.1).getD 0) + 1)) []

/-- Release the physical cores of some logical cores of a partition: each starts at its reset vector with the state of
R99, and DMODE as its entry says. A core whose local store is still being cleared is not released (R257). -/
def Dev.releaseLcores (d : Dev) (r : PartRec) (ls : List Nat) : Dev :=
  forAll (d.partCores r.part) (fun c d =>
    let k := d.core c
    match r.entry k.lcore with
    | none => d
    | some e =>
      if ls.contains k.lcore = false ∨ k.run ≠ .reset ∨ 3 ≤ d.power (coreUid c) ∨ d.fenced (coreUid c) ∨
          d.flag (coreUid c) 0x4000 3 then d
      else
        let k0 := resetCore k
        let k1 := { k0 with pc := BitVec.ofNat 64 e.vector, run := .run, lastBlk := d.releaseBlocks r,
                            sCorectl := setBit k0.sCorectl 1 (e.dmode || k.rep != .none) }
        d.setCore c k1) d

/-- A doorbell 28 of a mailbox, set by a core of the same partition, releases the core that its entry holds (R688). -/
def Dev.bellRelease (d : Dev) (p m : Nat) (v : Word) : Dev :=
  match d.recOf p with
  | some r => match r.entry m with
    | some e => if bit v 28 ∧ e.late ∧ d.kp.released.contains p then d.releaseLcores r [m] else d
    | none => d
  | none => d

end Sys2Proof.Machine
end

