-- ==== Sys2Proof/Machine/Rejoin.lean ====
section
/-!
DEFINITION. Fencing a replica and rebuilding it: evidence, donor, copy passes, the final delta (R484, R496-R503), and the
mailbox writes of replicas (R422-R426).
-/
namespace Sys2Proof.Machine

/-! Replica mailbox writes (R424, R425, R546). -/

/-- Offsets of the mailbox registers and of the proxies' message and status: what a replica's writes are matched for. -/
def repMbxOff (off : Nat) : Bool :=
  (decide (0x4000 ≤ off) && decide (off < 0x8100) && decide (off % 64 < 0x30)) ||
    (decide (0xE000 ≤ off) && decide (off < 0xE200) && (off % 32 == 8 || off % 32 == 0x10))

/-- Perform a matched write for a logical core: MSG, ACK, BELL and BELLCLR by their rules, under the rights of the
partition; the message of a proxy, and OVERRUN of its status. What is refused is refused without an answer (R425). -/
def Dev.mbxPerform (d : Dev) (p l off : Nat) (v : Word) : Dev :=
  if 0xE000 ≤ off then
    let r := (off - 0xE000) / 32
    if d.proxyOf p r = false then d
    else if off % 32 = 8 then (d.proxyWrite r v).1
    else if bit v 2 then d.setFlag mbxU (offProxy r + 0x10) 2 false else d
  else
    let m := (off - 0x4000) / 64
    match (off - 0x4000) % 64 with
    | 0x00 => if d.mbxRight p m false then (d.mbxMsg m (some l) v).1 else d
    | 0x10 => if d.mbxOwner p m then (d.mbxAck m v).1 else d
    | 0x18 => if d.mbxRight p m true then (d.mbxBell m false v).bellRelease p m v else d
    | 0x20 => if d.mbxOwner p m then d.setReg mbxU off (BitVec.ofNat 64 (bits v 0 32)) else d
    | 0x28 => if d.mbxOwner p m then d.mbxBellClr m v else d
    | 0x08 => if d.mbxOwner p m ∧ bit v 2 then d.setFlag mbxU off 2 false else d
    | _ => d

/-- What record 0x0408 calls the register written: the mailbox, or 0x180 + r for proxy r. -/
def mbxNumber (off : Nat) : Nat := if 0xE000 ≤ off then 0x180 + (off - 0xE000) / 32 else (off - 0x4000) / 64

/-- A mailbox record 0x0408 for a replica (3: none), and what the keeper has to act on. -/
def Dev.mbxDiffer (d : Dev) (p : Nat) (w : RepWrite) (rep : Option Nat) : Dev :=
  let d1 := d.raise (mbxUid (d.activeHub 11))
    ⟨0x0408, 2, at_ (mbxNumber w.off) 0 9 + at_ w.lcore 16 8 + at_ (rep.getD 3) 24 2 + at_ w.ord 32 32,
      match rep with | some r => d.repUnit p r | none => 0xFFFF, some p⟩
  { d1 with au := { d1.au with suspects := d1.au.suspects ++ [(p, rep, d.dt)] } }

/-- Whether two replica writes are the same write. -/
def sameWrite (a b : RepWrite) : Bool := a.lcore == b.lcore && a.ord == b.ord && a.off == b.off && a.val == b.val

/-- Match the waiting writes of one ordinal of a logical core against the replicas now live: a majority is performed once, and
its differing writes are recorded; when every live replica has written and none matches, nothing is performed.
DEDUCED, log entry 57. -/
def Dev.replicaMatch (d : Dev) (p l o : Nat) : Dev :=
  let live := d.liveReps p
  let mine := d.rm.waiting.filter (fun x => x.lcore == l && x.ord == o && live.contains x.rep)
  let rest := d.rm.waiting.filter (fun x => !(x.lcore == l && x.ord == o))
  let need := if live.length = 1 then 1 else 2
  match mine.find? (fun w => decide (need ≤ (mine.filter (fun x => sameWrite x w)).length)) with
  | some w =>
    let kept := d.rm.done.filter (fun x => !(x.lcore == l && decide (x.ord + 8 < o)))
    let d2 := ({ d with rm := ⟨d.rm.ord, rest, w :: kept⟩ }).mbxPerform p l w.off w.val
    forAll (mine.filter (fun x => !sameWrite x w)) (fun x d => d.mbxDiffer p x (some x.rep)) d2
  | none => match mine.getLast? with
    | some w => if mine.length = live.length then ({ d with rm := { d.rm with waiting := rest } }).mbxDiffer p w none else d
    | none => d

/-- The replicas that are live have changed: what waits is matched against those now live (R424). DEDUCED, log entry 57. -/
def Dev.replicaSettle (d : Dev) (p : Nat) : Dev :=
  forAll (d.rm.waiting.filter (fun w => d.lcorePart w.lcore == some p)) (fun w d => d.replicaMatch p w.lcore w.ord) d

/-- REPLICA_MAILBOX_WRITE (R424, R425): a write by a replica's logical core, with the next ordinal of that core. A write of
a replica that is not live has no effect but its ordinal. -/
def Dev.replicaMbx (d : Dev) (p l rep off : Nat) (v : Word) : Dev :=
  let o := SMap.get (fun _ => 0) d.rm.ord (4 * l + rep) + 1
  let d0 := { d with rm := { d.rm with ord := SMap.set (fun _ => 0) d.rm.ord (4 * l + rep) o } }
  let w : RepWrite := ⟨l, o, rep, off, v⟩
  if (d.liveReps p).contains rep = false then d0
  else match d0.rm.done.find? (fun x => x.lcore == l && x.ord == o) with
  | some x => if sameWrite x w then d0 else d0.mbxDiffer p w (some rep)
  | none => ({ d0 with rm := { d0.rm with waiting := d0.rm.waiting ++ [w] } }).replicaMatch p l o

/-- REPLICA_MAILBOX_WRITE: core `c` runs a replica; its write reaches the mailbox block at an offset. -/
def execReplicaMailboxWrite (c : CoreId) (off : BitVec 16) (v : Word) (s : State) : Host.Outcome State Fault Refusal :=
  onDev (fun d =>
    let k := d.core c
    if k.placed ∧ k.rep ≠ .none ∧ repMbxOff off.toNat then d.replicaMbx k.part k.lcore (repIx k.rep) off.toNat v else d) s

/-! Fencing a replica. -/

/-- Whether a record's code counts as evidence: not the commit-stage and mailbox records 0x0401-0x0408. -/
def evidenceCode (c : Nat) : Bool := decide (c < 0x0401) || decide (0x0408 < c)

/-- Units that the valid error records raised from DT `t` on name: the unit that holds the record, and its related unit.
DEDUCED, log entry 46. -/
def Dev.evidence (d : Dev) (t : Nat) : List Nat :=
  (d.regs.filter (fun e => e.1 % 65536 == 0x2000 && bit e.2 0)).flatMap (fun e =>
    let u := e.1 / 65536
    if t ≤ (d.reg u 0x2018).toNat ∧ evidenceCode (d.fld u 0x2008 0 16) then
      (if d.fld u 0x2008 16 16 = 0xFFFF then [u] else [u, d.fld u 0x2008 16 16]) else [])

/-- The cores that run replica index `ix` of a partition. -/
def Dev.repCores (d : Dev) (p ix : Nat) : List CoreId :=
  (d.partCores p).filter (fun c => (d.core c).rep != .none && repIx (d.core c).rep == ix)

/-- The clusters that hold a replica's cores. -/
def Dev.repClusters (d : Dev) (p ix : Nat) : List Nat := dedupNat ((d.repCores p ix).map (fun c => coreCluster c.val))

/-- Whether a unit is used by a replica: a unit of its clusters, or a slice of its list. -/
def Dev.repUses (d : Dev) (p ix u : Nat) : Bool :=
  let inK := match unitKind u with
    | some .core | some .l2 | some .l3 | some .cstop => (d.repClusters p ix).contains (uidClusterNo u)
    | _ => false
  inK || (d.repCores p ix).any (fun c => (d.sliceList c).contains u)

/-- The replica that a verdict of R496 or R497 points at. DEDUCED, log entry 46. -/
def Dev.suspectOf (d : Dev) (p : Nat) (rep : Option Nat) (t : Nat) : Nat :=
  match rep with
  | some r => r
  | none =>
    let users (u : Nat) : List Nat := (List.range 3).filter (fun r => d.repUses p r u)
    match (d.evidence t).find? (fun u => (users u).length == 1) with
    | some u => (users u).headD 1
    | none => 1

/-- Clear the LIVE bit of a replica in every group of its partition. -/
def Dev.clearLive (d : Dev) (p r : Nat) : Dev :=
  let d1 := forAll (d.groupsOf p) (fun e d =>
    let m := bits (d.cgCfg e.1 e.2) 21 3
    if m / 2 ^ r % 2 = 1 then d.setLive e.1 e.2 (m - 2 ^ r) (d.liveFrom (d.cgCad e.1 e.2)) else d) d
  d1.replicaSettle p

/-- Abandon a rejoin whose donor has been fenced, or whose partition has no live replica; it starts again at once
(Table 11-7). -/
def Dev.dropDonor (d : Dev) (p r : Nat) : Dev :=
  { d with au := { d.au with rejoins := d.au.rejoins.map (fun j =>
      if j.part = p ∧ (repIx j.donor = r ∨ d.liveReps p = []) then { j with stage := 3, at_ := 0 } else j) } }

/-- REPLICA_FENCE (R496, R497): the oldest verdict that the keeper has to act on for a partition. -/
def Dev.replicaFence (d : Dev) (p : Nat) : Dev :=
  match d.au.suspects.find? (fun x => x.1 == p) with
  | none => d
  | some x =>
    let d0 := { d with au := { d.au with suspects := d.au.suspects.erase x } }
    let r := d.suspectOf p x.2.1 x.2.2
    let ks := d.repClusters p r
    let named := ks.filter (fun k => (d.evidence x.2.2).any (fun u =>
      (match unitKind u with | some .core | some .l2 | some .l3 | some .cstop => true | _ => false) && uidClusterNo u == k))
    let d1 := forAll (if named = [] then ks else named) (fun k d => d.fenceCluster k) d0
    (d1.clearLive p r).dropDonor p r

def execReplicaFence (p : Fin 256) (s : State) : Host.Outcome State Fault Refusal := onDev (fun d => d.replicaFence p) s

/-- LIVE_WRITE (R484): the keeper writes the LIVE bits of a group; they apply from the next block start. -/
def execLiveWrite (se : Fin 4) (g : Fin 32) (live : BitVec 3) (s : State) : Host.Outcome State Fault Refusal :=
  onDev (fun d => (d.setLive se g live.toNat (d.liveFrom (d.cgCad se g))).replicaSettle (d.cgPart se g)) s

/-! Rejoin. -/

/-- The donor of a rejoin (R498): a live replica that agreed in the latest block released by agreement, else the
lowest-lettered live one. -/
def Dev.donorOf (d : Dev) (p r : Nat) : Option Nat :=
  let live := (d.liveReps p).filter (fun q => q != r)
  let last := (d.groupsOf p).foldl (fun (a : Nat × List Nat) e =>
    let g := (d.cgSt e.1 e.2).agreed
    if a.1 ≤ g.1 then g else a) (0, [])
  (live.find? (fun q => last.2.contains q)).orElse (fun _ => live.head?)

/-- Copy one sector of the donor's private memory to the new replica, coherently. -/
def Dev.copySector (d : Dev) (src dst : Rq) (from_ to_ : Nat) : Dev :=
  match d.homeLoad src from_ with
  | (d1, .error _) => d1
  | (d1, .ok s) => ((d1.homeStore dst to_ (natLe 64 s.toNat)).1).loseResv to_ 64 none

/-- Copy a 4 KiB page of the donor to the new replica; pages are numbered by the donor's physical address. -/
def Dev.copyPage (d : Dev) (rec_ : PartRec) (src dst : Rq) (si di page : Nat) : Dev :=
  match rec_.privAt si (4096 * page) with
  | none => d
  | some w =>
    let to_ := 4096 * page - w.bases.getD si 0 + w.bases.getD di 0
    forUpto 64 (fun i d => d.copySector src dst (4096 * page + 64 * i) (to_ + 64 * i)) d

/-- Every page of a replica's private windows. -/
def PartRec.privPages (r : PartRec) (ix : Nat) : List Nat :=
  (r.wins.filter (fun w => !w.shared)).flatMap (fun w =>
    (List.range (2 ^ w.size / 4096)).map (fun i => w.bases.getD ix 0 / 4096 + i))

/-- The requester that stands for a replica: its first core, or that of a single-tier partition, whose cores have REP 0 (R309).
DEDUCED, log entry 40. -/
def Dev.repRq (d : Dev) (p ix : Nat) : Rq :=
  match (d.partCores p).find? (fun c => repIx (d.core c).rep == ix) with
  | some c => d.rqOf c
  | none => engRq

/-- Copy a list of pages from one replica to another. -/
def Dev.copyPages (d : Dev) (p si di : Nat) (pages : List Nat) : Dev :=
  match d.recOf p with
  | none => d
  | some r => forAll pages (fun g d => d.copyPage r (d.repRq p si) (d.repRq p di) si di g) d

/-- Copy local stores, core state and mailbox ordinals from the donor, logical core by logical core (R499). The new
cores keep their placement; their reservation is cleared and their TLBs are empty. -/
def Dev.copyCores (d : Dev) (p si di : Nat) : Dev :=
  forAll (d.repCores p di) (fun c d =>
    match (d.repCores p si).find? (fun x => (d.core x).lcore == (d.core c).lcore) with
    | none => d
    | some x =>
      let ls := (d.localStore.filter (fun e => e.1 / 2 ^ 17 == x.val)).foldl
        (fun m e => SMap.set zeroByte m (lsKey c (e.1 % 2 ^ 17)) e.2) (d.clearLocal c).localStore
      let k := d.core x; let me := d.core c
      let k' := { k with rep := me.rep, tlb := [], walkCache := [], sb := [], fetchBuf := none, ras := [], deferred := none }
      let o := SMap.get (fun _ => 0) d.rm.ord (4 * k.lcore + si)
      let d1 := (({ d.clearLocal c with localStore := ls }).dropResv c).setCore c k'
      -- R424: the copied state includes the writes that the donor has made, those that still wait among them.
      let ws := d1.rm.waiting.filter (fun w => !(w.lcore == k.lcore && w.rep == di))
      let more := (ws.filter (fun w => w.lcore == k.lcore && w.rep == si)).map (fun w => { w with rep := di })
      { d1 with rm := ⟨SMap.set (fun _ => 0) d1.rm.ord (4 * k.lcore + di) o, ws ++ more, d1.rm.done⟩ }) d

/-- The rejoin of a partition. -/
def Dev.rejoinOf (d : Dev) (p : Nat) : Option Rejoin := d.au.rejoins.find? (fun j => j.part == p)

/-- Replace the rejoin of a partition. -/
def Dev.putRejoin (d : Dev) (p : Nat) (j : Option Rejoin) : Dev :=
  let rest := d.au.rejoins.filter (fun x => x.part != p)
  { d with au := { d.au with rejoins := match j with | some x => rest ++ [x] | none => rest } }

/-- Start copying: the first pass copies every page as it stands; what the donor writes from here on is recorded.
DEDUCED, log entry 58. -/
def Dev.rejoinStart (d : Dev) (p ix : Nat) : Dev :=
  match d.recOf p, d.donorOf p ix with
  | some r, some q =>
    if r.tier = 0 ∨ r.tier < ix ∨ d.repLive p ix ∨ d.repCores p ix = [] ∨ (d.repCores p ix).any (fun c => (d.core c).run != .reset) then d
    else
      let j : Rejoin := ⟨p, repAt r.tier ix, repAt r.tier q, 1, [], 0, d.dt⟩
      (d.copyPages p q ix (r.privPages q)).putRejoin p (some j)
  | _, _ => d

/-- REJOIN_START (R498, R499): the state-copy engine starts on replica `ix` of a partition whose new cores are placed. -/
def execRejoinStart (p : Fin 256) (ix : Fin 3) (s : State) : Host.Outcome State Fault Refusal :=
  onDev (fun d => match d.rejoinOf p with
    | some _ => d
    | none => d.rejoinStart p ix) s

/-- Bytes that the final delta of a rejoin would carry: recorded pages and the local stores. -/
def Dev.deltaBytes (d : Dev) (j : Rejoin) : Nat := 4096 * j.pages.length + 131072 * (d.repCores j.part (repIx j.rep)).length

/-- REJOIN_PASS_END (R500): within the budget the final delta is prepared; otherwise another pass copies the recorded
pages, and after eight passes the rejoin is abandoned with record 0x0407 and starts again after 1 s. -/
def Dev.rejoinPassEnd (d : Dev) (p : Nat) : Dev :=
  match d.rejoinOf p, d.recOf p with
  | some j, some r =>
    if j.stage ≠ 0 then d
    else if d.deltaBytes j ≤ 1024 * r.rejoin then d.putRejoin p (some { j with stage := 1 })
    else if 8 ≤ j.pass then
      (d.putRejoin p (some { j with stage := 3, at_ := d.dt + 1000000000, pages := [] })).raise d.keeperU
        ⟨0x0407, 2, j.pass, 0xFFFF, some p⟩
    else (d.copyPages p (repIx j.donor) (repIx j.rep) j.pages).putRejoin p (some { j with pass := j.pass + 1, pages := [] })
  | _, _ => d

def execRejoinPassEnd (p : Fin 256) (s : State) : Host.Outcome State Fault Refusal := onDev (fun d => d.rejoinPassEnd p) s

/-- REJOIN_RETRY (R500, Table 11-7): an abandoned rejoin starts again, with a donor chosen anew. -/
def execRejoinRetry (p : Fin 256) (s : State) : Host.Outcome State Fault Refusal :=
  onDev (fun d => match d.rejoinOf p with
    | some j => if j.stage = 3 ∧ j.at_ ≤ d.dt then (d.putRejoin p none).rejoinStart p (repIx j.rep) else d
    | none => d) s

/-- The first-granted cadence of a partition. -/
def PartRec.firstCad (r : PartRec) : Nat := match r.cads with | c :: _ => c.1 | [] => 0

/-- Whether every core of a replica sits in WAITB. -/
def Dev.allWaitb (d : Dev) (p ix : Nat) : Bool :=
  (d.repCores p ix).all (fun c => match (d.core c).run with | .waitb _ _ => true | _ => false)

/-- REJOIN_FINAL_DELTA (R501, R503): at the block start at which the donor's every logical core sits in WAITB the keeper
writes LIVE, which applies to the block that starts there, and the final delta begins. -/
def Dev.rejoinDelta (d : Dev) (p : Nat) : Dev :=
  match d.rejoinOf p, d.recOf p with
  | some j, some r =>
    match d.blkNow r.firstCad with
    | some b =>
      if j.stage = 1 ∧ d.allWaitb p (repIx j.donor) ∧ d.dtStart r.firstCad b = d.dt then
        let d1 := forAll (d.groupsOf p) (fun e d =>
          match d.blkNow (d.cgCad e.1 e.2) with
          | some gb => d.setLive e.1 e.2 (bits (d.cgCfg e.1 e.2) 21 3 ||| 2 ^ repIx j.rep) gb
          | none => d) d
        d1.putRejoin p (some { j with stage := 2 })
      else d
    | none => d
  | _, _ => d

def execRejoinFinalDelta (p : Fin 256) (s : State) : Host.Outcome State Fault Refusal := onDev (fun d => d.rejoinDelta p) s

/-- REJOIN_DONE (R501, R503): the delta has been copied; the new replica sits in the donor's WAITB. -/
def execRejoinDone (p : Fin 256) (s : State) : Host.Outcome State Fault Refusal :=
  onDev (fun d => match d.rejoinOf p with
    | some j =>
      if j.stage = 2 then
        let d1 := ((d.copyPages p (repIx j.donor) (repIx j.rep) j.pages).copyCores p (repIx j.donor) (repIx j.rep)).putRejoin p none
        -- R761, R783: a rebuilt replica is back in service, and its cores owe a resync packet.
        let cs := d1.repCores p (repIx j.rep)
        let d2 := forAll cs (fun c d => d.setFlag (coreUid c) 0xF010 6 false) d1
        let d3 := { d2 with db := { d2.db with withdrawn := d2.db.withdrawn.filter (fun x => x != (p.val, repIx j.rep)) },
                            tr := { d2.tr with resync := d2.tr.resync ++ cs.map (fun (x : CoreId) => x.val) } }
        d3.replicaSettle p
      else d
    | none => d) s

/-- A write to memory by the donor of a rejoin records its page (R500). -/
def Dev.noteWrite (d : Dev) (p : Nat) (rep : Rep) (pa : Nat) : Dev :=
  match d.rejoinOf p with
  | none => d
  | some j =>
    if rep ≠ .none ∧ j.donor = rep ∧ j.stage < 2 then
      match (d.recOf p).bind (fun r => r.privAt (repIx rep) pa) with
      | some _ => if j.pages.contains (pa / 4096) then d
                  else d.putRejoin p (some { j with pages := j.pages ++ [pa / 4096] })
      | none => d
    else d

/-- Whether the final delta holds a core in WAITB (R501). -/
def Dev.deltaHolds (d : Dev) (k : Core) : Bool :=
  match d.rejoinOf k.part with
  | some j => j.stage == 2 && (k.rep == j.donor || k.rep == j.rep)
  | none => false

/-- The snapshot that a replica reads (R422): that of the block its latest WAITB on MCAD returned, or the one taken at
release. `none`: older than the four kept. -/
def Dev.snapFor (d : Dev) (k : Core) : Option Snap :=
  let blk := match opt d.kp.mcad k.part with
    | some c => (match SMap.get (fun _ => 0) k.lastBlk (256 + c) with | 0 => none | b + 1 => some b)
    | none => none
  d.snaps.find? (fun x => x.lcore == k.lcore && x.blk == blk)

/-- A read by a replica of the mailbox block: its own mailbox and MBX_LASTACK, from the snapshot (R422, R423). -/
def Dev.replicaRead (d : Dev) (k : Core) (off : Nat) : Except Nat Word :=
  let mine := (decide (mbxOff k.lcore 0 ≤ off) && decide (off ≤ mbxOff k.lcore 0x28)) || off == 0xD000 + 8 * k.lcore ||
    (repMbxOff off && decide (0xE000 ≤ off) && d.proxyOf k.part ((off - 0xE000) / 32))
  if mine = false then .error errNotPermitted
  else match d.snapFor k with
  | none => .error errStale
  | some s => match s.regs.find? (fun e => e.1 == off) with
    | some e => .ok e.2
    | none => .error errNotPermitted

/-! The store buffer (R217, R128, R129). -/

/-- Whether a physical address lies in the self slot (Table 1-6). -/
def inSelf (pa : Nat) : Bool := decide (0xE0001FF00000 ≤ pa) && decide (pa < 0xE00020000000)

/-- A store to memory or to the core's own local store is performed; the result is the error response it got. Other cores'
reservations on the granule are lost (R135), and a rejoin notes the page (R500). -/
def Dev.storePerform (d : Dev) (c : CoreId) (e : SbEntry) : Dev × Option Nat :=
  let k := d.core c; let rq := d.rqOf c; let n := e.data.length
  let r : Dev × Except Nat Unit :=
    if inSelf e.pa then d.lsWrite c (e.pa - 0xE0001FF00000) e.data
    else match e.mt with
      | .wb =>
        let miss := d.l2Miss rq e.pa
        let r := d.l2Store rq e.pa (if e.st then 3 else 0) e.ph e.data
        if miss then (r.1.prefetch rq e.pa e.ph false e.st, r.2) else r
      | .wt => d.wtStore rq e.pa e.data
      | _ => d.homeStore rq e.pa e.data
  match r with
  | (d1, .error x) => (d1, some x)
  | (d1, .ok ()) => (((d1.loseResv e.pa n (some c.val)).noteWrite k.part k.rep e.pa), none)

/-- A store that has retired is performed; an error response becomes a deferred store error (R129), of which the core keeps
the first. -/
def Dev.storeLate (d : Dev) (c : CoreId) (e : SbEntry) : Dev :=
  match d.storePerform c e with
  | (d1, none) => d1
  | (d1, some x) => d1.modCore c (fun k => { k with deferred := k.deferred.orElse (fun _ => some (e.va, x)) })

/-- Perform the first `n` entries of the store buffer, oldest first. -/
def Dev.sbDrain (d : Dev) (c : CoreId) : Nat → Dev
  | 0 => d
  | n + 1 => match (d.core c).sb with
    | [] => d
    | e :: es => ((d.modCore c (fun k => { k with sb := es })).storeLate c e).sbDrain c n

/-- Empty the store buffer. -/
def Dev.sbFlush (d : Dev) (c : CoreId) : Dev := d.sbDrain c (d.core c).sb.length

/-! A halted core (R749-R755, R760). -/

/-- A core halts: it takes no further instruction, has nothing outstanding (R750), its reservation is cleared, and a wait
runs again on resume (R754). A replica is withdrawn: the keeper clears its LIVE bits (R760). -/
def Dev.haltNow (d : Dev) (c : CoreId) (reason hits : Nat) : Dev :=
  let u := coreUid c; let k := d.core c; let ix := repIx k.rep
  let d1 := ((((d.sbFlush c).dropResv c).setFld u 0xF010 0 2 1).setFld u 0xF010 2 4 reason).setFld u 0xF010 16 4 hits
  let d2 := { d1 with db := { d1.db with haltAt := SMap.erase d1.db.haltAt c, stepping := SMap.erase d1.db.stepping c } }
  let d3 := if d2.power u ≤ 2 then d2.setPower u 0 else d2
  let d4 := d3.modCore c (fun x => match x.run with | .waite => { x with run := .run } | .waitb _ _ => { x with run := .run } | _ => x)
  if k.placed ∧ k.rep ≠ .none then
    let d5 := forAll (d4.repCores k.part ix) (fun (x : CoreId) d => d.setFlag (coreUid x) 0xF010 6 true) (d4.clearLive k.part ix)
    let d6 := d5.dropDonor k.part ix
    { d6 with db := { d6.db with withdrawn := if d6.db.withdrawn.contains (k.part, ix) then d6.db.withdrawn else (k.part, ix) :: d6.db.withdrawn } }
  else d4

end Sys2Proof.Machine
end

