-- ==== Sys2Proof/Machine/Links.lean ====
section
/-!
DEFINITION. Ethernet ports and rings, Trelub links, proxies, remote memory and PCIe (R514-R562).
-/
namespace Sys2Proof.Machine

/-! Register writes of the quads and of the routing table. -/

/-- Take every port and link of a quad down. -/
def Dev.quadDown (d : Dev) (q : Nat) : Dev := forUpto 4 (fun l d => d.linkDown (4 * q + l)) d

/-- A write of LQ_CFG: a change of MODE or TWIDTH first takes the quad down (R517). -/
def Dev.lqCfgWrite (d : Dev) (u : Nat) (r : RegRow) (v : Word) : Dev :=
  let old := d.reg u 0x4000
  if bits old 0 5 ≠ bits v 0 5 then (d.quadDown (uidQuad u)).regStore u r 0 v else d.regStore u r 0 v

/-- A write of LQ_LINK[l]: a refused link goes down (R536); the routes are checked again with the new CABLE. -/
def Dev.lqLinkWrite (d : Dev) (u : Nat) (r : RegRow) (l : Nat) (v : Word) : Dev :=
  let d1 := d.regStore u r l v
  let d2 := if d1.linkState (4 * uidQuad u + l) = 5 then d1.linkDown (4 * uidQuad u + l) else d1
  d2.checkRoutes

/-- A write of TRL_RT: the entry that TRL_RT_SEL selects, its reserved values refused field by field (R12), and the check
of R542. -/
def Dev.trlRtWrite (d : Dev) (u : Nat) (r : RegRow) (v : Word) : Dev :=
  let dst := d.fld (hubUid 0) 0x8010 0 12
  let (x, bad) := writeFields r.fields (d.route dst) v
  let d1 := (d.setRoute dst x).checkRoute dst
  if bad then d1.raise u (Rec.plain 0x0101 1 0x8018) else d1

/-! Ports. Numbers 0-39 are Ethernet ports, 40 and 41 the management ports, 42-45 the PCIe root ports. -/

/-- Unit and first ring of a port. -/
def portUnit (p : Nat) : Nat × Nat := if p < 40 then (quadUid (p / 4), 2 * (p % 4)) else (mgtUid (p - 40), 0)
/-- Number of a port among the event sources of Table 12-2. -/
def portQuad (p : Nat) : Nat := if p < 40 then p / 4 else 10 + (p - 40)
/-- Whether an Ethernet or management port is up. -/
def Dev.ethUp (d : Dev) (p : Nat) : Bool :=
  if p < 40 then d.isLink p && !d.isTrelub p && d.linkState p == 4
  else d.flag (mgtUid (p - 40)) 0x4000 0 && d.flag (mgtUid (p - 40)) 0x4000 3
/-- PORT_MAC of a port. -/
def Dev.portMac (d : Dev) (p : Nat) : Word := if p < 40 then d.reg (quadUid (p / 4)) (0x4100 + 8 * (p % 4)) else d.reg (mgtUid (p - 40)) 0x4100

/-- Whether [pa, pa + n) lies in one enabled exchange range. -/
def Dev.inRange (d : Dev) (pa n : Nat) : Bool :=
  match d.xrOf pa with
  | some i => d.xrOf (pa + n - 1) == some i
  | none => false

/-! Received frames (R520, R521). -/

/-- Big-endian field of a frame. -/
def fBe (b : List Byte) (o n : Nat) : Nat := beNat ((b.drop o).take n)

/-- The stream packet that an Ethernet frame carries: AVTP, or UDP over IPv4 or IPv6, with or without a VLAN tag. -/
def framePkt (p : Nat) (b : List Byte) : Option Pkt :=
  let o := if fBe b 12 2 = 0x8100 then 18 else 14
  match fBe b (o - 2) 2 with
  | 0x22F0 => some ⟨p, true, false, fBe b (o + 4) 8, 0, b.drop o⟩
  | 0x0800 =>
    let h := 4 * (fBe b o 1 % 16)
    if fBe b (o + 9) 1 = 17 then some ⟨p, false, false, fBe b (o + 16) 4, fBe b (o + h + 2) 2,
      (b.drop (o + h + 8)).take (fBe b (o + h + 4) 2 - 8)⟩ else none
  | 0x86DD =>
    if fBe b (o + 6) 1 = 17 then some ⟨p, false, true, fBe b (o + 24) 16, fBe b (o + 42) 2,
      (b.drop (o + 48)).take (fBe b (o + 44) 2 - 8)⟩ else none
  | _ => none

/-- The engine and stream that claim a frame (R521, step 3). -/
def Dev.streamFor (d : Dev) (p : Nat) (b : List Byte) : Option (Nat × Pkt) :=
  match framePkt p b with
  | none => none
  | some k => ((List.range 4).find? (fun se => (d.matchRx se k).isSome)).map (fun se => (se, k))

/-- Whether a frame is a PTP message on the port that the image gives PTP (step 4). -/
def Dev.isPtp (d : Dev) (p : Nat) (b : List Byte) : Bool :=
  let dev := sectBody (imageSects d.kp.image) 0x0001
  let o := if fBe b 12 2 = 0x8100 then 18 else 14
  decide (iLe dev 6 1 ≠ 0) && iLe dev 8 1 == p &&
    (fBe b (o - 2) 2 == 0x88F7 || (match framePkt p b with | some k => !k.avtp && (k.udp == 319 || k.udp == 320) | none => false))

/-! Rings (R523-R526). -/

/-- RING_BASE and RING_IDX of ring `r` of a unit. -/
def Dev.ringB (d : Dev) (u r : Nat) : Word := d.reg u (0x4200 + 16 * r)
def Dev.ringI (d : Dev) (u r : Nat) : Word := d.reg u (0x4208 + 16 * r)
/-- Descriptors in a ring. -/
def Dev.ringN (d : Dev) (u r : Nat) : Nat := 2 ^ bits (d.ringB u r) 1 4
/-- Address of a descriptor of a ring. -/
def Dev.ringAt (d : Dev) (u r i : Nat) : Nat := bits (d.ringB u r) 12 36 * 4096 + 16 * (i % d.ringN u r)
/-- Frames between a ring and its port. -/
def Dev.ringBusy (d : Dev) (u r : Nat) : Nat := (d.nt.jobs.filter (fun j => j.unit == u && j.ring == r)).length
/-- Whether an enabled ring has a descriptor that no frame has taken. -/
def Dev.ringFree (d : Dev) (u r : Nat) : Bool :=
  let n := d.ringN u r; let tail := bits (d.ringI u r) 0 16; let head := bits (d.ringI u r) 16 16
  bit (d.ringB u r) 0 && decide (d.ringBusy u r < (tail + n - head) % n)

/-- ETH_RX_FRAME (R520, R521): a frame, FCS excluded, arrives on a port; `fcsOk` is its check, `unc` an uncorrectable FEC
codeword, `occ` the occupancy of the engine's buffer. -/
def Dev.ethRx (d : Dev) (p : Nat) (b : List Byte) (fcsOk unc : Bool) (occ : Nat) : Dev :=
  let mac := d.portMac p
  let dst := fBe b 0 6
  let mc := fBe b 0 1 % 2 = 1
  let d0 := if unc ∧ p < 40 then d.fecError p else d
  let claimed := d0.streamFor p b
  let ptp := d0.isPtp p b
  let (u, r0) := portUnit p
  if d.ethUp p = false then d
  else if fcsOk = false ∨ unc ∨ b.length + 4 < 64 ∨ 9216 < b.length + 4 then (if p < 40 then d0.linkErr p 1 else d0)
  else if fBe b 12 2 = 0x8808 then d0
  else if dst ≠ bits mac 0 48 ∧ dst ≠ 2 ^ 48 - 1 ∧ ¬(mc ∧ (claimed.isSome ∨ ptp ∨ bit mac 48)) then d0
  else match claimed with
  | some (se, k) => d0.rxPacket se k occ
  | none =>
    if ptp then { d0 with nt := { d0.nt with ptp := d0.nt.ptp ++ [(p, b, d.dt)] } }
    else if d0.ringFree u r0 then { d0 with nt := { d0.nt with jobs := d0.nt.jobs ++ [⟨u, r0, b, 0, d.dt⟩] } }
    else d0.wrapFld u (0x4208 + 16 * r0) 32 32

def execEthRxFrame (p : Fin 42) (b : List Byte) (fcsOk unc : Bool) (occ : Nat) (s : State) : Host.Outcome State Fault Refusal :=
  onDev (fun d => d.ethRx p b fcsOk unc occ) s

/-- ETH_TX_FRAME (R522-R524): a port takes the next descriptor of its transmit ring and sends the frame. A buffer outside
the exchange ranges, or poisoned data (R707), is not sent. DEDUCED, log entry 64. -/
def Dev.ethTx (d : Dev) (p : Nat) : Dev :=
  let (u, r0) := portUnit p; let r := r0 + 1
  if d.ethUp p = false ∨ d.ringFree u r = false then d
  else
    let at_ := d.ringAt u r (bits (d.ringI u r) 16 16 + d.ringBusy u r)
    match d.engRead at_ 16 with
    | (d1, .error _) => d1
    | (d1, .ok ds) =>
      let buf := leNat (ds.take 8); let len := dLe ds 8 2
      let job (d : Dev) (st : Nat) : Dev := { d with nt := { d.nt with jobs := d.nt.jobs ++ [⟨u, r, [], st, d.dt⟩] } }
      if d1.inRange buf (max 1 len) = false then job d1 2
      else match d1.engRead buf len with
      | (d2, .error e) => job (if e = errPoisoned then d2.raise u (Rec.plain 0x0307 2 buf) else d2) 2
      | (d2, .ok bs) => job { d2 with sent := d2.sent ++ [.frame p bs d.dt] } 0

def execEthTxFrame (p : Fin 42) (s : State) : Host.Outcome State Fault Refusal := onDev (fun d => d.ethTx p) s

/-- RING_DESCRIPTOR_DONE (R524, R525): the oldest frame of a ring completes the descriptor at HEAD. DEDUCED, log entry 64. -/
def Dev.ringDone (d : Dev) (p : Nat) (tx : Bool) : Dev :=
  let (u, r0) := portUnit p; let r := r0 + tx.toNat
  match d.nt.jobs.find? (fun j => j.unit == u && j.ring == r) with
  | none => d
  | some j =>
    let head := bits (d.ringI u r) 16 16
    let a := d.ringAt u r head
    let d0 := { d with nt := { d.nt with jobs := d.nt.jobs.erase j } }
    match d0.engRead a 16 with
    | (d1, .error _) => d1
    | (d1, .ok ds) =>
      let buf := leNat (ds.take 8)
      let st := if tx then j.status else if d1.inRange buf 9216 then 0 else 2
      let d2 := if tx = false ∧ st = 0 then (d1.engWrite buf j.bytes).1 else d1
      let len := if tx then dLe ds 8 2 else j.bytes.length
      let d3 := (d2.engWrite (a + 8) (natLe 2 len ++ natLe 2 (1 + 2 * st) ++ natLe 4 (j.dt % 2 ^ 32))).1
      (d3.setFld u (0x4208 + 16 * r) 16 16 ((head + 1) % d.ringN u r)).quadEvent (portQuad p) (if tx then 5 else 4)

def execRingDescriptorDone (p : Fin 42) (tx : Bool) (s : State) : Host.Outcome State Fault Refusal :=
  onDev (fun d => d.ringDone p tx) s

/-- A write of RING_BASE (R526): EN = 1 only where the whole ring lies in an enabled exchange range. -/
def Dev.ringBaseWrite (d : Dev) (u : Nat) (r : RegRow) (i : Nat) (v : Word) : Dev × Answer :=
  if bit v 0 ∧ d.inRange (bits v 12 36 * 4096) (16 * 2 ^ bits v 1 4) = false then (d, .err errRefused)
  else (d.regStore u r i v, .data [])

/-! Bring-up (R536-R539). -/

/-- LINK_SIGNAL_DETECT (R536): signal on every lane of a port or link that is down. -/
def execLinkSignalDetect (l : Fin 40) (s : State) : Host.Outcome State Fault Refusal :=
  onDev (fun d =>
    let u := quadUid (l / 4)
    if d.isLink l ∧ d.linkState l = 0 then (d.setFlag u (offLink l) 35 true).setFld u (offLink l) 32 3 1 else d) s

/-- LINK_TRAINING_DONE (R536): a Trelub link goes on to identification, an Ethernet port is up. A management or PCIe
port (40-45) that is enabled is up at a rate and, for PCIe, a width. DEDUCED, log entry 63. -/
def execLinkTrainingDone (l : Fin 46) (speed : BitVec 3) (width : BitVec 4) (s : State) : Host.Outcome State Fault Refusal :=
  onDev (fun d =>
    let u := quadUid (l / 4)
    if l.val < 40 then
      if d.isLink l = false ∨ d.linkState l ≠ 1 then d
      else if d.isTrelub l then d.setFld u (offLink l) 32 3 2 else d.linkRise l
    else if l.val < 42 then
      let m := mgtUid (l - 40)
      if d.flag m 0x4000 0 ∧ speed.toNat < 3 then
        let d1 := (d.setFld m 0x4000 4 2 speed.toNat).setFlag m 0x4000 3 true
        if d.flag m 0x4000 3 then d1 else d1.quadEvent (portQuad l) 0
      else d
    else
      let g := pcieUid (l - 42)
      let wOk := [1, 2, 4, 8].contains width.toNat
      if d.flag g 0x4000 0 ∧ 1 ≤ speed.toNat ∧ speed.toNat ≤ d.fld g 0x4000 2 3 ∧ wOk then
        (((d.setFlag g 0x4000 7 true).setFld g 0x4000 8 3 speed.toNat).setFld g 0x4000 11 4 width.toNat).setFld g 0x4000 15 6 4
      else d) s

/-- LINK_TRAINING_TIMEOUT (R536): training has not completed within 200 ms. -/
def execLinkTrainingTimeout (l : Fin 40) (s : State) : Host.Outcome State Fault Refusal :=
  onDev (fun d =>
    if d.isLink l ∧ d.linkState l = 1 then
      (d.setFld (quadUid (l / 4)) (offLink l) 32 3 0).modLink l (fun k => { k with failed := d.dt + 1 })
    else d) s

/-- LINK_RETRY_TIMER (R536): 1 s has passed since training failed. -/
def execLinkRetryTimer (l : Fin 40) (s : State) : Host.Outcome State Fault Refusal :=
  onDev (fun d =>
    let f := (d.link l).failed
    if d.isLink l ∧ d.linkState l = 0 ∧ f ≠ 0 ∧ f - 1 + 1000000000 ≤ d.dt then
      (d.setFld (quadUid (l / 4)) (offLink l) 32 3 1).modLink l (fun k => { k with failed := 0 })
    else d) s

/-- LINK_IDENTIFICATION (R537): the peer's device ID and link width. -/
def execLinkIdentification (l : Fin 40) (peer : BitVec 12) (width : BitVec 3) (s : State) : Host.Outcome State Fault Refusal :=
  onDev (fun d =>
    let u := quadUid (l / 4); let a := offLink l
    if d.isTrelub l = false ∨ d.linkState l ≠ 2 then d
    else
      let d1 := d.setFld u a 36 12 peer.toNat
      if peer.toNat = d.ownId ∨ peer.toNat ≠ d.fld u a 16 12 ∨ width.toNat ≠ d.linkWidth l then
        ((d1.setFld u a 32 3 5).quadEvent (l / 4) 6).raise u (Rec.plain 0x0501 2 (l.val + at_ peer.toNat 16 12))
      else (d1.setFld u a 32 3 3).modLink l (fun k => { k with echoes := 0 })) s

/-- MEAS from a round trip and its turnaround time (R538). -/
def measOf (rtt turnaround : Nat) : Nat := min 0xFFFF ((rtt - turnaround) / 2 - 240)

/-- LINK_ECHO_REPLY (R538): an echo round trip of the measuring state; the sixteenth brings the link up. -/
def execLinkEchoReply (l : Fin 40) (rtt turnaround : Nat) (s : State) : Host.Outcome State Fault Refusal :=
  onDev (fun d =>
    let u := quadUid (l / 4); let k := d.link l
    if d.isTrelub l = false ∨ d.linkState l ≠ 3 then d
    else
      let better := k.echoes = 0 ∨ rtt < k.rtt
      let best := if better then rtt else k.rtt
      let turn := if better then turnaround else k.turnaround
      let d1 := d.modLink l (fun k => { k with echoes := k.echoes + 1, rtt := best, turnaround := turn })
      if k.echoes + 1 < 16 then d1 else (d1.setFld u (offLink l) 48 16 (measOf best turn)).linkRise l) s

/-- LINK_MEASURE_PERIOD (R538): an up link measures again; an excess over CABLE of more than 10 ns is recorded. -/
def execLinkMeasurePeriod (l : Fin 40) (rtt turnaround : Nat) (s : State) : Host.Outcome State Fault Refusal :=
  onDev (fun d =>
    let u := quadUid (l / 4); let a := offLink l; let m := measOf rtt turnaround
    if d.linkUp l then
      let d1 := d.setFld u a 48 16 m
      let d2 := if d.fld u a 0 16 + 10 < m then d1.raise u (Rec.plain 0x0502 1 (l.val + at_ m 16 16)) else d1
      d2.checkRoutes
    else d) s

/-- LINK_SIGNAL_LOSS (R536, R539): a lane loses signal. -/
def execLinkSignalLoss (l : Fin 42) (s : State) : Host.Outcome State Fault Refusal :=
  onDev (fun d =>
    if l.val < 40 then
      if d.isLink l then ((d.setFlag (quadUid (l / 4)) (offLink l) 35 false).linkDown l) else d
    else
      let m := mgtUid (l - 40)
      if d.flag m 0x4000 3 then (d.setFlag m 0x4000 3 false).quadEvent (portQuad l) 1 else d) s

/-- LINK_FRAME_TIMEOUT (R539): no frame for 1 µs on an up Trelub link. -/
def execLinkFrameTimeout (l : Fin 40) (s : State) : Host.Outcome State Fault Refusal :=
  onDev (fun d => if d.linkUp l then d.linkDown l else d) s

/-! Frames (R528-R541). -/

/-- Frames of the replay buffer that LACK passes leave it (R533). -/
def Dev.linkAck (d : Dev) (l lack : Nat) : Dev :=
  (d.modLink l (fun k => { k with replay := k.replay.filter (fun f => decide ((f.1 + 65536 - lack) % 65536 < 32768)) })).linkDrain l 512

/-- Forward a frame for another device (R540): one that cannot go on is discarded and counted. -/
def Dev.forward (d : Dev) (l : Nat) (f : TFrame) : Dev :=
  let v := d.route f.dst
  let out := routeLink v f.dir
  if f.hops = 0 ∨ bit v 0 = false ∨ d.linkUp out = false then d.linkErr l 1
  else d.linkSend out { f with hops := f.hops - 1 }

/-- Whether a frame of a ring unit is the next one needed of its unit, and the units seen from then on (R541). -/
def ringAccept (us : List SeenUnit) (f : TFrame) : List SeenUnit × Bool :=
  let newest := (us.head?.map (·.rseq)).getD f.rseq
  let age := (newest + 2 ^ 32 - f.rseq) % 2 ^ 32
  if 1024 ≤ age ∧ age < 2 ^ 31 then (us, false)
  else
    let x := (us.find? (fun u => u.rseq == f.rseq)).getD ⟨f.rseq, 0, 0, 0⟩
    let n := if f.dir = 0 then x.prim else x.sec
    let ok := n == x.got
    let y : SeenUnit := ⟨x.rseq, x.got + ok.toNat, x.prim + (if f.dir = 0 then 1 else 0), x.sec + (if f.dir = 0 then 0 else 1)⟩
    let rest := us.filter (fun u => u.rseq != f.rseq)
    ((if age = 0 ∨ 2 ^ 31 ≤ age then y :: rest else (match rest with | h :: t => h :: y :: t | [] => [y])).take 1024, ok)

/-- Deliver a frame to the hub, once for each RSEQ of the Mirror and Audio classes. -/
def Dev.deliverFrame (d : Dev) (f : TFrame) (b : List Byte) : Dev :=
  if f.cls ≤ 1 then
    let key := 8 * f.src + f.cls
    let (us, ok) := ringAccept (SMap.get (fun _ => []) d.nt.seen key) f
    { d with nt := { d.nt with seen := SMap.set (fun _ => []) d.nt.seen key us, got := if ok then d.nt.got ++ [b] else d.nt.got } }
  else { d with nt := { d.nt with got := d.nt.got ++ [b] } }

/-- TRELUB_FRAME_RX (R528, R529, R533, R534, R540, R541): 256 bytes arrive on a link; `unc`: within an uncorrectable
codeword. A bad frame is answered with a NAK of the LSEQ expected. -/
def Dev.trelubRx (d : Dev) (l : Nat) (b : List Byte) (unc : Bool) : Dev :=
  let st := d.linkState l
  let f := parseFrame b
  if d.isTrelub l = false ∨ st < 2 ∨ 4 < st ∨ b.length ≠ 256 then d
  else
    let d0 := if unc then d.fecError l else d
    let k := d0.link l
    if unc ∨ crc32c (b.take 252) ≠ dLe b 252 4 then
      if k.naked ∨ st ≠ 4 then d0
      else (d0.modLink l (fun k => { k with naked := true })).linkSend l ⟨4, 6, 0, 1, 0, d.ownId, 0, 0, natLe 2 k.expect⟩
    else if frameTypeOk f.cls f.ty = false then d0.linkErr l 1
    else if st ≠ 4 then (if f.cls = 4 then d0.deliverFrame f b else d0)
    else
      let d1 := d0.linkAck l (dLe b 4 2)
      if f.cls = 4 ∧ f.ty = 0 then d1
      else if dLe b 2 2 ≠ k.expect then d1
      else
        let d2 := d1.modLink l (fun k => { k with expect := (k.expect + 1) % 65536, naked := false })
        if f.cls ≠ 4 ∧ f.dst ≠ d.ownId then d2.forward l f else d2.deliverFrame f b

def execTrelubFrameRx (l : Fin 40) (b : List Byte) (unc : Bool) (s : State) : Host.Outcome State Fault Refusal :=
  onDev (fun d => d.trelubRx l b unc) s

/-- TRELUB_NAK_RX (R534, R535): the frames from the LSEQ named on are sent again; the eighth NAK of one frame takes the
link down. -/
def execTrelubNakRx (l : Fin 40) (lseq : BitVec 16) (s : State) : Host.Outcome State Fault Refusal :=
  onDev (fun d =>
    if d.linkUp l = false then d
    else
      let d1 := d.linkAck l lseq.toNat
      let k := d1.link l
      let n := if k.nakSeq = lseq.toNat then k.naks + 1 else 1
      if 8 ≤ n then d1.linkDown l
      else
        let d2 := d1.modLink l (fun k => { k with nakSeq := lseq.toNat, naks := n })
        ({ d2 with sent := d2.sent ++ k.replay.map (fun (f : Nat × List Byte) => Sent.frame l f.2 d.dt) }).linkErr l k.replay.length) s

/-- ROUTE_ADVERTISEMENT (R542): the own links are advertised (`none`), or an advertisement gives the cable sum of a
direction of the route to a device, or that a link on it is down. -/
def execRouteAdvertisement (dst : Option (BitVec 12)) (sec : Bool) (sum : Option (BitVec 32)) (s : State) :
    Host.Outcome State Fault Refusal :=
  onDev (fun d => match dst with
    | none =>
      let ls := ((List.range 40).filter d.isTrelub).map (fun l => (l, d.linkState l, d.linkDelay l))
      { d with sent := d.sent ++ [.advert ls d.dt] }
    | some x =>
      let key := 2 * x.toNat + sec.toNat
      let v := match sum with | some n => n.toNat + 1 | none => 2 ^ 32 + 1
      ({ d with nt := { d.nt with adv := SMap.set (fun _ => 0) d.nt.adv key v } }).checkRoute x.toNat) s

/-! Messages across devices (R544-R546). -/

/-- PROXY_MESSAGE_RX (R545): a message of proxy `far` of a device for the own proxy `r`. -/
def execProxyMessageRx (src : BitVec 12) (far r : Fin 16) (v : Word) (s : State) : Host.Outcome State Fault Refusal :=
  onDev (fun d =>
    let dest := d.reg mbxU (offProxy r); let m := bits dest 25 9
    let answer (d : Dev) (ty : Nat) : Dev := (d.trelubUnit src.toNat 3 ty (natLe 1 far.val)).1
    if bit dest 0 && bits dest 9 12 == src.toNat && bits dest 21 4 == far.val then
      match d.mbxMsg m none v with
      | (d1, .data _) =>
        answer { d1 with nt := { d1.nt with relayed := SMap.set (fun _ => 0) d1.nt.relayed m (16 * src.toNat + far.val + 1) } } 1
      | (d1, .err _) => answer d1 2
    else answer d 2) s

/-- PROXY_ANSWER_RX (R546): "delivered" (0), "refused" (1) or an acknowledge (2) reaches the sending proxy; after LOST or
REFUSED it is discarded. -/
def execProxyAnswerRx (r : Fin 16) (kind : Fin 3) (code : BitVec 32) (s : State) : Host.Outcome State Fault Refusal :=
  onDev (fun d =>
    let st := offProxy r + 0x10; let m := d.fld mbxU (offProxy r) 25 9
    if d.flag mbxU st 0 = false then d
    else
      let d1 := { d with nt := { d.nt with proxyAt := SMap.set (fun _ => 0) d.nt.proxyAt r 0 } }
      match kind with
      | 0 => d1
      | 1 => (d1.setFlag mbxU st 3 true).setFlag mbxU st 0 false
      | _ =>
        (((d1.setFld mbxU st 32 32 code.toNat).setFlag mbxU st 1 true).setFlag mbxU st 0 false).mbxBell m true
          (BitVec.ofNat 64 (2 ^ 29))) s

/-- PROXY_TIMEOUT (R546): nothing within 100 µs, or the route withdrawn. -/
def execProxyTimeout (r : Fin 16) (s : State) : Host.Outcome State Fault Refusal :=
  onDev (fun d =>
    let st := offProxy r + 0x10; let t := SMap.get (fun _ => 0) d.nt.proxyAt r
    let gone := d.routeDirs (d.fld mbxU (offProxy r) 9 12) 3 = []
    if d.flag mbxU st 0 ∧ ((t ≠ 0 ∧ t - 1 + 100000 ≤ d.dt) ∨ gone) then
      let d1 := (d.setFlag mbxU st 4 true).setFlag mbxU st 0 false
      { d1 with nt := { d1.nt with proxyAt := SMap.set (fun _ => 0) d1.nt.proxyAt r 0 } }
    else d) s

/-! Remote memory and time (R549-R551). -/

/-- REMOTE_MEMORY_REQUEST (R549): an inbound read, or a write with a byte mask, of one sector at an offset of an export
entry. The answer goes back as a Memory frame. DEDUCED, log entry 18. -/
def Dev.remoteReq (d : Dev) (src idx off : Nat) (write : Option (BitVec 512 × BitVec 64)) : Dev :=
  let e := d.reg (hubUid 0) (0x8200 + 8 * idx)
  let pa := bits e 8 27 * 2 ^ 21 + off / 64 * 64
  let back (d : Dev) (a : Answer) : Dev := match a with
    | .data bs => ((d.answer a).trelubUnit src 2 (if write.isSome then 3 else 1) bs).1
    | .err c => ((d.answer a).trelubUnit src 2 4 (natLe 1 c)).1
  if bit e 0 = false ∨ bits e 35 12 ≠ src ∨ 2 ^ bits e 1 6 ≤ off ∨ (write.isSome ∧ bit e 7 = false) ∨ (d.xrOf pa).isNone then
    back d (.err errNotPermitted)
  else match write with
  | none => match d.homeLoad engRq pa with
    | (d1, .ok s) => back d1 (.data (natLe 64 s.toNat))
    | (d1, .error c) => back (if c = errPoisoned then d1.raise (hubUid 0) (Rec.plain 0x0307 2 pa) else d1) (.err c)
  | some (x, m) =>
    let r := (List.range 64).foldl (fun (a : Dev × Option Nat) i =>
      if bit m i then match a.1.engPut (pa + i) [byteOf x i] with
        | (d1, .ok _) => (d1, a.2)
        | (d1, .error c) => (d1, a.2.orElse (fun _ => some c))
      else a) (d, none)
    back r.1 (match r.2 with | none => .data [] | some c => .err c)

def execRemoteMemoryRequest (src : BitVec 12) (idx : Fin 32) (off : BitVec 36) (write : Option (BitVec 512 × BitVec 64))
    (s : State) : Host.Outcome State Fault Refusal := onDev (fun d => d.remoteReq src.toNat idx off.toNat write) s

/-- REMOTE_TIMEOUT (R550): an outbound request to a remote window completes with "remote timeout". -/
def execRemoteTimeout (pa : BitVec 48) (s : State) : Host.Outcome State Fault Refusal :=
  onDev (fun d => if (d.remWinOf pa.toNat).isSome then d.answer (.err errRemoteTimeout) else d) s

/-- TRELUB_TIME_FRAME (R551): the peer's network time at the frame's first bit, received at the present DT plus `sub` ns,
gives an offset with the one-way delay of TIME_LINK; the keeper's new trim comes with it. -/
def execTrelubTimeFrame (value : Word) (sub : BitVec 3) (trim : BitVec 32) (s : State) : Host.Outcome State Fault Refusal :=
  onDev (fun d =>
    let l := d.fld (hubUid 0) 0x8000 12 6
    if d.fld hbUid 0x8000 0 3 = 3 ∧ d.linkUp l then
      let meas := d.fld (quadUid (l / 4)) (offLink l) 48 16 + 240
      let own : Int := d.dt + sub.toNat + signedOf 64 (d.reg hbUid 0x8028).toNat
      let off : Int := value.toNat + meas - own
      let t := trim.toNat
      let d1 := if t ≤ 51200000 ∨ 4243767296 ≤ t then d.setFld hbUid 0x8020 0 32 t else d
      let d2 := if d.anyCadence then d1 else d1.setReg hbUid 0x8028 (BitVec.ofInt 64 (signedOf 64 (d.reg hbUid 0x8028).toNat + off))
      d2.discipline off
    else d) s

/-- TRELUB_TIME_FRAME_SEND (R551): a time frame leaves on an up link, carrying the network time of its first bit. -/
def execTrelubTimeFrameSend (l : Fin 40) (s : State) : Host.Outcome State Fault Refusal :=
  onDev (fun d =>
    let net := BitVec.ofInt 64 ((d.dt : Int) + signedOf 64 (d.reg hbUid 0x8028).toNat)
    if d.linkUp l then d.linkSend l ⟨4, 4, 0, 1, 0, d.ownId, d.fld (quadUid (l / 4)) (offLink l) 36 12, 0, natLe 8 net.toNat⟩ else d) s

/-! PCIe (R553-R560). -/

/-- Root port group `g` exists as a port of its own: not joined into the other by X8 (R553). -/
def Dev.pciePort (d : Dev) (g : Nat) : Bool := g % 2 == 0 || !d.flag (pcieUid (g - 1)) 0x4000 1

/-- Completion timeout in ns. -/
def Dev.pcieCto (d : Dev) (g : Nat) : Nat := if d.flag (pcieUid g) 0x4000 5 then 500000 else 50000

/-- Issue an outbound request: it waits for its completion, or ends with "link down" where the link is not up.
DESIGN CHOICE, log entry 62. -/
def Dev.pcieIssue (d : Dev) (g kind addr data len : Nat) : Dev :=
  if d.flag (pcieUid g) 0x4000 7 then
    { d with sent := d.sent ++ [.pcie g kind addr data len d.dt], nt := { d.nt with pcie := d.nt.pcie ++ [⟨g, kind, len, d.dt⟩] } }
  else if kind ≤ 1 then
    let d1 := d.setFld (pcieUid g) 0x4010 32 3 5
    if kind = 0 then (d1.setReg (pcieUid g) 0x4018 0xFFFFFFFF).answer (Answer.word 0xFFFFFFFF) else d1.answer (.data [])
  else d.answer (.err errLinkDown)

/-- A configuration access at PCIE_CFGA (R555). PRESUMED, log entry 45. -/
def Dev.pcieConfig (d : Dev) (g : Nat) (write : Option Nat) : Dev :=
  let a := d.fld (pcieUid g) 0x4010 0 32
  match write with
  | none => d.pcieIssue g 0 a 0 4
  | some x => (d.setReg (pcieUid g) 0x4018 (BitVec.ofNat 64 (x % 2 ^ 32))).pcieIssue g 1 a (x % 2 ^ 32) 4

/-- An access to an aperture page (R556): aligned, of 4 or 8 bytes, with the page enabled. DESIGN CHOICE, log entry 62. -/
def Dev.pcieAperture (d : Dev) (g off size : Nat) (write : Option Nat) : Dev :=
  let ap := d.reg (pcieUid g) (0x4100 + 8 * (off / 4096 - 8))
  if (size ≠ 4 ∧ size ≠ 8) ∨ off % size ≠ 0 then d.answer (.err errMalformed)
  else if bit ap 0 = false ∨ off / 4096 < 8 ∨ 14 < off / 4096 then d.answer (.err errNotPermitted)
  else d.pcieIssue g (if write.isSome then 3 else 2) (bits ap 12 52 * 4096 + off % 4096) (write.getD 0) size

/-- End an outbound request: a configuration access with its STATUS, a memory access with data or an error. -/
def Dev.pcieEnd (d : Dev) (r : PcieReq) (status : Nat) (data : Nat) (err : Nat) : Dev :=
  let u := pcieUid r.group
  match r.kind with
  | 0 =>
    let x := if status = 0 then data % 2 ^ 32 else 0xFFFFFFFF
    ((d.setFld u 0x4010 32 3 status).setReg u 0x4018 (BitVec.ofNat 64 x)).answer (Answer.word (BitVec.ofNat 64 x))
  | 1 => (d.setFld u 0x4010 32 3 status).answer (.data [])
  | 2 => d.answer (if status = 0 then .data (natLe r.len data) else .err err)
  | _ => d.answer (if status = 0 then .data [] else .err err)

/-- The oldest outstanding request of a group, and the state without it. PRESUMED, log entry 45. -/
def Dev.pcieTake (d : Dev) (g : Nat) : Option (PcieReq × Dev) :=
  (d.nt.pcie.find? (fun r => r.group == g)).map (fun r => (r, { d with nt := { d.nt with pcie := d.nt.pcie.erase r } }))

/-- PCIE_COMPLETION (R555): the completion of the oldest outstanding request: 0 success, 1 unsupported request,
2 configuration retry, 3 completer abort. -/
def execPcieCompletion (g : Fin 4) (status : Fin 4) (data : Word) (s : State) : Host.Outcome State Fault Refusal :=
  onDev (fun d => match d.pcieTake g with
    | none => d
    | some (r, d1) => d1.pcieEnd r status.val data.toNat errRefused) s

/-- PCIE_COMPLETION_TIMEOUT (R557): no completion within CTO. -/
def execPcieCompletionTimeout (g : Fin 4) (s : State) : Host.Outcome State Fault Refusal :=
  onDev (fun d => match d.pcieTake g with
    | none => d
    | some (r, d1) => if r.dt + d.pcieCto g ≤ d.dt then d1.pcieEnd r 4 0 errPcieTimeout else d) s

/-- PCIE_INBOUND_ACCESS (R310, R558): an inbound read or write of SDRAM, performed only inside an exchange range with
PCIE = 1. -/
def Dev.pcieInbound (d : Dev) (g pa len : Nat) (write : Option (List Byte)) : Dev :=
  let n := match write with | some bs => bs.length | none => len
  let ok := match d.xrOf pa with
    | some i => d.inRange pa (max 1 n) && d.flag (hubUid 0) (0x5008 + 16 * i) 24
    | none => false
  if ok = false then d.answer (.err errNotPermitted)
  else match write with
  | none => match d.engRead pa n with
    | (d1, .ok bs) => d1.answer (.data bs)
    | (d1, .error e) => (if e = errPoisoned then d1.raise (pcieUid g) (Rec.plain 0x0307 2 pa) else d1).answer (.err e)
  | some bs => match d.engWrite pa bs with
    | (d1, .ok _) => d1.answer (.data [])
    | (d1, .error e) => d1.answer (.err e)

def execPcieInboundAccess (g : Fin 4) (pa : BitVec 48) (len : Fin 4097) (write : Option (List Byte)) (s : State) :
    Host.Outcome State Fault Refusal := onDev (fun d => d.pcieInbound g pa.toNat len write) s

/-- PCIE_MSI (R559): a write to the MSI address. -/
def execPcieMsi (g : Fin 4) (data : BitVec 32) (s : State) : Host.Outcome State Fault Refusal :=
  onDev (fun d =>
    if data.toNat < 256 then d.raiseEdge (0xC00 + 256 * g.val + data.toNat)
    else d.raise (pcieUid g) (Rec.plain 0x0504 1 data.toNat)) s

/-- PCIE_AER_ERROR (R560). -/
def execPcieAerError (g : Fin 4) (s : State) : Host.Outcome State Fault Refusal :=
  onDev (fun d => d.raise (pcieUid g) (Rec.plain 0x0503 2 g.val)) s

/-- PCIE_LINK_LOSS (R560): the link is lost and every outstanding request of the port ends with an error. -/
def execPcieLinkLoss (g : Fin 4) (s : State) : Host.Outcome State Fault Refusal :=
  onDev (fun d =>
    let u := pcieUid g
    if d.flag u 0x4000 7 = false then d
    else
      let mine := d.nt.pcie.filter (fun r => r.group == g.val)
      let d1 := (d.setFld u 0x4000 7 14 0).raise u (Rec.plain 0x0503 2 g.val)
      let d2 := { d1 with nt := { d1.nt with pcie := d1.nt.pcie.filter (fun r => r.group != g.val) } }
      forAll mine (fun r d => d.pcieEnd r 5 0 errLinkDown) d2) s

end Sys2Proof.Machine
end

