-- ==== Sys2Proof/Machine/TraceSink.lean ====
section
/-!
DEFINITION. Trace sinks, sessions and their commands (R773-R784), and what a tick of device time does.
-/
namespace Sys2Proof.Machine

/-- The link of the Pufort port in the model's record of outputs. -/
def pufortLink : Nat := 0x50

/-- The private window with the W right, of the single-tier record of a session's partition, that holds its ring
(R776, R777). -/
def Dev.ringInside (d : Dev) (p base size : Nat) : Bool :=
  match d.recOf p with
  | none => false
  | some r => r.tier == 0 && r.wins.any (fun w => !w.shared && w.rights / 2 % 2 == 1 &&
      decide ((w.span 0).1 ≤ base) && decide (base + size ≤ (w.span 0).1 + (w.span 0).2))

/-- A packet reaches the sink of its session (R777): the link, or the ring, which wraps or stops the session when full.
DEDUCED, log entry 65. -/
def Dev.sinkPacket (d : Dev) (p : TracePkt) : Dev :=
  let c := d.tsCtl p.session; let o := offTs p.session
  if bit c 1 then { d with sent := d.sent ++ [.frame pufortLink p.bytes d.dt] }
  else if bit c 13 then d
  else
    let size := 2 ^ d.fld dbgUid (o + 8) 0 5
    let w := d.fld dbgUid (o + 0x10) 0 32
    let d1 := (d.engWrite (d.fld dbgUid (o + 8) 12 36 * 4096 + w) p.bytes).1
    if w + 16 < size then d1.setFld dbgUid (o + 0x10) 0 32 (w + 16)
    else
      let d2 := d1.setFld dbgUid (o + 0x10) 0 32 0
      if bit c 11 then d2.setFlag dbgUid (o + 0x10) 32 true else d2.setFlag dbgUid o 13 true

/-- A funnel sends its oldest packet on. DEDUCED, log entry 28. -/
def Dev.drainOne (d : Dev) (f : Nat) : Dev :=
  match d.funnel f with
  | [] => d
  | p :: q => (d.setFunnel f q).sinkPacket p

/-- A funnel sends everything that it holds on (R783). -/
def Dev.flushFunnel (d : Dev) (f : Nat) : Dev := forUpto (d.funnel f).length (fun _ d => d.drainOne f) d

/-- The mesh stops whose trace source is enabled and whose sampling period ends in the next tick (R774). -/
def Dev.meshSampling (d : Dev) : List Nat :=
  (d.regs.filter (fun e => e.1 % 65536 == 0xF800 && bit e.2 0 && (d.dt + 8) % (1000 * 2 ^ bits e.2 16 4) == 0 &&
    (match unitKind (e.1 / 65536) with | some .cstop => true | some .hlstop => true | some .hstop => true | _ => false))).map
      (fun e => e.1 / 65536)

/-- Mesh stops emit the counts of the packets that they forwarded for the partition, which are open (R774, Table 18-8).
DESIGN CHOICE, log entry 3. -/
def Dev.meshSample (d : Dev) : Dev :=
  forAll d.meshSampling (fun u d => let (x, d1) := d.draw; d1.traceEmit u 0x03 (x % 2 ^ 64) (some (bits (d1.trcSrc u) 8 8))) d

/-- The passing of one tick of device time: 8 ns, in which each funnel sends one packet on and mesh stops take their samples.
DESIGN CHOICE, log entry 3. -/
def Dev.tick (d : Dev) : Dev :=
  let d1 := (forUpto 10 (fun f d => d.drainOne f) d).meshSample
  { d1 with dt := d1.dt + 8 }

/-- TRACE_WINDOW_CLOSE (R782): DT_trig + POST has passed; every funnel accepts no more packets of the session and writes
its stop packet. -/
def execTraceWindowClose (k : Fin 16) (s : State) : Host.Outcome State Fault Refusal :=
  onDev (fun d =>
    let c := d.tsCtl k; let o := offTs k
    if bit c 0 && bit c 12 && !bit c 13 && !d.tr.closing.contains k.val &&
        decide ((d.reg dbgUid (o + 0x28)).toNat + 1000 * d.fld dbgUid (o + 0x18) 0 24 ≤ d.dt) then
      let d1 := d.traceAllFunnels k 0x15 d.dt
      { d1 with tr := { d1.tr with closing := k.val :: d1.tr.closing } }
    else d) s

/-- TRACE_SESSION_STOPPED (R782): every packet that the funnels accepted for a closed session has reached its sink. -/
def execTraceSessionStopped (k : Fin 16) (s : State) : Host.Outcome State Fault Refusal :=
  onDev (fun d =>
    if d.tr.closing.contains k.val && (List.range 10).all (fun f => (d.funnel f).all (fun p => p.session != k.val)) then
      let d1 := d.setFlag dbgUid (offTs k) 13 true
      { d1 with tr := { d1.tr with closing := d1.tr.closing.filter (fun x => x != k.val) } }
    else d) s

/-- TRACE_TIME_PACKET (R778): every 16 s of DT a funnel emits a time packet for each session that runs.
DEDUCED, log entry 66. -/
def execTraceTimePacket (f : Fin 10) (s : State) : Host.Outcome State Fault Refusal :=
  onDev (fun d => forUpto 16 (fun k d =>
    if d.sessionOpen k then d.funnelIn f k 3 (tracePacket 0x10 3 (funnelUid f) d.dt d.dt) else d) d) s

/-- TRACE_TRIGGER (R781): an event source or an error record triggers an armed session whose TS_TRIG names that cause: 2
an event source, 3 an error record of the session's partition. -/
def execTraceTrigger (k : Fin 16) (cause : BitVec 2) (src : BitVec 12) (s : State) : Host.Outcome State Fault Refusal :=
  onDev (fun d =>
    let o := offTs k + 0x18
    if d.fld dbgUid o 26 2 = cause.toNat ∧ cause.toNat ≠ 0 ∧ (cause.toNat = 2 → d.fld dbgUid o 28 12 = src.toNat) then
      d.traceTrigger k
    else d) s

/-- TRACE_NOW (R781): a write of TS_TRIG.NOW triggers an armed session at once. -/
def execTraceNow (k : Fin 16) (s : State) : Host.Outcome State Fault Refusal :=
  onDev (fun d => d.traceTrigger k) s

/-- Whether a partition is a pair or triple. -/
def Dev.replicated (d : Dev) (p : Nat) : Bool := match d.recOf p with | some r => r.tier != 0 | none => false

/-- A write of TS_CTL (R776, R777); the result is false when it is refused with status 0x4. A session that starts to run
begins a new history with a time packet. DEDUCED, log entry 65. -/
def Dev.tsCtlWrite (d : Dev) (r : RegRow) (k : Nat) (v : Word) : Dev × Bool :=
  let p := bits v 2 8; let o := offTs k; let was := bit (d.tsCtl k) 0
  let base := d.fld dbgUid (o + 8) 12 36 * 4096
  if !bit v 1 && d.replicated p then (d, false)
  else if bit v 0 && !bit v 1 && !bit v 10 && !d.ringInside p base (2 ^ d.fld dbgUid (o + 8) 0 5) then (d, false)
  else
    let d1 := d.regStore dbgUid r k v
    if !was && bit (d1.tsCtl k) 0 then
      let d2 := ((d1.setFld dbgUid o 12 2 0).setReg dbgUid (o + 0x10) 0).setReg dbgUid (o + 0x20) 0
      let d3 := { d2 with tr := { d2.tr with closing := d2.tr.closing.filter (fun x => x != k) } }
      (d3.funnelIn 8 k 3 (tracePacket 0x10 3 (funnelUid 8) d3.dt d3.dt), true)
    else (d1, true)

/-- A write of TS_TRIG: arming forgets an earlier trigger, and NOW triggers (R781). -/
def Dev.tsTrigWrite (d : Dev) (r : RegRow) (k : Nat) (v : Word) : Dev :=
  let d1 := d.regStore dbgUid r k v
  let d2 := if bit v 24 then d1.setFlag dbgUid (offTs k) 12 false else d1
  if bit v 25 then d2.traceTrigger k else d2

/-- A write of TRC_SRC (R774); false when it would make a shared source serve a second session. -/
def Dev.trcSrcWrite (d : Dev) (u : Nat) (r : RegRow) (v : Word) : Dev × Bool :=
  let t := d.trcSrc u; let shared := unitKind u != some .core
  if shared && bit t 0 && bit v 0 && bits t 3 4 != bits v 3 4 then (d, false)
  else
    let part := match unitKind u with | some .core => (d.core (coreId (uidCore u))).part | _ => bits v 8 8
    (d.regStore u r 0 (setBits v 8 8 part), true)

/-- Every session of a partition stops, and its sources disable (R784). -/
def Dev.stopSessions (d : Dev) (p : Nat) : Dev :=
  let ks := (List.range 16).filter (fun k => bits (d.tsCtl k) 2 8 == p && bit (d.tsCtl k) 0)
  let d1 := forAll ks (fun k d => d.setFlag dbgUid (offTs k) 13 true) d
  let srcs := (d1.regs.filter (fun e => e.1 % 65536 == 0xF800 && bit e.2 0 && ks.contains (bits e.2 3 4))).map (fun e => e.1 / 65536)
  forAll srcs (fun u d => d.setFlag u 0xF800 0 false) d1

/-- The level in effect of a partition changes (R747): below full, BRK_CLAIM of its cores is cleared (R759); at none, its
sessions stop (R784). -/
def Dev.levelTo (d : Dev) (p lv : Nat) : Dev :=
  let d1 := d.setFld dbgUid (0x5400 + 8 * p) 0 2 lv
  let d2 := if lv < 2 then forAll (d1.partCores p) (fun c d => d.setFlag (coreUid c) 0xF008 0 false) d1 else d1
  if lv = 0 then d2.stopSessions p else d2

end Sys2Proof.Machine
end

