-- ==== Sys2Proof/Machine/Structure.lean ====
section
/-!
DEFINITION. The registers that the keeper writes from the image and from the partition records (R33, R63-R73, R574-R586).
-/
namespace Sys2Proof.Machine

/-- Store a register of both hub controls (R574). DEDUCED, log entry 17. -/
def Dev.setHubs (d : Dev) (off : Nat) (v : Word) : Dev := (d.setReg (hubUid 0) off v).setReg (hubUid 1) off v

/-- A 64-bit register image in bytes [o, o + 8). -/
def iReg (b : List Byte) (o : Nat) : Word := BitVec.ofNat 64 (iLe b o 8)

/-! Declared pace (R63-R65, R72, R73). -/

/-- P_req of one declared core in steps/µs, rounded up: W / (T × U). -/
def Dev.coreReq (d : Dev) (e : CoreEnt) : Nat :=
  let c := e.wCad; let u := d.utilisation
  let den := d.cadN c * 1000000 * u
  if e.wDecl ∧ den ≠ 0 then (e.w * d.cadFs c * 100 + den - 1) / den else 0

/-- P_req of a region over some partition records. -/
def Dev.regionReq (d : Dev) (recs : List PartRec) (g : Nat) : Nat :=
  recs.foldl (fun m r => r.cores.foldl (fun m e =>
    if e.phys.any (fun p => decide (p < 288) && p / 36 == g) then max m (d.coreReq e) else m) m) 0

/-- Write REQ of every region from the records in force. -/
def Dev.writeReqs (d : Dev) : Dev :=
  forUpto 8 (fun g d => d.setFld (regionUid g) 0x4000 0 16 (min 0xFFFF (d.regionReq d.kp.recs g))) d

/-! Placement. -/

/-- First entry of a small array that passes `p`. -/
def firstEntry (n : Nat) (p : Nat → Bool) : Nat := (firstUpto n p).getD (n - 1)

/-- Write an SLC_PART entry for a partition or replica: its own entry, or the first that is free. -/
def Dev.putSlice (d : Dev) (p : Nat) (s : SliceEnt) : Dev :=
  let a (k : Nat) : Nat := 0x4010 + 8 * k
  let own (k : Nat) : Bool := d.flag s.uid (a k) 0 && d.fld s.uid (a k) 1 2 == s.rep && d.fld s.uid (a k) 8 8 == p
  let k := match firstUpto 4 own with | some k => k | none => firstEntry 4 (fun k => !d.flag s.uid (a k) 0)
  d.setReg s.uid (a k) (BitVec.ofNat 64 (1 + 2 * s.rep + at_ p 8 8 + at_ s.ways 16 12))

/-- Remove the SLC_PART entry of a partition or replica. -/
def Dev.dropSlice (d : Dev) (p : Nat) (s : SliceEnt) : Dev :=
  forUpto 4 (fun k d => let a := 0x4010 + 8 * k
    if d.flag s.uid a 0 && d.fld s.uid a 1 2 == s.rep && d.fld s.uid a 8 8 == p then d.setReg s.uid a 0 else d) d

/-- Write an MC_SHARE entry of a partition or replica. -/
def Dev.putShare (d : Dev) (p : Nat) (s : ShareEnt) : Dev :=
  let u := mcUid s.ch; let a (k : Nat) : Nat := 0x4100 + 8 * k
  let own (k : Nat) : Bool := d.flag u (a k) 0 && d.fld u (a k) 1 2 == s.rep && d.fld u (a k) 8 8 == p
  let k := match firstUpto 32 own with | some k => k | none => firstEntry 32 (fun k => !d.flag u (a k) 0)
  d.setReg u (a k) (BitVec.ofNat 64 (1 + 2 * s.rep + at_ p 8 8 + at_ s.share 16 8 + at_ s.qmax 24 6))

/-- Remove the MC_SHARE entry of a partition or replica. -/
def Dev.dropShare (d : Dev) (p : Nat) (s : ShareEnt) : Dev :=
  forUpto 32 (fun k d => let a := 0x4100 + 8 * k; let u := mcUid s.ch
    if d.flag u a 0 && d.fld u a 1 2 == s.rep && d.fld u a 8 8 == p then d.setReg u a 0 else d) d

/-- Write the windows of a core of replica `ix`: replica A's base is where every replica sees the window, and B and C
relocate a private one (R301, R302, R580). -/
def Dev.putWindows (d : Dev) (c : CoreId) (r : PartRec) (ix : Nat) : Dev :=
  let u := coreUid c
  let d1 := forUpto 16 (fun i d => (d.setReg u (0x4200 + 16 * i) 0).setReg u (0x4600 + 8 * i) 0) d
  forAll r.wins (fun w d =>
    let attr := at_ w.size 0 6 + at_ w.rights 8 4 + at_ w.types 16 5 + at_ w.deft 24 3
    let d2 := (d.setReg u (0x4208 + 16 * w.index) (BitVec.ofNat 64 attr)).setReg u (0x4200 + 16 * w.index)
      (BitVec.ofNat 64 (1 + w.bases.getD 0 0))
    if ix ≠ 0 ∧ !w.shared then d2.setReg u (0x4600 + 8 * w.index) (BitVec.ofNat 64 (1 + w.bases.getD ix 0)) else d2) d1

/-- Write the slice list of a core (R308, R580). -/
def Dev.putSliceList (d : Dev) (c : CoreId) (r : PartRec) (ix : Nat) : Dev :=
  let u := coreUid c
  let us := (r.sliceList (repCode (repAt r.tier ix))).map (·.uid)
  forUpto 16 (fun i d => d.setReg u (0x4300 + 8 * i) (match us[i]? with | some x => BitVec.ofNat 64 (x + 2 ^ 16) | none => 0)) d

/-- Place a logical core's replica on a physical core: owner, windows, slice list, way mask, limits and class (R581). -/
def Dev.placeCore (d : Dev) (r : PartRec) (e : CoreEnt) (ix p : Nat) : Dev :=
  let c := coreId p; let u := coreUid c; let k := coreCluster c
  let own := BitVec.ofNat 64 (r.part + 2 ^ 8)
  let d1 := d.modCore c (fun x => { x with placed := true, lcore := e.lcore, part := r.part, rep := repAt r.tier ix,
                                           tier := r.tier, cmask := e.cmask })
  let d2 := ((d1.setReg u 0x10 own).setReg (l2Uid k) 0x10 own).setReg (l3Uid k) 0x10 own
  let d3 := (d2.putWindows c r ix).putSliceList c r ix
  ((d3.setReg (l2Uid k) (0x4010 + 8 * (p % 4)) (BitVec.ofNat 64 (e.masks.getD ix 0xFFFF))).setReg u 0x4008
    (BitVec.ofNat 64 (r.flags / 2 % 4))).setReg u 0x4010 (BitVec.ofNat 64 (r.flags % 2))

/-- Take a physical core out of its partition. -/
def Dev.unplaceCore (d : Dev) (c : CoreId) : Dev :=
  let u := coreUid c
  let d1 := (d.coreReset c).modCore c (fun _ => Core.initial)
  let d2 := forUpto 16 (fun i d => ((d.setReg u (0x4200 + 16 * i) 0).setReg u (0x4600 + 8 * i) 0).setReg u (0x4300 + 8 * i) 0) d1
  d2.setReg u 0x10 0

/-- Write everything that a partition record gives (R581): cores, slices, shares. -/
def Dev.placePart (d : Dev) (r : PartRec) : Dev :=
  let d1 := forAll r.cores (fun e d => forUpto (tierReps r.tier) (fun ix d =>
    let p := e.phys.getD ix 0xFFFF
    if p < 288 then d.placeCore r e ix p else d) d) d
  let d2 := forAll r.slices (fun s d => d.putSlice r.part s) d1
  let d3 := forAll r.shares (fun s d => d.putShare r.part s) d2
  let lp := r.cores.foldl (fun m e => SMap.set (fun _ => 0) m e.lcore (r.part + 1)) d3.kp.lpart
  let mask := r.cads.foldl (fun m c => m ||| 2 ^ c.1) 0
  let mc := SMap.set (fun _ => 0) d3.kp.mcad r.part (if r.mcad < 16 then r.mcad + 1 else 0)
  { d3 with kp := { d3.kp with lpart := lp, mcad := mc, cads := SMap.set (fun _ => 0) d3.kp.cads r.part mask } }

/-! Spares (R28-R33). -/

/-- The spare for a cluster: the lowest of its region, else of the device, among the roles given (R29). -/
def spareFor (roles : List Nat) (usable : Nat → Bool) (k : Nat) : Option Nat :=
  let ok (j : Nat) : Bool := roles.getD j 2 == 1 && usable j
  match (regionClusters (k / 9)).find? ok with
  | some j => some j
  | none => (List.range 72).find? ok

/-- A record with the cores and slices of cluster `k` moved to cluster `j`. -/
def PartRec.moveCluster (r : PartRec) (k j : Nat) : PartRec :=
  { r with cores := r.cores.map (fun e => { e with phys := e.phys.map (fun p => if p < 288 ∧ p / 4 = k then 4 * j + p % 4 else p) }),
           slices := r.slices.map (fun s => if s.uid = l3Uid k then { s with uid := l3Uid j } else s) }

/-- A record whose replicas that need cluster `k` are not started (R33): a replica loses all its cores. -/
def PartRec.withoutCluster (r : PartRec) (k : Nat) : PartRec :=
  let hit (ix : Nat) : Bool := r.cores.any (fun e => let p := e.phys.getD ix 0xFFFF; decide (p < 288) && p / 4 == k)
  { r with cores := r.cores.map (fun e => { e with phys := e.phys.zipIdx.map (fun x => if hit x.2 then 0xFFFF else x.1) }) }

/-- Map spares in place of failed active clusters (R33): roles, records, and the clusters that found no spare. -/
def mapSpares (failed : List Nat) : List Nat → List Nat × List PartRec × List Nat → List Nat × List PartRec × List Nat
  | [], a => a
  | k :: ks, (roles, recs, lost) =>
    if roles.getD k 2 ≠ 0 then mapSpares failed ks (roles, recs, lost)
    else match spareFor roles (fun j => !failed.contains j) k with
    | some j => mapSpares failed ks ((roles.set k 2).set j 0, recs.map (fun r => r.moveCluster k j), lost)
    | none => mapSpares failed ks (roles.set k 2, recs.map (fun r => r.withoutCluster k), lost ++ [k])

/-- Roles of the 72 clusters in an image, after R576: a region that names no spare has cluster 8 as its spare. -/
def imageRoles (img : List Byte) : List Nat :=
  let b := sectBody (imageSects img) 2
  let role (k : Nat) : Nat := iLe b k 1
  (List.range 72).map (fun k =>
    if k % 9 = 8 ∧ !((regionClusters (k / 9)).any (fun j => role j == 1)) then 1 else role k)

/-- Write ROLE of every unit of each cluster. -/
def Dev.writeRoles (d : Dev) (roles : List Nat) : Dev :=
  forUpto 72 (fun k d => forAll (clusterUnits k) (fun u d => d.setRole u (roles.getD k 2)) d) d

/-! The fixed sections. -/

/-- Device, mesh routes, memory plan, cadences, power policy and latency bounds (Tables 13-5 and 13-6). -/
def Dev.writeFixed (d : Dev) (ss : List Sect) : Dev :=
  let dv := sectBody ss 1; let mp := sectBody ss 4; let cd := sectBody ss 5; let pp := sectBody ss 0xE; let lb := sectBody ss 0xF
  let d1 := forUpto 2 (fun h d => d.setFld (hubUid h) 0x8000 0 12 (iLe dv 0 2)) d
  let d2 := (((d1.setReg hbUid 0xA000 (BitVec.ofNat 64 (iLe dv 2 2))).setFld hbUid 0x8000 0 3 (iLe dv 4 1)).setFld hbUid 0x8000 4 1 (iLe dv 5 1))
  let d3 := forUpto 12 (fun c d => let o := 16 + 16 * c; let u := mcUid c
    let t := iLe mp (o + 10) 1
    let e1 := d.regStore u regMcSched 0 (iReg mp o)
    let e2 := forUpto 8 (fun m d => d.setFld u (0x4200 + 8 * m) 8 8 (iLe mp (o + 8) 1)) e1
    let e3 := ((e2.setFld u 0x4010 0 2 (t % 4)).setFld u 0x4010 8 8 (iLe mp (o + 9) 1))
    e3.mcCfgWrite u regMcCfg (setBits (setBits (e3.reg u 0x4000) 7 1 (t / 4 % 2)) 8 2 (iLe mp (o + 11) 1))) d2
  let nr := iLe mp 0 1; let nx := iLe mp 1 1
  let d4 := forUpto nr (fun i d => let o := 208 + 24 * i; let n := iLe mp o 1
    ((d.setHubs (offRange n) (iReg mp (o + 8)))).setHubs (offRange n + 8) (iReg mp (o + 16))) d3
  let d5 := forUpto nx (fun i d => let o := 208 + 24 * (nr + i); let n := iLe mp o 1
    (d.setHubs (0x5000 + 16 * n) (iReg mp (o + 8))).setHubs (0x5008 + 16 * n) (setBits (iReg mp (o + 16)) 63 1 0)) d4
  let d6 := forUpto 16 (fun c d => (d.cadCfgWrite regCadCfg c (iReg cd (8 * c))).1) d5
  let d7 := forUpto 8 (fun g d => let o := 8 + 8 * g
    let e := (d.setFld (regionUid g) 0x4000 16 8 (iLe pp (o + 1) 1)).setFld (regionUid g) 0x4000 24 8 (iLe pp (o + 2) 1)
    { e with kp := { e.kp with floorMode := if iLe pp o 1 = 0 then g :: e.kp.floorMode else e.kp.floorMode } }) d6
  d7.setHubs 0x8008 (iReg lb 0)

/-! Stream engines, TDM groups, lanes and the rest. -/

/-- The registers of a stream engine section (Table 13-9). The LIVE bits of a group stay 0 until its replicas are
released. -/
def Dev.writeEngine (d : Dev) (b : List Byte) : Dev :=
  let se := iLe b 0 1; let u := seUid se
  let nb := iLe b 2 2; let ng := iLe b 4 2
  let d1 := (((d.regStore u regSeRtport 0 (iReg b 16)).setReg u 0x5800 (iReg b 24)).setReg u 0x5810 (iReg b 32)).setReg u 0x5818 (iReg b 40)
  let d2 := forUpto 4 (fun i d => d.setReg u (0x5008 + 8 * i) (iReg b (48 + 8 * i))) d1
  let d3 := forUpto nb (fun i d => let o := 96 + 24 * i; let n := iLe b o 1
    (d.setReg u (0x4008 + 16 * n) (iReg b (o + 16))).setReg u (0x4000 + 16 * n) (iReg b (o + 8))) d2
  forUpto ng (fun i d => let o := 96 + 24 * (nb + i); let g := iLe b o 1
    (d.setReg u (0x6008 + 32 * g) (iReg b (o + 16))).cgCfgWrite u regCgCfg g (setBits (iReg b (o + 8)) 21 3 0)) d3

/-- Descriptors of an engine section: stream, whether it transmits, the 64 bytes. -/
def engineDescs (b : List Byte) : List (Nat × Bool × List Byte) :=
  let base := 96 + 24 * (iLe b 2 2 + iLe b 4 2)
  (entries base 72 (iLe b 6 2 + iLe b 8 2)).map (fun o => (iLe b o 2, iLe b (o + 2) 1 == 1, (b.drop (o + 8)).take 64))

/-- Map entries of an engine section: whether they belong to the transmit map, index, entry. -/
def engineMap (b : List Byte) : List (Bool × Nat × Nat) :=
  let base := 96 + 24 * (iLe b 2 2 + iLe b 4 2) + 72 * (iLe b 6 2 + iLe b 8 2)
  (entries base 8 (iLe b 10 4)).map (fun o => (iLe b o 2 / 2 ^ 14 % 2 == 1, iLe b o 2 % 2 ^ 14, iLe b (o + 4) 4))

/-- Write the tables of one engine into memory; false when some write is refused. DEDUCED, log entry 67. -/
def Dev.writeTables (d : Dev) (b : List Byte) : Dev × Bool :=
  let se := iLe b 0 1
  let put (a : Dev × Bool) (pa : Nat) (bs : List Byte) : Dev × Bool :=
    match a.1.engWrite pa bs with | (d1, .ok ()) => (d1, a.2) | (d1, .error _) => (d1, false)
  let a1 := (engineDescs b).foldl (fun a x => put a (d.tblBase se (if x.2.1 then 1 else 0) + 64 * x.1) x.2.2) (d, true)
  (engineMap b).foldl (fun a x => put a (d.tblBase se (if x.1 then 3 else 2) + 4 * x.2.1) (natLe 4 x.2.2)) a1

/-- Plan load (R820): the keeper writes the tables and each engine reads its descriptors. Done once for an image, as soon as
the memory of the tables takes the writes. DEDUCED, log entry 67. -/
def Dev.planLoad (d : Dev) : Dev :=
  if d.bt.planDone ∨ d.kp.image = [] then d
  else
    let es := (sectsOf (imageSects d.kp.image) 7).map (·.body)
    let (d1, ok) := es.foldl (fun (a : Dev × Bool) b => let (d1, x) := a.1.writeTables b; (d1, a.2 && x)) (d, true)
    if ok then
      let d2 := forAll es (fun b d => forAll (engineDescs b) (fun x d => d.descLoad (iLe b 0 1) x.2.1 x.1) d) d1
      { d2 with bt := { d2.bt with planDone := true } }
    else d1

/-- A TDM group section (R583). -/
def Dev.writeTdm (d : Dev) (b : List Byte) : Dev :=
  let g := iLe b 0 1; let u := tdmUid g
  forUpto 4 (fun l d =>
    let o := 8 + 264 * l
    let d1 := forUpto 32 (fun s d => d.setReg u (0x4400 + 256 * l + 8 * s) (iReg b (o + 8 + 8 * s))) d
    d1.tdmCfgWrite u regTdmCfg l (iReg b o)) d

/-- The lane plan (Table 13-10). -/
def Dev.writeLanes (d : Dev) (b : List Byte) : Dev :=
  let nrt := iLe b 0 2; let nrem := iLe b 2 1; let nexp := iLe b 3 1
  let d1 := forUpto 10 (fun q d => d.lqCfgWrite (quadUid q) regLqCfg (iReg b (16 + 8 * q))) d
  let d2 := forUpto 40 (fun l d => d.lqLinkWrite (quadUid (l / 4)) regLqLink (l % 4) (iReg b (96 + 8 * l))) d1
  let d3 := forUpto 4 (fun p d => d.regStore (pcieUid p) regPcieCfg 0 (iReg b (416 + 8 * p))) d2
  let d4 := forUpto 2 (fun h d => d.regStore (mgtUid h) regMgtCfg 0 (iReg b (448 + 8 * h))) d3
  let d5 := forUpto 2 (fun h d => (d.setFld (hubUid h) 0x8000 12 6 (iLe b 4 1)).setFld (hubUid h) 0x8000 18 16 (iLe b 6 2)) d4
  let d6 := forAll (entries 464 16 nrt) (fun o d => d.setRoute (iLe b o 2) (iReg b (o + 8))) d5
  let d7 := forAll (entries (464 + 16 * nrt) 16 nrem) (fun o d => d.setHubs (0x8100 + 8 * iLe b o 1) (iReg b (o + 8))) d6
  let d8 := forAll (entries (464 + 16 * (nrt + nrem)) 16 nexp) (fun o d => d.setHubs (0x8200 + 8 * iLe b o 1) (iReg b (o + 8))) d7
  d8.checkRoutes

/-- Events, mailbox matrix and unit ownership (R585, R586). -/
def Dev.writeRest (d : Dev) (ss : List Sect) : Dev :=
  let ev := sectBody ss 0xA; let mb := sectBody ss 0xB; let ow := sectBody ss 0xC
  let d1 := forAll (entries 0 8 (ev.length / 8)) (fun o d => let n := iLe ev o 8 % 4096
    d.evSrcKWrite regEvSrc n (BitVec.ofNat 64 (iLe ev o 8 / 2 ^ 16 % 2 ^ 40))) d
  let np := iLe mb 0 2
  let d2 := forAll (entries 8 16 np) (fun o d => d.setReg mbxU (0x9000 + 64 * iLe mb o 1 + 8 * iLe mb (o + 1) 1) (iReg mb (o + 8))) d1
  let d3 := forAll (entries (8 + 16 * np) 16 (iLe mb 2 1)) (fun o d => d.setReg mbxU (0xE000 + 32 * iLe mb o 1) (iReg mb (o + 8))) d2
  let d4 := forAll [evcUid 0, evcUid 1, mbxUid 0, mbxUid 1, hbUid] (fun u d => d.setReg u 0x10 0x200) d3
  forAll (entries 0 4 (ow.length / 4)) (fun o d =>
    d.setReg (iLe ow o 2) 0x10 (BitVec.ofNat 64 (iLe ow (o + 2) 1 + 2 ^ 8 * (iLe ow (o + 3) 1 % 4)))) d4

/-- DBG_LEVEL grants of the records in force (R743); in bench mode every level is full (R748). -/
def Dev.writeGrants (d : Dev) : Dev :=
  forUpto 256 (fun p d =>
    let g := match d.recOf p with | some r => r.debug % 4 | none => 0
    let i := match d.recOf p with | some r => r.debug / 4 % 2 | none => 0
    let a := 0x5400 + 8 * p
    let lv := if d.bench then 2 else min (d.fld dbgUid a 0 2) g
    d.setReg dbgUid a (BitVec.ofNat 64 (lv + 4 * g + 16 * i + 32 * d.bench.toNat))) d

end Sys2Proof.Machine
end

