-- ==== Sys2Proof/Machine/Validate.lean ====
section
/-!
DEFINITION. Validation of an Aedsor image: the rules of Table 13-12 in its order, each giving the byte offset of what fails
(R587-R591).
-/
namespace Sys2Proof.Machine

/-- The image under check: the device it is for, its bytes, its sections, the slot's length, and the roles of the clusters. -/
structure Img where
  d : Dev
  b : List Byte
  ss : List Sect
  slot : Nat
  roles : List Nat

/-- The lowest offset of the items that are bad (R588). -/
def worst (xs : List (Nat × Bool)) : Option Nat := ((xs.filter (fun e => e.2)).map (·.1)).min?

/-- Whether bytes [o, o + n) are zero. -/
def zeros (b : List Byte) (o n : Nat) : Bool := ((b.drop o).take n).all (· == 0)

/-- Bits that a field "as REG" may hold: its RW fields. -/
def rwMask (fs : List FieldRow) : Nat := fs.foldl (fun m f => match f.acc with | .rw => m ||| fmask f.lo f.w | _ => m) 0

/-- Whether a register image keeps to R574. -/
def asReg (r : RegRow) (v : Nat) : Bool :=
  (v &&& (2 ^ 64 - 1 - rwMask r.fields)) == 0 &&
    r.fields.all (fun f => match f.acc with | .rw => fieldOk f (nbits v f.lo f.w) | _ => true)

/-- Register image in a payload. DEDUCED, log entry 78. -/
def regAtOk (b : List Byte) (r : RegRow) (o : Nat) : Bool := asReg r (iLe b o 8)

def Img.sec (x : Img) (ty : Nat) : List Byte := sectBody x.ss ty
/-- Offset of a once-only section. -/
def Img.off (x : Img) (ty : Nat) : Nat := match sectsOf x.ss ty with | s :: _ => s.off | [] => 0
/-- The partition records with their sections. -/
def Img.recs (x : Img) : List (Sect × PartRec) := (sectsOf x.ss 6).map (fun s => (s, parseRec s.body))
/-- The stream engine sections. -/
def Img.engines (x : Img) : List Sect := sectsOf x.ss 7
/-- The TDM group sections. -/
def Img.tdms (x : Img) : List Sect := sectsOf x.ss 8

/-! Offsets of entries in the image. -/

def coreOff (s : Sect) (r : PartRec) (i : Nat) : Nat := s.off + 72 + 8 * r.cads.length + 32 * i
def winOff (s : Sect) (r : PartRec) (i : Nat) : Nat := coreOff s r r.cores.length + 32 * i
def slcOff (s : Sect) (r : PartRec) (i : Nat) : Nat := winOff s r r.wins.length + 4 * i
def shrOff (s : Sect) (r : PartRec) (i : Nat) : Nat := slcOff s r r.slices.length + 4 * i

/-- The core entries of the image: section, record, entry, offset. -/
def Img.cores (x : Img) : List (PartRec × CoreEnt × Nat) :=
  x.recs.flatMap (fun sr => sr.2.cores.zipIdx.map (fun e => (sr.2, e.1, coreOff sr.1 sr.2 e.2)))
def Img.wins (x : Img) : List (PartRec × WinEnt × Nat) :=
  x.recs.flatMap (fun sr => sr.2.wins.zipIdx.map (fun e => (sr.2, e.1, winOff sr.1 sr.2 e.2)))
def Img.slices (x : Img) : List (PartRec × SliceEnt × Nat) :=
  x.recs.flatMap (fun sr => sr.2.slices.zipIdx.map (fun e => (sr.2, e.1, slcOff sr.1 sr.2 e.2)))
def Img.shares (x : Img) : List (PartRec × ShareEnt × Nat) :=
  x.recs.flatMap (fun sr => sr.2.shares.zipIdx.map (fun e => (sr.2, e.1, shrOff sr.1 sr.2 e.2)))

/-! Group 01: the container. -/

/-- Pairs of neighbours that break the order of R567. -/
def orderBad : List Sect → List (Nat × Bool)
  | [] => []
  | [_] => []
  | a :: b :: rest =>
    let keyed := a.ty == 6 || a.ty == 7 || a.ty == 8
    (a.off, decide (b.ty < a.ty) || (keyed && a.ty == b.ty && decide (iLe b.body 0 1 ≤ iLe a.body 0 1))) :: orderBad (b :: rest)

/-- Whether a section's length and counts agree (rule 0x010C). -/
def lenOk (s : Sect) : Bool :=
  let b := s.body; let n := b.length
  let upTo (o k m : Nat) : Bool := decide (iLe b o k ≤ m)
  match s.ty with
  | 1 => n == 16 | 2 => n == 72 | 3 => n == 8
  | 4 => decide (2 ≤ n) && decide (1 ≤ iLe b 0 1) && upTo 0 1 16 && upTo 1 1 64 && n == 208 + 24 * (iLe b 0 1 + iLe b 1 1)
  | 5 => n == 128
  | 6 => decide (64 ≤ n) && decide (1 ≤ iLe b 2 2) && upTo 2 2 256 && upTo 4 1 16 && upTo 5 1 16 && decide (1 ≤ iLe b 6 1) &&
      upTo 6 1 48 && upTo 7 1 48 &&
      n == 64 + 8 * iLe b 4 1 + 32 * (iLe b 2 2 + iLe b 5 1) + 4 * (iLe b 6 1 + iLe b 7 1)
  | 7 => decide (96 ≤ n) && upTo 2 2 64 && upTo 4 2 32 && upTo 6 2 1024 && upTo 8 2 1024 && upTo 10 4 32768 &&
      n == 96 + 24 * (iLe b 2 2 + iLe b 4 2) + 72 * (iLe b 6 2 + iLe b 8 2) + 8 * iLe b 10 4
  | 8 => n == 1064
  | 9 => decide (464 ≤ n) && upTo 0 2 4095 && upTo 2 1 32 && upTo 3 1 32 && n == 464 + 16 * (iLe b 0 2 + iLe b 2 1 + iLe b 3 1)
  | 0xA => n % 8 == 0
  | 0xB => decide (8 ≤ n) && upTo 2 1 16 && n == 8 + 16 * (iLe b 0 2 + iLe b 2 1)
  | 0xC => n % 4 == 0
  | 0xD => n % 64 == 0 && decide (64 ≤ n) && decide (n ≤ 512)
  | 0xE => n == 72 | 0xF => n == 16
  | _ => true

/-! Rule 0x010D: zero bytes, reserved values, register images. Each check names its offset. -/

def chkDevice (s : Sect) : List (Nat × Bool) :=
  let b := s.body
  [(s.off, !(decide (iLe b 0 2 < 4096) && decide (10 ≤ iLe b 2 2) && decide (iLe b 2 2 ≤ 10000) &&
    fieldOk ⟨0, 3, .rw, 0, none, [(0, 4)]⟩ (iLe b 4 1) && decide (iLe b 5 1 ≤ 1) && decide (iLe b 6 1 ≤ 4) &&
    decide (iLe b 7 1 ≤ 1) && decide (iLe b 8 1 ≤ 41) && decide (iLe b 9 1 ≤ 127) && zeros b 10 6))]

def chkMemory (s : Sect) : List (Nat × Bool) :=
  let b := s.body; let nr := iLe b 0 1; let nx := iLe b 1 1
  let chan (c : Nat) : Bool := let o := 16 + 16 * c
    regAtOk b regMcSched o && decide (iLe b (o + 4) 1 < iLe b (o + 3) 1) && decide (iLe b (o + 4) 1 ≠ 0) &&
    asReg regMcScrub (iLe b (o + 10) 1 % 4 + 2 ^ 8 * iLe b (o + 9) 1) && decide (iLe b (o + 10) 1 < 8) &&
    decide (iLe b (o + 11) 1 ≤ 3) && zeros b (o + 12) 4
  let range (o : Nat) : Bool := decide (iLe b o 1 ≤ 15) && zeros b (o + 1) 7 && regAtOk b regMemRangeBase (o + 8) &&
    regAtOk b regMemRangeAttr (o + 16) && (iLe b (o + 8) 1 % 2 == 0 || (decide (nbits (iLe b (o + 16) 8) 0 12 ≠ 0) &&
      decide (1 ≤ nbits (iLe b (o + 16) 8) 16 12) && decide (nbits (iLe b (o + 16) 8) 16 12 ≤ 3072)))
  let xr (o : Nat) : Bool := let base := iLe b (o + 8) 8; let at' := iLe b (o + 16) 8 % 2 ^ 63
    decide (iLe b o 1 ≤ 63) && zeros b (o + 1) 7 && asReg regXrBase base && asReg regXrAttr at' &&
    !lowBits (nbits base 21 27) (at' % 64) && (base % 2 == 0 || decide (nbits at' 8 16 ≠ 0))
  (s.off, !(zeros b 2 14 && (List.range 12).all chan)) ::
    ((entries 208 24 nr).map (fun o => (s.off + 8 + o, !range o)) ++
     (entries (208 + 24 * nr) 24 nx).map (fun o => (s.off + 8 + o, !xr o)))

def chkRecord (s : Sect) : List (Nat × Bool) :=
  let b := s.body; let r := parseRec b
  let head := decide (r.tier ≤ 2) && decide (r.flags < 128) && decide (r.debug < 64) && decide (r.debug % 4 ≠ 3) &&
    (decide (r.mcad ≤ 15) || r.mcad == 255) && zeros b 11 1 && zeros b 16 48
  let cad (o : Nat) : Bool := decide (iLe b o 1 ≤ 15) && zeros b (o + 1) 1
  let core (o : Nat) : Bool := decide (iLe b (o + 1) 1 < 8) &&
    [2, 4, 6].all (fun k => decide (iLe b (o + k) 2 ≤ 287) || iLe b (o + k) 2 == 0xFFFF) &&
    iLe b (o + 8) 8 % 4 == 0 && decide (iLe b (o + 16) 1 ≤ 15) && zeros b (o + 19) 1 && zeros b (o + 30) 2
  let win (o : Nat) : Bool := decide (iLe b (o + 25) 1 < 16) && decide (iLe b (o + 26) 1 < 32) && decide (iLe b (o + 28) 1 ≤ 15) &&
    decide (iLe b (o + 29) 1 ≤ 1) && zeros b (o + 30) 2 &&
    asReg regWinAttr (iLe b (o + 24) 1 + 2 ^ 8 * iLe b (o + 25) 1 + 2 ^ 16 * iLe b (o + 26) 1 + 2 ^ 24 * iLe b (o + 27) 1) &&
    (decide (r.tier ≠ 0) || zeros b (o + 8) 16)
  let slc (o : Nat) : Bool := decide (iLe b (o + 2) 2 < 2 ^ 14) && decide (iLe b (o + 2) 2 % 2 ^ 12 ≠ 0)
  let shr (o : Nat) : Bool := decide (iLe b o 1 ≤ 11) && decide (iLe b (o + 1) 1 ≤ 3) && decide (iLe b (o + 2) 1 ≠ 0) &&
    asReg regMcShare (1 + 2 * iLe b (o + 1) 1 + 2 ^ 16 * iLe b (o + 2) 1 + 2 ^ 24 * iLe b (o + 3) 1)
  let mk (f : Nat → Bool) (o : Nat) : Nat × Bool := (s.off + 8 + o, !f o)
  let o1 := 64 + 8 * iLe b 4 1; let o2 := o1 + 32 * iLe b 2 2; let o3 := o2 + 32 * iLe b 5 1; let o4 := o3 + 4 * iLe b 6 1
  (s.off, !head) :: ((entries 64 8 (iLe b 4 1)).map (mk cad) ++ (entries o1 32 (iLe b 2 2)).map (mk core) ++
    (entries o2 32 (iLe b 5 1)).map (mk win) ++ (entries o3 4 (iLe b 6 1)).map (mk slc) ++ (entries o4 4 (iLe b 7 1)).map (mk shr))

def chkEngine (s : Sect) : List (Nat × Bool) :=
  let b := s.body; let nb := iLe b 2 2; let ng := iLe b 4 2; let nd := iLe b 6 2 + iLe b 8 2
  let rt := iLe b 16 8
  let head := decide (iLe b 0 1 ≤ 3) && zeros b 1 1 && zeros b 14 2 && zeros b 80 16 && asReg regSeRtport rt &&
    decide (nbits rt 0 10 < nbits rt 10 10) && decide (nbits rt 10 10 ≤ 511) && decide (nbits rt 30 10 ≠ 0) &&
    decide (nbits rt 30 10 < nbits rt 20 10) && regAtOk b regCommitCtl 24 && regAtOk b regTwinCtl 32 &&
    regAtOk b regTwinInmask 40 && (entries 48 8 4).all (fun o => regAtOk b regSeTbl o)
  let buf (o : Nat) : Bool := decide (iLe b o 1 ≤ 63) && zeros b (o + 1) 7 && regAtOk b regBufBase (o + 8) && regAtOk b regBufAttr (o + 16)
  let grp (o : Nat) : Bool := decide (iLe b o 1 ≤ 31) && zeros b (o + 1) 7 && regAtOk b regCgCfg (o + 8) && regAtOk b regCgHist (o + 16)
  let dsc (o : Nat) : Bool :=
    let ds := (b.drop (o + 8)).take 64; let tx := iLe b (o + 2) 1 == 1; let w := dLe ds 0 2
    decide (iLe b o 2 ≤ 1023) && decide (iLe b (o + 2) 1 ≤ 1) && zeros b (o + 3) 5 && decide (w / 2 % 4 ≤ 1) &&
      decide (w < (if tx then 32 else 128)) && decide (dFormat ds ≤ 2) && decide (dLe ds 5 1 ≤ 4) &&
      (if tx then decide (dLe ds 58 2 < 2 ^ 15) && decide (dLe ds 60 2 < 64) else zeros ds 62 2) &&
      (!dEn ds || (decide (1 ≤ dChans ds) && decide (dFirst ds ≤ 16383) && (dAvtp ds || (decide (96 ≤ dPt ds) && decide (dPt ds ≤ 127)))))
  let map (o : Nat) : Bool := decide (iLe b o 2 < 2 ^ 15) && zeros b (o + 2) 2
  let mk (f : Nat → Bool) (o : Nat) : Nat × Bool := (s.off + 8 + o, !f o)
  (s.off, !head) :: ((entries 96 24 nb).map (mk buf) ++ (entries (96 + 24 * nb) 24 ng).map (mk grp) ++
    (entries (96 + 24 * (nb + ng)) 72 nd).map (mk dsc) ++ (entries (96 + 24 * (nb + ng) + 72 * nd) 8 (iLe b 10 4)).map (mk map))

def chkTdm (s : Sect) : List (Nat × Bool) :=
  let b := s.body
  [(s.off, !(decide (iLe b 0 1 ≤ 3) && zeros b 1 7 && (entries 8 264 4).all (fun o => regAtOk b regTdmCfg o &&
    (entries (o + 8) 8 32).all (fun q => regAtOk b regTdmSlot q))))]

def chkLanes (s : Sect) : List (Nat × Bool) :=
  let b := s.body; let nrt := iLe b 0 2; let nrem := iLe b 2 1
  let remEn (o : Nat) : Bool := iLe b (o + 8) 1 % 2 == 1
  let rems := entries (464 + 16 * nrt) 16 nrem
  let head := decide (iLe b 4 1 ≤ 39) && zeros b 5 1 && zeros b 8 8 && (entries 16 8 10).all (fun o => regAtOk b regLqCfg o) &&
    (entries 96 8 40).all (fun o => decide (iLe b o 8 < 2 ^ 28)) && (entries 416 8 4).all (fun o => regAtOk b regPcieCfg o) &&
    (entries 448 8 2).all (fun o => regAtOk b regMgtCfg o) && (decide (iLe b 6 2 ≠ 0) || !rems.any remEn)
  let rt (o : Nat) : Bool := decide (iLe b o 2 < 4096) && zeros b (o + 2) 6 && regAtOk b regTrlRt (o + 8)
  let rem (o : Nat) : Bool := let v := iLe b (o + 8) 8
    decide (iLe b o 1 ≤ 31) && zeros b (o + 1) 7 && asReg regRemWin v &&
      (!remEn o || (!lowBits (nbits v 8 27) (nbits v 1 6) && inRemote (nbits v 8 27 * 2 ^ 21)))
  let ex (o : Nat) : Bool := decide (iLe b o 1 ≤ 31) && zeros b (o + 1) 7 && regAtOk b regExpWin (o + 8)
  let mk (f : Nat → Bool) (o : Nat) : Nat × Bool := (s.off + 8 + o, !f o)
  (s.off, !head) :: ((entries 464 16 nrt).map (mk rt) ++ rems.map (mk rem) ++ (entries (464 + 16 * (nrt + nrem)) 16 (iLe b 3 1)).map (mk ex))

def chkRest (s : Sect) : List (Nat × Bool) :=
  let b := s.body
  let mk (f : Nat → Bool) (o : Nat) : Nat × Bool := (s.off + 8 + o, !f o)
  match s.ty with
  | 2 => [(s.off, !b.all (fun x => decide (x.toNat ≤ 2)))]
  | 3 => [(s.off, !b.all (fun x => decide (x.toNat ≤ 1)))]
  | 5 => (entries 0 8 16).map (mk (fun o => regAtOk b regCadCfg o && decide (iLe b (o + 4) 1 < 8 * 2 ^ nbits (iLe b o 8) 2 3)))
  | 0xA => (entries 0 8 (b.length / 8)).map (mk (fun o =>
      let w := iLe b o 8; let v := nbits w 16 40
      nbits w 12 4 == 0 && nbits w 56 8 == 0 && asReg regEvSrc v &&
        ((fixedSense (w % 4096)).isNone || nbits v 1 2 == 0)))
  | 0xB =>
    let np := iLe b 0 2
    (s.off, !zeros b 3 5) :: ((entries 8 16 np).map (mk (fun o => decide (iLe b (o + 1) 1 ≤ 7) && zeros b (o + 2) 6)) ++
      (entries (8 + 16 * np) 16 (iLe b 2 1)).map (mk (fun o => decide (iLe b o 1 ≤ 15) && zeros b (o + 1) 7 && regAtOk b regRmbxDest (o + 8))))
  | 0xC => (entries 0 4 (b.length / 4)).map (mk (fun o => decide (iLe b (o + 3) 1 ≤ 2)))
  | 0xD => (entries 0 64 (b.length / 64)).map (mk (fun o => decide (iLe b o 1 ≤ 7) && zeros b (o + 1) 15))
  | 0xE => (s.off, !(decide (50 ≤ iLe b 0 1) && decide (iLe b 0 1 ≤ 95) && decide (iLe b 1 1 ≤ 1) && zeros b 2 6)) ::
      (entries 8 8 8).map (mk (fun o => decide (iLe b o 1 ≤ 1) && decide (iLe b (o + 1) 1 < iLe b (o + 2) 1) && zeros b (o + 3) 1 &&
        decide (550 ≤ iLe b (o + 4) 2) && decide (iLe b (o + 4) 2 ≤ 900) && iLe b (o + 4) 2 % 5 == 0 && zeros b (o + 6) 2))
  | 0xF => [(s.off, !(regAtOk b regTrlBound 0 && zeros b 8 8))]
  | _ => []

/-- Rule 0x010D of one section. -/
def chkSection (s : Sect) : List (Nat × Bool) :=
  match s.ty with
  | 1 => chkDevice s | 4 => chkMemory s | 6 => chkRecord s | 7 => chkEngine s | 8 => chkTdm s | 9 => chkLanes s
  | _ => chkRest s

/-- Once-only and required types of Table 13-3. -/
def onceTypes : List Nat := [1, 2, 3, 4, 5, 9, 0xA, 0xB, 0xC, 0xD, 0xE, 0xF]
def requiredTypes : List Nat := [1, 2, 4, 5, 0xE, 0xF]

/-- Group 01 of Table 13-12. -/
def rules01 : List (Nat × (Img → Option Nat)) :=
  let head (p : Img → Bool) (x : Img) : Option Nat := if p x then some 0 else none
  [(0x0101, head (fun x => decide (iLe x.b 0 4 ≠ 0x53444541))),
   (0x0102, head (fun x => decide (iLe x.b 5 1 ≠ 1) || decide (iLe x.b 6 2 ≠ 64))),
   (0x0103, head (fun x => let n := iLe x.b 8 4
      decide (n % 8 ≠ 0) || decide (n < 320) || decide (2 ^ 24 < n) || decide (x.slot < n) || decide (x.b.length < n))),
   (0x0104, head (fun x => crc32c (x.b.take 60) != iLe x.b 60 4)),
   (0x0105, head (fun x => decide (iLe x.b 24 2 ≠ 0x0288) || iLe x.b 26 1 / 2 ^ Config.orderingCode % 2 == 0)),
   (0x0106, head (fun x => decide (iLe x.b 28 8 ≠ 0) && iLe x.b 28 8 != Config.serial.toNat)),
   (0x0107, fun x => match sections x.b (iLe x.b 8 4 - 256) (iLe x.b 12 4) 64 with
      | some ss => if ss.length = iLe x.b 12 4 then none else some 64
      | none => some 64),
   (0x0108, fun x => worst (x.ss.map (fun s => (s.off, !s.crcOk)))),
   (0x0109, fun x => worst (orderBad x.ss)),
   (0x010A, fun x => if requiredTypes.any (fun t => (sectsOf x.ss t).isEmpty) || (sectsOf x.ss 6).isEmpty then some 0
      else worst (onceTypes.map (fun t => (x.off t, decide (1 < (sectsOf x.ss t).length))))),
   (0x010B, fun x => worst (x.ss.map (fun s => (s.off, decide (1 < s.flags) ||
      ((s.ty == 0 || (decide (0x10 ≤ s.ty) && decide (s.ty < 0x8000))) && s.flags == 0))))),
   (0x010C, fun x => worst (x.ss.map (fun s => (s.off, !lenOk s)))),
   (0x010D, fun x =>
      let n := iLe x.b 8 4
      if !(zeros x.b 27 1 && zeros x.b 36 24) || decide (3 < iLe x.b 26 1) || decide (iLe x.b 26 1 = 0) then some 0
      else worst ((n - 256, !(iLe x.b (n - 256) 4 == 0x4E474953 && zeros x.b (n - 251) 3 && zeros x.b (n - 56) 56)) ::
        x.ss.flatMap (fun s => (s.off, !s.padOk) :: chkSection s)))]

/-! Group 03: cores. -/

/-- The physical cores that an entry names, with their replica. -/
def CoreEnt.named (e : CoreEnt) : List (Nat × Nat) := (e.phys.zipIdx).filter (fun p => decide (p.1 < 288))

/-- Whether a list of offsets keyed by a number has a repeated key: the lowest offset of a key that repeats. -/
def repeated (xs : List (Nat × Nat)) : Option Nat :=
  worst (xs.zipIdx.map (fun e => (e.1.2, xs.zipIdx.any (fun f => e.2 != f.2 && e.1.1 == f.1.1))))

/-- The clusters of a replica of a record. -/
def PartRec.clusters (r : PartRec) (ix : Nat) : List Nat :=
  dedupNat ((r.cores.filter (fun e => decide (e.phys.getD ix 0xFFFF < 288))).map (fun e => e.phys.getD ix 0xFFFF / 4))

/-- Replica indices of a record. -/
def PartRec.ixs (r : PartRec) : List Nat := List.range (tierReps r.tier)

/-- Whether two lists of numbers share one. -/
def meets (a b : List Nat) : Bool := a.any (fun k => b.contains k)

def rules03 : List (Nat × (Img → Option Nat)) :=
  [(0x0301, fun x => let roles := x.roles
      worst (x.cores.map (fun e => (e.2.2, e.2.1.named.any (fun p => roles.getD (p.1 / 4) 2 != 0))))),
   (0x0302, fun x =>
      match repeated (x.cores.flatMap (fun e => e.2.1.named.map (fun p => (p.1, e.2.2)))) with
      | some o => some o
      | none => repeated (x.cores.map (fun e => (e.2.1.lcore, e.2.2)))),
   (0x0303, fun x => worst (
      x.cores.map (fun e => (e.2.2, e.2.1.phys.zipIdx.any (fun p => decide (p.1 = 0xFFFF) == decide (p.2 ≤ e.1.tier)))) ++
      x.recs.map (fun sr => (coreOff sr.1 sr.2 0, sr.2.ixs.any (fun i => sr.2.ixs.any (fun j =>
        i != j && meets (sr.2.clusters i) (sr.2.clusters j))) ||
        (sr.2.tier == 2 && (List.range 8).any (fun g => sr.2.ixs.all (fun i => (sr.2.clusters i).all (fun k => k / 9 == g)))))))),
   (0x0304, fun x =>
      let ms := x.cores.flatMap (fun e => e.2.1.named.map (fun p => (e.1.part, p.1 / 4, e.2.1.masks.getD p.2 0, e.2.2)))
      worst (ms.map (fun a => (a.2.2.2, ms.any (fun b => a.1 != b.1 && a.2.1 == b.2.1 && (a.2.2.1 &&& b.2.2.1) != 0))))),
   (0x0305, fun x => worst (x.cores.map (fun e =>
      let v := e.2.1.vector
      (e.2.2, !(decide (0xE0001FF00000 ≤ v) && decide (v < 0xE00020000000)) &&
        !e.1.wins.any (fun w => w.rights / 4 % 2 == 1 && decide ((w.span 0).1 ≤ v) && decide (v < (w.span 0).1 + (w.span 0).2)))))),
   (0x0306, fun x => worst (x.cores.map (fun e => (e.2.2, e.1.tier != 0 && !e.2.1.dmode))))]

/-! Group 04: windows, slices, cadences. -/

/-- Whether two stretches of addresses (start, size) overlap. -/
def overlap (a b : Nat × Nat) : Bool := decide (a.1 < b.1 + b.2) && decide (b.1 < a.1 + a.2)
/-- Whether stretch `b` holds all of `a`. -/
def inside (a b : Nat × Nat) : Bool := decide (b.1 ≤ a.1) && decide (a.1 + a.2 ≤ b.1 + b.2)

/-- The enabled memory ranges of the plan: index, base, size, attributes, offset. -/
def Img.ranges (x : Img) : List (Nat × Nat × Nat × Nat) :=
  let b := x.sec 4
  ((entries 208 24 (iLe b 0 1)).filter (fun o => iLe b (o + 8) 1 % 2 == 1)).map (fun o =>
    (nbits (iLe b (o + 8) 8) 30 18 * 2 ^ 30, nbits (iLe b (o + 16) 8) 16 12 * 2 ^ 30, iLe b (o + 16) 8, x.off 4 + 8 + o))
/-- The enabled exchange ranges: stretch, attributes, offset. -/
def Img.xrs (x : Img) : List ((Nat × Nat) × Nat × Nat) :=
  let b := x.sec 4
  ((entries (208 + 24 * iLe b 0 1) 24 (iLe b 1 1)).filter (fun o => iLe b (o + 8) 1 % 2 == 1)).map (fun o =>
    ((nbits (iLe b (o + 8) 8) 21 27 * 2 ^ 21, 2 ^ (iLe b (o + 16) 8 % 64)), iLe b (o + 16) 8, x.off 4 + 8 + o))

/-- The keeper area (R665): the highest 64 MiB of the memory range with the lowest BASE. -/
def Img.keeperArea (x : Img) : Nat × Nat :=
  match x.ranges.foldl (fun (a : Option (Nat × Nat)) r => match a with
    | some y => if r.1 < y.1 then some (r.1, r.2.1) else a
    | none => some (r.1, r.2.1)) none with
  | some y => (y.1 + y.2 - 2 ^ 26, 2 ^ 26)
  | none => (0, 0)

/-- The ranges of Table 1-6 that windows cannot cover (R53). -/
def Img.excluded (x : Img) : List (Nat × Nat) :=
  [(0x040000000000, 0x3C0000000000), (0x800000000000, 0x600000000000), (0xE00000000000, 0x100000000000),
   (0xF000C0000000, 0x00FF40000000), (0xF10000040000, 0xC0000), (0xF10000140000, 2 ^ 64), x.keeperArea]

/-- Cadence configuration in the image. -/
def Img.cad (x : Img) (c : Nat) : Nat := iLe (x.sec 5) (8 * c) 8
def Img.cadN (x : Img) (c : Nat) : Nat := 8 * 2 ^ nbits (x.cad c) 2 3
def Img.cadFs (x : Img) (c : Nat) : Nat := if nbits (x.cad c) 1 1 = 1 then 96000 else 48000

/-- The enabled buffers of an engine section: index, stretch, attributes, offset. -/
def Img.bufs (x : Img) (s : Sect) : List (Nat × (Nat × Nat) × Nat × Nat) :=
  let b := s.body
  ((entries 96 24 (iLe b 2 2)).filter (fun o => iLe b (o + 8) 1 % 2 == 1)).map (fun o =>
    let a := iLe b (o + 16) 8
    let size := (if nbits a 1 1 = 1 then 8 else 4) * (512 + (nbits a 8 10 + 1) * x.cadN (nbits a 2 4) * 64)
    (iLe b o 1, (nbits (iLe b (o + 8) 8) 12 36 * 4096, size), a, s.off + 8 + o))
/-- The enabled commit groups of an engine section: index, CG_CFG, history base, offset. -/
def groupsIn (s : Sect) : List (Nat × Nat × Nat × Nat) :=
  let b := s.body
  ((entries (96 + 24 * iLe b 2 2) 24 (iLe b 4 2)).filter (fun o => iLe b (o + 8) 1 % 2 == 1)).map (fun o =>
    (iLe b o 1, iLe b (o + 8) 8, nbits (iLe b (o + 16) 8) 12 36 * 4096, s.off + 8 + o))
/-- Buffer `i` of a group for a replica index. -/
def grpBuf (cfg i : Nat) : Nat := nbits cfg (3 + 6 * i) 6
/-- The stretch of buffer `n` of a section. -/
def Img.buf (x : Img) (s : Sect) (n : Nat) : Option ((Nat × Nat) × Nat) :=
  ((x.bufs s).find? (fun e => e.1 == n)).map (fun e => (e.2.1, e.2.2.1))

/-- The history areas of a section (R483): one slot of the group's size. -/
def Img.histories (x : Img) (s : Sect) : List (Nat × Nat) :=
  (groupsIn s).map (fun g => match x.buf s (grpBuf g.2.1 0) with
    | some (bf, a) => (g.2.2.1, bf.2 / (if nbits a 1 1 = 1 then 8 else 4))
    | none => (g.2.2.1, 512))
/-- The descriptor and map tables of a section. -/
def tablesIn (s : Sect) : List (Nat × Nat) := (entries 48 8 4).map (fun o => (nbits (iLe s.body o 8) 12 36 * 4096, 65536))

/-- The output buffers of replica `ix` of a partition. -/
def Img.ownOut (x : Img) (p ix : Nat) : List (Nat × Nat) :=
  x.engines.flatMap (fun s => ((groupsIn s).filter (fun g => nbits g.2.1 24 8 == p)).flatMap (fun g =>
    match x.buf s (grpBuf g.2.1 ix) with | some (b, _) => [b] | none => []))
/-- Everything in exchange ranges that a private window of replica `ix` of partition `p` keeps clear of (R580). -/
def Img.foreign (x : Img) (p ix : Nat) : List (Nat × Nat) :=
  let mine := x.ownOut p ix
  x.engines.flatMap (fun s => ((x.bufs s).map (fun e => e.2.1)).filter (fun b => !mine.contains b) ++ x.histories s ++ tablesIn s)

/-- Every window of every replica: partition, replica index, stretch, shared, offset. -/
structure WinAt where
  part : Nat
  ix : Nat
  span : Nat × Nat
  shared : Bool
  off : Nat

def Img.winAts (x : Img) : List WinAt :=
  x.wins.flatMap (fun e => e.1.ixs.map (fun ix => ⟨e.1.part, ix, e.2.1.span ix, e.2.1.shared, e.2.2⟩))

/-- Whether window `a` of a replica and window `b` are two different windows. -/
def WinAt.other (a b : WinAt) : Bool := a.part != b.part || a.ix != b.ix || a.off != b.off

/-- Rule 0x0401. -/
def Img.v0401 (x : Img) : Option Nat :=
  let xr := x.xrs.map (·.1)
  let was := x.winAts
  worst (was.map (fun a => (a.off,
      x.excluded.any (overlap a.span) || a.span.1 % a.span.2 != 0 ||
      (!a.shared && xr.any (overlap a.span) &&
        ((x.foreign a.part a.ix).any (overlap a.span) || was.any (fun b => a.other b && overlap a.span b.span))))) ++
    x.wins.map (fun e => (e.2.2, e.1.tier != 0 && (
      let bs := e.1.ixs.map (fun i => e.2.1.bases.getD i 0)
      if e.2.1.shared then !bs.all (fun b => b == bs.headD 0) else !decide bs.Nodup))))

/-- The parts of a stretch of SDRAM that no exchange range covers. -/
def outside (s : Nat × Nat) : List (Nat × Nat) → List (Nat × Nat)
  | [] => [s]
  | r :: rs =>
    if overlap s r then
      ((if s.1 < r.1 then outside (s.1, r.1 - s.1) rs else []) ++
       (if r.1 + r.2 < s.1 + s.2 then outside (r.1 + r.2, s.1 + s.2 - (r.1 + r.2)) rs else []))
    else outside s rs

/-- The SDRAM of a window outside every exchange range. -/
def Img.plain (x : Img) (s : Nat × Nat) : List (Nat × Nat) :=
  if s.1 < 2 ^ 42 then outside (s.1, min s.2 (2 ^ 42 - s.1)) (x.xrs.map (·.1)) else []

/-- Rule 0x0402 (R309). -/
def Img.v0402 (x : Img) : Option Nat :=
  let ps := x.winAts.map (fun a => (a, x.plain a.span))
  worst (ps.map (fun a => (a.1.off, ps.any (fun b => (a.1.part != b.1.part || a.1.ix != b.1.ix) &&
    a.2.any (fun s => b.2.any (overlap s))))))

/-- Rule 0x0403 (R474): the windows of a replica, and the units its partition owns. A replica reaches the mailbox block by the smallest
window that holds it, although that window holds other register blocks too (DEDUCED, log entry 41). -/
def Img.v0403 (x : Img) : Option Nat :=
  let ow := x.sec 0xC
  let consts := (x.xrs.filter (fun e => nbits e.2.1 63 1 == 1)).map (·.1)
  let inputs := x.engines.flatMap (fun s => ((x.bufs s).filter (fun e => nbits e.2.2.1 0 1 == 0)).map (fun e => e.2.1))
  let mbx (s : Nat × Nat) : Bool := s.2 == 2 ^ 21 && (List.range 2).any (fun h => inside (0xF00000000000 + mbxUid h * 65536, 65536) s)
  let bad (e : PartRec × WinEnt × Nat) : Bool :=
    let w := e.2.1
    e.1.tier != 0 && (if w.shared then
        (if mbx (w.span 0) then decide (w.types % 8 ≠ 0) else w.rights / 2 % 2 == 1 || decide (w.types / 8 ≠ 0) ||
          !((consts ++ inputs ++ x.xrs.map (·.1)).any (inside (w.span 0))))
      else decide (w.types / 8 ≠ 0) || e.1.ixs.any (fun i => decide (2 ^ 42 < (w.span i).1 + (w.span i).2)))
  worst (x.wins.map (fun e => (e.2.2, bad e)) ++
    (entries 0 4 (ow.length / 4)).map (fun o => (x.off 0xC + 8 + o, iLe ow (o + 3) 1 == 1 &&
      x.recs.any (fun sr => sr.2.part == iLe ow (o + 2) 1 && sr.2.tier != 0))))

/-- The replica codes of a tier. -/
def tierCodes (tier : Nat) : List Nat := if tier = 0 then [0] else (List.range (tier + 1)).map (· + 1)

def rules04 : List (Nat × (Img → Option Nat)) :=
  [(0x0401, Img.v0401), (0x0402, Img.v0402), (0x0403, Img.v0403),
   (0x0404, fun x => let roles := x.roles
      worst (x.recs.map (fun sr => (slcOff sr.1 sr.2 0, (tierCodes sr.2.tier).any (fun c =>
          (sr.2.sliceList c).isEmpty || decide (16 < (sr.2.sliceList c).length)))) ++
        x.slices.map (fun e => (e.2.2, unitKind e.2.1.uid != some .l3 || roles.getD (uidClusterNo e.2.1.uid) 2 != 0)))),
   (0x0405, fun x => worst (x.slices.zipIdx.map (fun a =>
      let same := x.slices.zipIdx.filter (fun b => b.1.2.1.uid == a.1.2.1.uid)
      (a.1.2.2, decide (4 < same.length) || same.any (fun b => a.2 != b.2 &&
        (a.1.1.part == b.1.1.part || (a.1.2.1.ways &&& b.1.2.1.ways) != 0)))))),
   (0x0406, fun x => worst (
      x.cores.map (fun e =>
        let holds (c : Nat) : Bool := e.1.cads.any (fun k => k.1 == c)
        (e.2.2, (e.2.1.wDecl && !holds e.2.1.wCad) || (List.range 16).any (fun c => nbits e.2.1.cmask c 1 == 1 && !holds c))) ++
      x.recs.map (fun sr => (sr.1.off, sr.2.tier != 0 && !sr.2.cads.any (fun k => k.1 == sr.2.mcad)))))]

/-! Group 05: memory. -/

/-- The channels of a range's attributes. -/
def attrChans (a : Nat) : List Nat := (List.range 12).filter (fun c => nbits a c 1 == 1)
/-- The stretch that a range takes in each of its channels, in GiB. -/
def portion (r : Nat × Nat × Nat × Nat) : Nat × Nat :=
  (nbits r.2.2.1 30 8, r.2.1 / 2 ^ 30 / max 1 (attrChans r.2.2.1).length)
/-- Channels that a range occupies, its mirror partners included. -/
def rangeChans (a : Nat) : List Nat := attrChans a ++ (if nbits a 13 1 = 1 then (attrChans a).map (· + 6) else [])

/-- Installed capacity of a channel in GiB, less the spare rank that the plan sets. -/
def Img.capacity (x : Img) (c : Nat) : Nat :=
  let v := x.d.reg (mcUid c) 0x4000
  let ranks := bits v 3 2 * (if bit v 5 then 2 else 1)
  if x.d.ch.populated.contains c then (ranks - nbits (iLe (x.sec 4) (16 + 16 * c + 10) 1) 2 1) * (if bit v 6 then 64 else 32) else 0

/-- All pairs of different entries that pass `p`: the offset of the earlier. -/
def pairBad {α : Type} (xs : List α) (off : α → Nat) (p : α → α → Bool) : Option Nat :=
  worst (xs.zipIdx.flatMap (fun a => xs.zipIdx.map (fun b => (min (off a.1) (off b.1), a.2 != b.2 && p a.1 b.1))))

def rules05 : List (Nat × (Img → Option Nat)) :=
  [(0x0501, fun x =>
      let rs := x.ranges
      let one (r : Nat × Nat × Nat × Nat) : Bool :=
        let n := (attrChans r.2.2.1).length
        !([1, 2, 3, 4, 6, 8, 12].contains n) || r.2.1 / 2 ^ 30 % n != 0 ||
          (nbits r.2.2.1 13 1 == 1 && (attrChans r.2.2.1).any (fun c => decide (5 < c) || !x.d.ch.populated.contains (c + 6)))
      match pairBad rs (fun r => r.2.2.2) (fun a b => overlap (a.1, a.2.1) (b.1, b.2.1) ||
          (meets (rangeChans a.2.2.1) (rangeChans b.2.2.1) && overlap (portion a) (portion b))), worst (rs.map (fun r => (r.2.2.2, one r))) with
      | some a, some b => some (min a b) | some a, none => some a | none, b => b),
   (0x0502, fun x => worst (x.ranges.map (fun r => (r.2.2.2, (rangeChans r.2.2.1).any (fun c =>
      decide (x.capacity c < (portion r).1 + (portion r).2)))))),
   (0x0503, fun x =>
      let ways (e : (Nat × Nat) × Nat × Nat) : Nat := nbits e.2.1 8 16
      let pin (e : (Nat × Nat) × Nat × Nat) : Bool := nbits e.2.1 7 1 == 1
      let count (m : Nat) : Nat := ((List.range 16).filter (fun i => nbits m i 1 == 1)).length
      match pairBad x.xrs (fun e => e.2.2) (fun a b => overlap a.1 b.1 || (pin a && (ways a &&& ways b) != 0 && nbits a.2.1 6 1 == nbits b.2.1 6 1)),
        worst (x.xrs.map (fun e => (e.2.2, overlap e.1 x.keeperArea || (pin e && decide (2 ^ 21 * count (ways e) < e.1.2))))) with
      | some a, some b => some (min a b) | some a, none => some a | none, b => b),
   (0x0504, fun x => worst ((List.range 12).flatMap (fun c =>
      let b := x.sec 4; let o := 16 + 16 * c
      let mine := x.shares.filter (fun e => e.2.1.ch == c)
      let sum := mine.foldl (fun n e => n + e.2.1.share) (iLe b o 1)
      let lim := if nbits (iLe b (o + 10) 1) 2 1 = 1 then 224 else 256
      [(x.off 4, decide (lim < sum))])))]

/-! Group 06: streams. -/

/-- The descriptors of an engine section: stream, transmit, descriptor, offset. -/
def descsIn (s : Sect) : List (Nat × Bool × List Byte × Nat) :=
  let b := s.body; let base := 96 + 24 * (iLe b 2 2 + iLe b 4 2)
  (entries base 72 (iLe b 6 2 + iLe b 8 2)).map (fun o => (iLe b o 2, iLe b (o + 2) 1 == 1, (b.drop (o + 8)).take 64, s.off + 8 + o))
/-- Map entry `i` of a section, zero where none is listed. -/
def mapEntry (s : Sect) (tx : Bool) (i : Nat) : Nat :=
  match (engineMap s.body).find? (fun e => e.1 == tx && e.2.1 == i) with | some e => e.2.2 | none => 0
/-- The map entries of a section: transmit, index, entry, offset. -/
def mapsIn (s : Sect) : List (Bool × Nat × Nat × Nat) :=
  let b := s.body; let base := 96 + 24 * (iLe b 2 2 + iLe b 4 2) + 72 * (iLe b 6 2 + iLe b 8 2)
  (entries base 8 (iLe b 10 4)).map (fun o => (iLe b o 2 / 2 ^ 14 % 2 == 1, iLe b o 2 % 2 ^ 14, iLe b (o + 4) 4, s.off + 8 + o))
/-- Enabled map entries of a descriptor. -/
def descMap (s : Sect) (tx : Bool) (ds : List Byte) : List Nat :=
  ((List.range (dChans ds)).map (fun i => mapEntry s tx (dFirst ds + i))).filter mEn
/-- The buffer attributes that an entry names, 0 where the plan has no such buffer. -/
def Img.mapBuf (x : Img) (s : Sect) (e : Nat) : Option Nat := (x.buf s (mBuf e)).map (·.2)
/-- Cadence of a stream: that of its first enabled entry. -/
def Img.streamCad (x : Img) (s : Sect) (tx : Bool) (ds : List Byte) : Nat :=
  match (descMap s tx ds).findSome? (fun e => x.mapBuf s e) with | some a => nbits a 2 4 | none => 0

/-- Whether a receive stream needs no LO above 3 (R440, R470), in samples × 10^9: 3 × T against the packet, LAT and 10 µs. -/
def Img.loOk (x : Img) (s : Sect) (ds : List Byte) : Bool :=
  match (descMap s false ds).findSome? (fun e => x.mapBuf s e) with
  | none => true
  | some a =>
    let c := nbits a 2 4; let fs := x.cadFs c; let n := x.cadN c; let ps := dPs ds fs
    let aligned := nbits (dLe ds 0 1) 6 1 == 1 && n % ps == 0 && nbits (x.cad c) 32 8 % ps == 0
    let lat := (dLe ds 56 4 + 10000) * fs + (if aligned then 0 else (ps - 1) * 1000000000)
    decide (lat ≤ 3 * n * 1000000000)

def Img.v0601 (x : Img) : Option Nat :=
  worst (x.engines.flatMap (fun s =>
    let ds := (descsIn s).filter (fun e => dEn e.2.2.1)
    let units (tx : Bool) : Nat := (ds.filter (fun e => e.2.1 == tx)).foldl (fun n e =>
      n + dChans e.2.2.1 * (x.cadFs (x.streamCad s tx e.2.2.1) / 48000)) 0
    (s.off, decide (16384 < units false) || decide (16384 < units true)) :: ds.map (fun e =>
      let d := e.2.2.1; let c := x.streamCad s e.2.1 d; let fs := x.cadFs c
      (e.2.2.2, decide (64 < dChans d) || decide (1440 < dChans d * dPs d fs * dWidth d) ||
        (if e.2.1 then decide (x.cadN c < dPs d fs) else !x.loOk s d)))))

/-- Rule 0x0602: every enabled map entry names an enabled buffer of its own direction, and no two receive entries one channel of a
buffer; the entries of one stream agree (R444). -/
def Img.v0602 (x : Img) : Option Nat :=
  worst (x.engines.flatMap (fun s =>
    let ds := (descsIn s).filter (fun e => dEn e.2.2.1)
    let on := (mapsIn s).filter (fun m => mEn m.2.2.1)
    let rx := on.filter (fun m => !m.1)
    (mapsIn s).map (fun m => (m.2.2.2, decide (nbits m.2.2.1 20 11 ≠ 0))) ++
    on.map (fun m => (m.2.2.2, match x.mapBuf s m.2.2.1 with
      | none => true | some v => nbits v 0 1 != m.1.toNat)) ++
    rx.zipIdx.map (fun a => (a.1.2.2.2, rx.zipIdx.any (fun b => a.2 != b.2 && a.1.2.2.1 % 2 ^ 20 == b.1.2.2.1 % 2 ^ 20))) ++
    ds.map (fun e =>
      let es := descMap s e.2.1 e.2.2.1
      let at' := es.map (fun m => x.mapBuf s m)
      let cads := at'.map (fun a => (a.getD 0) / 4 % 16); let los := at'.map (fun a => nbits (a.getD 0) 6 2)
      (e.2.2.2, !cads.all (fun c => c == cads.headD 0) || (!e.2.1 && !los.all (fun c => c == los.headD 0)) ||
        (e.2.1 && es.isEmpty) || decide (16384 < dFirst e.2.2.1 + dChans e.2.2.1)))))

/-- Bytes per second that an engine moves for a buffer: one pass of a slot for an input buffer; for an output buffer two
reads and one write of history. The spec gives no figure (DESIGN CHOICE). -/
def Img.bufTraffic (x : Img) (a : Nat) : Nat :=
  (if nbits a 0 1 = 1 then 3 else 1) * (nbits a 8 10 + 1) * 64 * x.cadFs (nbits a 2 4)

/-- Rule 0x0605: the real-time traffic of each channel against RT_SHARE. -/
def Img.v0605 (x : Img) : Option Nat :=
  let flows := x.engines.flatMap (fun s => (x.bufs s).flatMap (fun e =>
    match x.ranges.find? (fun r => inside e.2.1 (r.1, r.2.1)) with
    | none => []
    | some r => let cs := attrChans r.2.2.1
      (rangeChans r.2.2.1).map (fun c => (c, x.bufTraffic e.2.2.1 / max 1 cs.length, e.2.2.2))))
  worst ((List.range 12).flatMap (fun c =>
    let mine := flows.filter (fun f => f.1 == c)
    let sum := mine.foldl (fun n f => n + f.2.1) 0
    let rate := [4800, 5600, 6400, 7200, 8000].getD (x.d.fld (mcUid c) 0x4000 0 3) 4800 * 8000000
    let share := iLe (x.sec 4) (16 + 16 * c) 1
    mine.map (fun f => (min f.2.2 (x.off 4), decide (share * rate < 256 * sum)))))

/-- Rule 0x0606 (R481): a map entry or an output slot that names BUF_B or BUF_C fails with its group. -/
def Img.v0606 (x : Img) : Option Nat :=
  worst (x.engines.flatMap (fun s =>
    let gs := groupsIn s
    let used (g : Nat × Nat × Nat × Nat) : List Nat := (List.range (nbits g.2.1 1 2 + 1)).map (grpBuf g.2.1)
    let all := gs.flatMap used
    let slots := ((x.tdms).filter (fun t => iLe t.body 0 1 == iLe s.body 0 1)).flatMap (fun t =>
      (entries 8 264 4).flatMap (fun o => ((entries (o + 8) 8 32).map (fun q => iLe t.body q 8)).filter (fun v => v % 4 == 3)))
    let named := ((mapsIn s).filter (fun m => mEn m.2.2.1)).map (fun m => mBuf m.2.2.1) ++ slots.map (fun v => nbits v 16 6)
    gs.map (fun g =>
      let as := (used g).map (fun n => (x.buf s n).map (·.2))
      let key (a : Option Nat) : Nat := match a with | some v => v % 2 ^ 6 + 2 ^ 6 * nbits v 8 10 | none => 0
      (g.2.2.2, as.any (fun a => match a with | none => true | some v => nbits v 0 1 == 0) ||
        !as.all (fun a => key a == key (as.headD none)) || (used g).any (fun n => decide (1 < all.count n)) ||
        meets ((used g).drop 1) named)) ++
    (x.bufs s).map (fun e => (e.2.2.2, nbits e.2.2.1 0 1 == 1 && !all.contains e.1))))

/-- Rule 0x0607 (R460, R466). DEDUCED, log entry 41. -/
def Img.v0607 (x : Img) : Option Nat :=
  let engine (g : Nat) : Option Sect := x.engines.find? (fun s => iLe s.body 0 1 == g)
  let slots (t : Sect) : List Nat := (entries 8 264 4).flatMap (fun o =>
    ((entries (o + 8) 8 32).map (fun q => iLe t.body q 8)).filter (fun v => v % 2 == 1))
  let attr (t : Sect) (v : Nat) : Option Nat := (engine (iLe t.body 0 1)).bind (fun s => (x.buf s (nbits v 16 6)).map (·.2))
  let enabled (c : Nat) : Bool := x.cad c % 2 == 1
  worst (x.tdms.map (fun t =>
      (t.off, (slots t).any (fun v => match attr t v with
          | none => true | some a => nbits a 0 1 != nbits v 1 1 || decide (16 * (nbits a 8 10 + 1) ≤ nbits v 2 14)) ||
        !decide (((slots t).filter (fun v => nbits v 1 1 == 0)).map (fun v => nbits v 2 20)).Nodup ||
        (entries 8 264 4).any (fun o => let v := iLe t.body o 8
          v % 2 == 1 && (!enabled (nbits v 11 4) || x.cadFs (nbits v 11 4) == 96000)))) ++
    x.engines.flatMap (fun s => (descsIn s).map (fun e => (e.2.2.2, dEn e.2.2.1 && !enabled (x.streamCad s e.2.1 e.2.2.1)))))

/-- Trelub links of the lane plan: MODE 0b110. -/
def Img.trelubLink (x : Img) (l : Nat) : Bool := let b := x.sec 9
  decide (l < 40) && nbits (iLe b (16 + 8 * (l / 4)) 8) 0 3 == 6
/-- The route of a device in the lane plan. -/
def Img.route (x : Img) (dev : Nat) : Option Nat :=
  let b := x.sec 9
  ((entries 464 16 (iLe b 0 2)).find? (fun o => iLe b o 2 == dev && iLe b (o + 8) 1 % 2 == 1)).map (fun o => iLe b (o + 8) 8)

/-- Rule 0x0608 (R507). Times in ns; the Mirror rate is 34 Gb/s for each lane of the route's own link. -/
def Img.v0608 (x : Img) : Option Nat :=
  let bound := 10 * nbits (iLe (x.sec 0xF) 0 8) 0 12
  let tdmFed (s : Sect) : List Nat := ((x.tdms).filter (fun t => iLe t.body 0 1 == iLe s.body 0 1)).flatMap (fun t =>
    (entries 8 264 4).flatMap (fun o => ((entries (o + 8) 8 32).map (fun q => iLe t.body q 8)).filterMap (fun v =>
      if v % 4 == 1 then some (nbits v 16 6) else none)))
  worst (x.engines.flatMap (fun s =>
    let b := s.body; let on := nbits (iLe b 32 8) 12 1 == 1; let twins := (groupsIn s).filter (fun g => nbits g.2.1 33 1 == 1)
    let rt := x.route (iLe b 32 8 % 4096)
    let lanes := match rt with
      | some v => [1, 2, 4].getD (nbits (iLe (x.sec 9) (16 + 8 * (nbits v 1 6 / 4)) 8) 3 2) 4
      | none => 1
    let slot := ((x.bufs s).filter (fun e => nbits (iLe b 40 8) e.1 1 == 1)).foldl (fun m e =>
      max m (e.2.1.2 / (if nbits e.2.2.1 1 1 = 1 then 8 else 4))) 0
    let lead := nbits (iLe b 24 8) 0 8
    let parts := twins.map (fun g => nbits g.2.1 24 8)
    let reads (p : Nat) (n : Nat) : Bool := match x.buf s n with
      | some (sp, _) => x.winAts.any (fun w => w.part == p && overlap w.span sp)
      | none => false
    (s.off, on && ((match rt with | none => true | some v => !x.trelubLink (nbits v 1 6) || bound == 0) ||
        decide (500 * lead < bound + 4000) || parts.any (fun p => (tdmFed s).any (reads p)))) ::
    twins.map (fun g =>
      let c := match x.buf s (grpBuf g.2.1 0) with | some (_, a) => nbits a 2 4 | none => 0
      (g.2.2.2, nbits g.2.1 1 2 == 0 || decide (1000 * nbits (x.cad c) 16 8 < 6000 + bound + (slot * 8 + 34 * lanes - 1) / (34 * lanes))))))

/-- Rule 0x0609 (R502), in units that keep it exact: LEAD is the largest of the engines that hold a buffer of the record's
partition. -/
def Img.v0609 (x : Img) : Option Nat :=
  let u := iLe (x.sec 0xE) 0 1
  worst (x.recs.map (fun sr =>
    let r := sr.2
    let lead := (x.engines.filter (fun s => (groupsIn s).any (fun g => nbits g.2.1 24 8 == r.part))).foldl (fun m s =>
      max m (nbits (iLe s.body 24 8) 0 8)) 0
    (sr.1.off, r.tier != 0 && r.cads.any (fun c =>
      let fs : Int := x.cadFs c.1; let n : Int := x.cadN c.1; let guard : Int := nbits (x.cad c.1) 16 8
      -- (2 - U) T - LEAD - GUARD >= budget / 64 GB/s + 20 us, times 64,000 x 100 x fs ns.
      decide ((200 - (u : Int)) * n * 1000000 * 64000 - (lead + guard + 20) * 100 * fs * 64000 < (r.rejoin : Int) * 1024 * 100 * fs)))))

def rules06 : List (Nat × (Img → Option Nat)) :=
  [(0x0601, Img.v0601), (0x0602, Img.v0602),
   (0x0603, fun x => worst (x.engines.flatMap (fun s => (x.bufs s).map (fun e =>
      (e.2.2.2, !x.xrs.any (fun r => inside e.2.1 r.1 && nbits r.2.1 6 1 == iLe s.body 0 1 / 2)))))),
   (0x0604, fun x => worst (x.engines.flatMap (fun s => (x.bufs s).map (fun e =>
      (e.2.2.2, nbits e.2.2.1 0 2 == 0 && x.wins.any (fun w => w.1.tier != 0 && w.2.1.rights % 2 == 1 &&
        w.1.ixs.any (fun ix => overlap (w.2.1.span ix) e.2.1))))))),
   (0x0605, Img.v0605), (0x0606, Img.v0606), (0x0607, Img.v0607), (0x0608, Img.v0608), (0x0609, Img.v0609)]

/-! Groups 07, 08 and 09. -/

def rules07 : List (Nat × (Img → Option Nat)) :=
  [(0x0701, fun x => let b := x.sec 0xC
      pairBad (entries 0 4 (b.length / 4)) (fun o => x.off 0xC + 8 + o) (fun o q => iLe b o 2 == iLe b q 2 &&
        unitKind (iLe b o 2) == some .quad && iLe b (o + 2) 1 != iLe b (q + 2) 1)),
   (0x0702, fun x => if 400 < nbits (iLe (x.sec 0xF) 0 8) 24 12 then some (x.off 0xF) else none),
   (0x0703, fun x =>
      let b := x.sec 9; let own := iLe (x.sec 1) 0 2
      if b = [] then none else
      worst ((x.off 9, (List.range 40).any (fun l => let v := iLe b (96 + 8 * l) 8
          v != 0 && (!x.trelubLink l || nbits v 16 12 == own)) ||
          (iLe (x.sec 1) 4 1 == 3 && !x.trelubLink (iLe b 4 1))) ::
        (entries 464 16 (iLe b 0 2)).map (fun o => let v := iLe b (o + 8) 8
          (x.off 9 + 8 + o, v % 2 == 1 && (!x.trelubLink (nbits v 1 6) ||
            (nbits v 7 6 != 63 && !x.trelubLink (nbits v 7 6))))))),
   (0x0704, fun x =>
      let b := x.sec 9; let nrt := iLe b 0 2; let nrem := iLe b 2 1
      let span (o : Nat) : Nat × Nat := let v := iLe b (o + 8) 8; (nbits v 8 27 * 2 ^ 21, 2 ^ nbits v 1 6)
      let on (o : Nat) : Bool := iLe b (o + 8) 1 % 2 == 1
      let pair (os : List Nat) : Option Nat := pairBad (os.filter on) (fun o => x.off 9 + 8 + o) (fun o q => overlap (span o) (span q))
      match pair (entries (464 + 16 * nrt) 16 nrem), pair (entries (464 + 16 * (nrt + nrem)) 16 (iLe b 3 1)) with
      | some a, some c => some (min a c) | some a, none => some a | none, c => c)]

def rules08 : List (Nat × (Img → Option Nat)) :=
  let has (x : Img) (p : Nat) : Bool := x.recs.any (fun sr => sr.2.part == p)
  [(0x0801, fun x =>
      let b := x.sec 0xA; let es := entries 0 8 (b.length / 8)
      let src (o : Nat) : Nat := iLe b o 8 % 4096
      let tgt (o : Nat) : Nat := nbits (iLe b o 8) 20 2
      let part (o : Nat) : Nat := nbits (iLe b o 8) 24 8
      let bad (o : Nat) : Bool := decide (tgt o ≤ 1) && ((decide (0xA00 ≤ src o) && decide (src o < 0xC00)) ||
        x.recs.any (fun sr => sr.2.part == part o && sr.2.tier != 0) || es.any (fun q => q != o && src q == src o && part q != part o))
      worst (es.map (fun o => (x.off 0xA + 8 + o, bad o)))),
   (0x0802, fun x =>
      let b := x.sec 0xB; let np := iLe b 0 2
      worst ((entries (8 + 16 * np) 16 (iLe b 2 1)).map (fun o => let v := iLe b (o + 8) 8
        (x.off 0xB + 8 + o, v % 2 == 1 && (!has x (nbits v 1 8) || decide (259 < nbits v 25 9)))))),
   (0x0803, fun x =>
      let b := x.sec 0xC
      worst ((entries 0 4 (b.length / 4)).map (fun o =>
        let u := iLe b o 2; let m := iLe b (o + 3) 1
        let ok := match unitKind u with
          | some .quad | some .pcie | some .se | some .tdm | some .mgt => m == 1 || m == 2
          | some .mc | some .dieCtl | some .hubCtl => m == 2
          | _ => false
        (x.off 0xC + 8 + o, !ok || (m == 1 && !has x (iLe b (o + 2) 1)))))),
   (0x0804, fun x =>
      let b := x.sec 0xD
      worst (x.recs.map (fun sr => (sr.1.off, decide (sr.2.debug % 4 ≠ 0) &&
        !(entries 0 64 (b.length / 64)).any (fun o => iLe b o 1 == sr.2.debug / 8 % 8)))))]

/-- P_req of a region from the image alone (R63, R64). -/
def Img.regionReq (x : Img) (g : Nat) : Nat :=
  let u := iLe (x.sec 0xE) 0 1
  x.cores.foldl (fun m e =>
    let den := x.cadN e.2.1.wCad * 1000000 * u
    if e.2.1.wDecl && e.2.1.named.any (fun p => p.1 / 36 == g) && den != 0 then
      max m ((e.2.1.w * x.cadFs e.2.1.wCad * 100 + den - 1) / den) else m) 0

def rules09 : List (Nat × (Img → Option Nat)) :=
  let at' (x : Img) (g : Nat) : Nat :=
    (x.recs.filter (fun sr => sr.2.cores.any (fun e => e.wDecl && e.named.any (fun p => p.1 / 36 == g)))).foldl (fun m sr =>
      min m sr.1.off) (x.off 0xE)
  [(0x0901, fun x => worst ((List.range 8).map (fun g => (min (at' x g) (x.off 5), decide (3500 < x.regionReq g))))),
   (0x0902, fun x => worst ((List.range 8).map (fun g => (min (at' x g) (x.off 5),
      decide (fallbackMv (x.regionReq g) < iLe (x.sec 0xE) (8 + 8 * g + 4) 2)))))]

/-- The structural rules in the order of Table 13-12. DEDUCED and DESIGN CHOICE, log entry 69. -/
def structRules : List (Nat × (Img → Option Nat)) :=
  rules01 ++ rules03 ++ rules04 ++ rules05 ++ rules06 ++ rules07 ++ rules08 ++ rules09

/-- The first structural rule that an image breaks, with its offset (R588). DEDUCED and DESIGN CHOICE, log entry 69. -/
def Dev.structCheck (d : Dev) (img : List Byte) (slot : Nat) : Option (Nat × Nat) :=
  let x : Img := ⟨d, img, imageSects img, slot, imageRoles img⟩
  structRules.findSome? (fun r => (r.2 x).map (fun o => (r.1, o)))

/-- A partition record as its section's payload (Tables 13-7 and 13-8). -/
def encodeRec (r : PartRec) : List Byte :=
  let core (e : CoreEnt) : List Byte :=
    natLe 1 e.lcore ++ natLe 1 (e.dmode.toNat + 2 * e.late.toNat + 4 * e.wDecl.toNat) ++
    (List.range 3).flatMap (fun i => natLe 2 (e.phys.getD i 0xFFFF)) ++ natLe 8 e.vector ++ natLe 1 e.wCad ++ natLe 2 e.cmask ++
    [0] ++ natLe 4 e.w ++ (List.range 3).flatMap (fun i => natLe 2 (e.masks.getD i 0)) ++ [0, 0]
  let win (w : WinEnt) : List Byte :=
    (List.range 3).flatMap (fun i => natLe 8 (w.bases.getD i 0)) ++ natLe 1 w.size ++ natLe 1 w.rights ++ natLe 1 w.types ++
    natLe 1 w.deft ++ natLe 1 w.index ++ natLe 1 w.shared.toNat ++ [0, 0]
  natLe 1 r.part ++ natLe 1 r.tier ++ natLe 2 r.cores.length ++ natLe 1 r.cads.length ++ natLe 1 r.wins.length ++
    natLe 1 r.slices.length ++ natLe 1 r.shares.length ++ natLe 1 r.flags ++ natLe 1 r.debug ++ natLe 1 r.mcad ++ [0] ++
    natLe 4 r.rejoin ++ List.replicate 48 0 ++ r.cads.flatMap (fun c => natLe 1 c.1 ++ [0] ++ natLe 6 c.2) ++
    r.cores.flatMap core ++ r.wins.flatMap win ++ r.slices.flatMap (fun s => natLe 2 s.uid ++ natLe 2 (s.ways + 2 ^ 12 * s.rep)) ++
    r.shares.flatMap (fun s => natLe 1 s.ch ++ natLe 1 s.rep ++ natLe 1 s.share ++ natLe 1 s.qmax)

/-- The first rule that the structure in force would break with other partition records (R616), 0 when it breaks none. -/
def Dev.resultCheck (d : Dev) (recs : List PartRec) : Nat :=
  let put (s : Sect) : Sect := match recs.find? (fun r => s.ty == 6 && r.part == iLe s.body 0 1) with
    | some r => { s with body := encodeRec r }
    | none => s
  let ss := (imageSects d.kp.image).map put
  let x : Img := ⟨d, d.kp.image, ss, 2 ^ 24, (List.range 72).map (fun k => d.role (l2Uid k))⟩
  let own : Img → Option Nat := fun x => worst ((sectsOf x.ss 6).flatMap (fun s => (s.off, !lenOk s) :: chkRecord s))
  (((0x010D, own) :: (rules03 ++ rules04 ++ rules05 ++ rules06 ++ rules07 ++ rules08 ++ rules09)).findSome? (fun r =>
    (r.2 x).map (fun _ => r.1))).getD 0

/-- The rules of group 02 (R572, R573, R589): key, revocation, signature, rollback. A slot that holds no hash matches none;
while `defer` holds, the key rules are left to first use (R675). -/
def Dev.trustCheck (d : Dev) (img : List Byte) (defer : Bool) : Bool × Bool × Bool × Bool :=
  let n := iLe img 8 4; let sig := (img.drop (n - 256)).take 256
  let slot := iLe sig 4 1; let key := (sig.drop 8).take 96
  let hash := Config.sha384 key
  let keyBad := decide (3 < slot) || (!defer && SMap.get (fun _ => 0) d.nv.keyHash slot != hash + 1)
  (keyBad, !keyBad && !defer && d.flag bootUid 0x4010 (4 + slot),
   !Config.ecdsaVerify key (Config.sha384 (img.take (n - 256))) ((sig.drop 104).take 96),
   decide (iLe img 16 8 < d.nv.seq))

end Sys2Proof.Machine
end

