-- ==== Sys2Proof/Machine/Boot.lean ====
section
/-!
DEFINITION. Boot, measurement and trust (R661-R693), and the loading of an image (R587-R593).
-/
namespace Sys2Proof.Machine

/-! Measurements (R691). -/

/-- The 48 bytes of MEAS_n. -/
def Dev.measBytes (d : Dev) (n : Nat) : List Byte :=
  (List.range 6).flatMap (fun i => natLe 8 (d.reg bootUid (0x4400 + 64 * n + 8 * i)).toNat)

/-- SHA-384 as 48 bytes. -/
def shaBytes (bs : List Byte) : List Byte := natBe 48 (Config.sha384 bs)

/-- Extend MEAS_n by a digest. DEDUCED, log entry 86. -/
def Dev.extend (d : Dev) (n : Nat) (digest : List Byte) : Dev :=
  let h := shaBytes (d.measBytes n ++ digest)
  forUpto 6 (fun i d => d.setReg bootUid (0x4400 + 64 * n + 8 * i) (BitVec.ofNat 64 (leNat ((h.drop (8 * i)).take 8)))) d

/-- Extend a register with an event: code, value, directory entry. DEDUCED, log entry 86. -/
def Dev.measEvent (d : Dev) (n code value entry : Nat) : Dev :=
  d.extend n (shaBytes (natLe 1 code ++ natLe 1 value ++ natLe 2 entry ++ List.replicate 12 0))

/-! Failures (R673, R678, R680). -/

/-- A field of BOOT_STATUS. -/
def Dev.stage (d : Dev) : Nat := d.fld bootUid 0x4000 0 3
/-- Whether slot B is in force. -/
def Dev.slotB (d : Dev) : Bool := d.flag bootUid 0x4000 3
/-- Record a failing object. -/
def Dev.failObj (d : Dev) (entry code : Nat) : Dev := (d.setFld bootUid 0x4000 16 8 entry).setFld bootUid 0x4000 24 8 code

/-- Post a notice to every partition of the image. The spec gives a notice no layout: its 64 bytes are free. -/
def Dev.noticeAll (d : Dev) (ps : List Nat) : Dev :=
  forAll ps (fun p d => let (x, d1) := d.draw; d1.postNotice p (natLe 64 x)) d

/-- A failed trust check (R678): the chain goes on, degraded. -/
def Dev.trustFail (d : Dev) (entry code : Nat) : Dev :=
  let d1 := ((d.failObj entry code).setFlag bootUid 0x4000 8 true).setFlag bootUid 0x4000 9 true
  let d2 := (d1.measEvent 6 2 code entry).raise bootUid (Rec.plain 0x0804 2 (entry + 2 ^ 8 * code))
  d2.noticeAll (d2.kp.recs.map (·.part))

/-- A structural failure (R680): slot A gives way to slot B by a warm reset; in slot B, B0 stops on a bad B1 or keeper
firmware, and otherwise no partition is released. `core_` says that the object is one of those two, or the directory. -/
def Dev.structFail (d : Dev) (entry code : Nat) (core_ : Bool) : Dev :=
  let d1 := d.failObj entry code
  if d1.slotB = false then (d1.setFlag bootUid 0x4008 2 true).warmReset 4
  else if core_ then d1.setFld bootUid 0x4000 0 3 5
  else { d1.raise bootUid (Rec.plain 0x0801 4 entry) with bt := { d1.bt with noRelease := true } }

/-! The directory and the objects (R669-R674). -/

/-- Entry `e` of the directory in force. -/
def Dev.dirEntry (d : Dev) (e : Nat) : List Byte := (d.bt.dir.drop (64 + 32 * e)).take 32

/-- Whether a directory keeps to R669 and R670. -/
def dirOk (b : List Byte) : Bool :=
  let n := iLe b 6 2
  let es := (entries 64 32 n)
  let ty (o : Nat) : Nat := iLe b o 1
  let count (t : Nat) : Nat := (es.filter (fun o => ty o == t)).length
  b.length == 2048 && iLe b 0 4 == 0x4C535843 && iLe b 4 2 == 0x0100 && decide (1 ≤ n) && decide (n ≤ 62) && zeros b 8 52 &&
    crc32c (b.take 60) == iLe b 60 4 &&
    es.all (fun o => decide (1 ≤ ty o) && decide (ty o ≤ 9) && zeros b (o + 1) 1 && (ty o == 5 || iLe b (o + 2) 2 == 0) &&
      decide (iLe b (o + 2) 2 ≤ 255) && iLe b (o + 4) 4 % 4096 == 0 && decide (4096 ≤ iLe b (o + 4) 4) && zeros b (o + 12) 16 &&
      crc32c ((b.drop o).take 28) == iLe b (o + 28) 4) &&
    [1, 2, 3, 4, 8, 9].all (fun t => count t == 1) &&
    decide ((es.filter (fun o => ty o == 5)).map (fun o => iLe b (o + 2) 2)).Nodup

/-- Whether an object keeps to Table 16-4 for its entry. A revocation record for a vendor key is vendor-signed (R676). -/
def objOk (ent b : List Byte) : Bool :=
  let ty := iLe ent 0 1; let n := iLe ent 8 4; let signer := iLe b 7 1
  let five := ty == 5
  decide (384 ≤ n) && decide (b.length = n) && iLe b 0 4 == 0x424F5843 && iLe b 4 2 == 0x0100 && iLe b 6 1 == ty &&
    (if ty ≤ 2 then signer == 0 else if ty = 7 ∧ iLe b 129 1 = 1 then signer == 0 else signer == 1) &&
    iLe b 8 4 == n && iLe b 12 4 + 384 == n && iLe b 16 2 == 0x0288 &&
    (if five then iLe b 18 2 == iLe ent 2 2 && decide (iLe b 20 1 ≤ 1) && (if iLe b 20 1 = 0 then decide (iLe b 21 1 ≤ 15) else iLe b 21 1 == 0)
     else zeros b 18 4 && zeros b 24 8) && zeros b 22 2 && zeros b 40 84 && crc32c (b.take 124) == iLe b 124 4

/-- The window of a record by its index. -/
def PartRec.winAt (r : PartRec) (i : Nat) : Option WinEnt := r.wins.find? (fun w => w.index == i)

/-- Whether a loader fits its target (R673): a private window with the W right, or the local store. -/
def Dev.loaderFits (d : Dev) (b : List Byte) : Bool :=
  let dest := iLe b 24 8; let n := iLe b 12 4
  match d.recOf (iLe b 18 2) with
  | none => false
  | some r =>
    if iLe b 20 1 = 1 then decide (dest + n ≤ 131072)
    else match r.winAt (iLe b 21 1) with
    | some w => !w.shared && w.rights / 2 % 2 == 1 && decide (dest + n ≤ 2 ^ w.size)
    | none => false

/-- PROG, REVOKED and VREV of FUSE_KEYS. -/
def Dev.fuseProg (d : Dev) : Nat := d.fld bootUid 0x4010 0 4
def Dev.fuseRevoked (d : Dev) (slot : Nat) : Bool := d.flag bootUid 0x4010 (4 + slot)

/-- The key check of R674 on a signature block: 0 passed, 5 hash mismatch, 6 revoked. -/
def Dev.keyCheck (d : Dev) (vendor : Bool) (sig : List Byte) : Nat :=
  let k := iLe sig 4 1; let h := Config.sha384 ((sig.drop 8).take 96)
  if vendor then
    if 1 < k ∨ h ≠ Config.sha384 (Config.vendorKey k) then 5 else if d.flag bootUid 0x4010 (8 + k) then 6 else 0
  else if 3 < k ∨ SMap.get (fun _ => 0) d.nv.keyHash k ≠ h + 1 then 5 else if d.fuseRevoked k then 6 else 0

/-- Signature block and message of an object of a given length. -/
def objSig (b : List Byte) : List Byte := (b.drop (b.length - 256)).take 256
/-- Whether the signature of an object verifies under the key that it carries (R572). -/
def sigOk (b : List Byte) : Bool :=
  let sig := objSig b
  Config.ecdsaVerify ((sig.drop 8).take 96) (Config.sha384 (b.take (b.length - 256))) ((sig.drop 104).take 96)

/-- Trust check of an object (R673, R674): 0 passed, else OBJ_CODE; a deferred key check (R675) counts as neither. -/
def Dev.objTrust (d : Dev) (b : List Byte) (defer : Bool) : Nat :=
  let k := if defer then 0 else d.keyCheck (iLe b 7 1 == 0) (objSig b)
  if k ≠ 0 then k else if sigOk b then 0 else 7

/-! B0 (R661, R681-R686). -/

/-- Why slot B is chosen (R681): 0 for slot A. -/
def Dev.whyB (d : Dev) (golden button : Bool) : Nat :=
  if golden then 1 else if button then 2 else if d.fld hbUid 0x9020 0 4 = 9 then 3
  else if d.fld bootUid 0x4008 0 2 = 3 then 4 else if d.flag bootUid 0x4008 2 then 5 else 0

/-- B0_START (R661, R681): the straps are latched, the slot is chosen, pad group 8 is released, the sentinel starts, and the
directory of the slot is read; `none`: the flash returned no data. `golden`, `bench`, `button`: the input is low.
DEDUCED, log entry 70. -/
def Dev.b0Start (d : Dev) (golden bench button : Bool) (dir : Option (List Byte)) : Dev :=
  if d.pw.good = false ∨ d.stage ≠ 0 ∨ d.bt.dir ≠ [] ∨ d.pw.deep ≠ .run then d
  else
    let bn := if d.bt.strapped then d.bt.bench else bench
    let why := d.whyB golden button
    let d0 := { d with bt := { d.bt with golden := golden, bench := bn, button := button, strapped := true, staging := true, digest := none },
                       sv := { d.sv with sentAt := d.dt, sentMs := 10000 } }
    let d1 := (d0.setReg hbUid 0xA000 10000).padRelease (2 ^ 8)
    let d2 := (((d1.setFlag bootUid 0x4000 3 (why != 0)).setFld bootUid 0x4000 4 3 why).setFlag bootUid 0x4000 10 bn).setFlag
      bootUid 0x4008 3 false
    let d3 := if why = 5 then d2.setFlag bootUid 0x4008 2 false else d2
    let rom := shaBytes ((List.range 262144).map Config.romByte)
    let d4 := (d3.extend 0 rom).extend 0 (shaBytes (natLe 8 (d3.reg bootUid 0x4010).toNat ++ natLe 8 (d3.reg bootUid 0x4008).toNat))
    let d5 := if why ≠ 0 then d4.measEvent 6 1 why 0xFF else d4
    let d6 := if bn then (d5.measEvent 7 1 0 0xFF).setFlag bootUid 0x4000 9 true else d5
    let d7 := if bn then d6.writeGrants else d6
    match dir with
    | none => d7.structFail 0xFF 4 true
    | some b => if dirOk b then { d7 with bt := { d7.bt with dir := b } } else d7.structFail 0xFF 1 true

def execB0Start (golden bench button : Bool) (dir : Option (List Byte)) (s : State) : Host.Outcome State Fault Refusal :=
  onDev (fun d => d.b0Start golden bench button dir) s

/-- The stage that copies a type of object: B0, B1, or the keeper firmware. -/
def stageOf (ty : Nat) : Nat → Bool := fun st =>
  match ty with | 1 | 4 => st == 0 | 2 => st == 1 | 3 => st == 2 | _ => decide (2 ≤ st) && decide (st ≤ 4)

/-- COPY_ENGINE_DONE (R662, R673, R678): the object of a directory entry has been copied and hashed, or the flash returned
no data, and is checked and measured. -/
def Dev.copyDone (d : Dev) (e : Nat) (bytes : Option (List Byte)) : Dev :=
  let ent := d.dirEntry e; let ty := iLe ent 0 1
  if d.bt.dir = [] ∨ iLe d.bt.dir 6 2 ≤ e ∨ 7 < ty ∨ stageOf ty d.stage = false then d
  else match bytes with
  | none => d.structFail e 4 (decide (ty ≤ 2))
  | some b =>
    let put (d : Dev) : Dev := { d with bt := { d.bt with objs := d.bt.objs.filter (fun x => x.1 != e) ++ [(e, b)] } }
    if ty = 3 then (if b.length = iLe ent 8 4 then (put d).extend 3 (shaBytes b) else d.structFail e 2 false)
    else if objOk ent b = false ∨ (ty = 2 ∧ 6 * 65536 < iLe b 12 4) then d.structFail e 2 (decide (ty ≤ 2))
    else if ty = 5 ∧ d.loaderFits b = false then d.structFail e 3 false
    else
      let defer := ty == 4 && d.fuseProg == 0
      let code := d.objTrust b defer
      let d1 := put d
      let d2 := if ty ≤ 2 then d1.extend ty (shaBytes b) else d1
      let d3 := if defer then { d2 with bt := { d2.bt with deferred := e :: d2.bt.deferred } } else d2
      if code = 0 then d3 else d3.trustFail e code

def execCopyEngineDone (e : Fin 62) (bytes : Option (List Byte)) (s : State) : Host.Outcome State Fault Refusal :=
  onDev (fun d => d.copyDone e bytes) s

/-- The copied object of a type, with its entry; for a loader, of a partition. -/
def Dev.objOf (d : Dev) (ty part : Nat) : Option (Nat × List Byte) :=
  d.bt.objs.find? (fun x => let ent := d.dirEntry x.1; iLe ent 0 1 == ty && iLe ent 2 2 == part)

/-- Set the permissions of the keeper SRAM sections for the next stage's code and lock them all (R667). Bits: 1 R, 2 W,
4 X, 8 lock. -/
def Dev.lockSections (d : Dev) (code : Nat → Bool) : Dev :=
  let m := (List.range 16).foldl (fun m k => SMap.set (fun _ => 0) m k (if code (k % 8) then 13 else 11)) d.bt.sections
  { d with bt := { d.bt with sections := m } }

/-- STAGE_HANDOVER (R667, R668, R645): B0 hands over to B1, or B1 to the keeper firmware, once the next stage's object has
been copied and checked. B1 raises the VDD_CORE rails and releases pad group 9 before it hands over.
DEDUCED, log entry 70. -/
def Dev.handover (d : Dev) : Dev :=
  match d.stage with
  | 0 => match d.objOf 1 0 with
    | some _ =>
      let d1 := (d.lockSections (fun k => k == 0)).setFld bootUid 0x4000 0 3 1
      { d1 with bt := { d1.bt with romOff := true } }
    | none => d
  | 1 => match d.objOf 2 0 with
    | some (_, b) =>
      let n := (iLe b 12 4 + 65535) / 65536
      let d1 := ((d.lockSections (fun k => decide (1 ≤ k) && decide (k ≤ n))).padRelease (2 ^ 9)).setFld bootUid 0x4000 0 3 2
      let d2 := { d1 with pw := { d1.pw with vcoreEn := List.range 8 } }
      forUpto 8 (fun g d => d.setRail g (d.fallback g)) d2
    | none => d
  | _ => d

def execStageHandover (s : State) : Host.Outcome State Fault Refusal := onDev (fun d => d.handover) s

/-- The messages of a bundle's payload (Table 16-5). -/
def bundleMsgs (p : List Byte) : List HbMsg :=
  (List.range 16).map (fun i =>
    let o := 16 * i; let off := 256 + iLe p o 4; let n := iLe p (o + 4) 4
    ⟨(List.range n).map (fun j => BitVec.ofNat 16 (iLe p (off + 2 * j) 2)), iLe p (o + 8) 1 % 2 == 1⟩)

/-- The registers of the Harebell record, in its order (R715). -/
def hbRecOffs : List Nat :=
  (List.range 7).map (fun t => 0xB100 + 8 * t) ++ (List.range 4).map (fun l => 0xB200 + 8 * l) ++ [0xB300, 0xB308, 0xB310]

/-- HAREBELL_ARM (R684-R686, R715): B0 writes the recorded settings and the checked bundle's message table, and arms
Harebell, unless it is armed already. -/
def Dev.hbArm (d : Dev) : Dev :=
  if d.flag hbUid 0xB000 0 then d
  else match d.objOf 4 0 with
  | none => d
  | some (_, b) =>
    let d1 := match d.nv.hbRec with
      | some ws => forAll (hbRecOffs.zip ws) (fun e d => d.setReg hbUid e.1 e.2) d
      | none => d
    let d2 := ({ d1 with hb := { d1.hb with msgs := bundleMsgs ((b.drop 128).take (iLe b 12 4)) } }).setFlag hbUid 0xB000 0 true
    d2.extend 5 (shaBytes b)

def execHarebellArm (s : State) : Host.Outcome State Fault Refusal := onDev (fun d => d.hbArm) s

/-! Loading an image (R587-R593, R675). -/

/-- Deferred key checks (R675): with slot 0 about to hold `hash`, each object's key is checked against it; otherwise every
deferred check counts as failed. -/
def Dev.settleDeferred (d : Dev) (hash : Option Nat) : Dev :=
  let d0 := { d with bt := { d.bt with deferred := [] } }
  forAll d.bt.deferred.reverse (fun e d =>
    match d.bt.objs.find? (fun x => x.1 == e) with
    | none => d
    | some (_, b) =>
      let sig := objSig b
      let good := match hash with
        | some h => iLe sig 4 1 == 0 && Config.sha384 ((sig.drop 8).take 96) == h
        | none => false
      if good then d else d.trustFail e 5) d0

/-- Write everything that an image sets (Table 13-13, event 3): registers by section, then the partition records. -/
def Dev.writeImage (d : Dev) (img : List Byte) (roles : List Nat) (recs : List PartRec) : Dev :=
  let ss := imageSects img
  let d0 := { d with kp := { d.kp with image := img, recs := recs } }
  let d1 := (d0.writeRoles roles).writeFixed ss
  let d2 := forAll (sectsOf ss 7) (fun s d => d.writeEngine s.body) d1
  let d3 := forAll (sectsOf ss 8) (fun s d => d.writeTdm s.body) d2
  let d4 := match sectsOf ss 9 with | s :: _ => d3.writeLanes s.body | [] => d3
  let d5 := d4.writeRest ss
  (forAll recs (fun r d => d.placePart r) d5).writeReqs.writeGrants

/-- Put the partition records and roles of an overlay in place of those of the image (R593). -/
def Dev.applyOverlay (d : Dev) (recs : List PartRec) (roles : List Nat) : Dev :=
  let d1 := forUpto 288 (fun c d => if (d.core (coreId c)).placed then d.unplaceCore (coreId c) else d) d
  let d2 := forAll d.kp.recs (fun r d => forAll r.shares (fun s d => d.dropShare r.part s) (forAll r.slices (fun s d => d.dropSlice r.part s) d)) d1
  let d3 := ({ d2 with kp := { d2.kp with recs := recs, lpart := [] } }).writeRoles roles
  (forAll recs (fun r d => d.placePart r) d3).writeReqs.writeGrants

/-- Records of single-tier partitions that lost a cluster without a spare (R33). -/
def Dev.unplacedRecords (d : Dev) (recs : List PartRec) : Dev :=
  forAll recs (fun r d =>
    match r.cores.find? (fun e => r.tier == 0 && e.phys.getD 0 0xFFFF == 0xFFFF) with
    | some e => d.raise d.keeperU ⟨0x0603, 4, e.lcore, 0xFFFF, some r.part⟩
    | none => d) d

/-- An image that keeps every structural rule comes into force. -/
def Dev.imageInForce (d : Dev) (entry : Nat) (img : List Byte) : Dev :=
  let n := iLe img 8 4; let sig := (img.drop (n - 256)).take 256
  let hash := Config.sha384 ((sig.drop 8).take 96)
  let (keyBad0, revoked, sigBad, roll) := d.trustCheck img false
  let blank := d.fuseProg == 0
  let first := blank && iLe sig 4 1 == 0 && !sigBad
  let keyBad := keyBad0 && !first
  let seq := iLe img 16 8
  -- Key: R675.
  let d1 := if first then
      (({ d with bt := { d.bt with fuseJobs := d.bt.fuseJobs ++ [(0, 0, hash)] } }).setFlag bootUid 0x4000 11 true).measEvent 6 4 0 entry
    else d
  let d2 := if blank then d1.settleDeferred (if first then some hash else none) else d1
  let st := (d2.reg bootUid 0x4800).toNat % 2 ^ 16 + at_ (d2.fld bootUid 0x4800 32 32) 32 32 + 2 ^ 16 * keyBad.toNat +
    2 ^ 17 * revoked.toNat + 2 ^ 18 * sigBad.toNat + 2 ^ 19 * roll.toNat + 2 ^ 20 * d2.slotB.toNat
  let d3 := (d2.setReg bootUid 0x4800 (BitVec.ofNat 64 st)).setReg bootUid 0x4808 (BitVec.ofNat 64 seq)
  -- Structure: R33, R574-R586.
  let (roles, recs, _) := mapSpares d.nv.failed d.nv.failed (imageRoles img, (sectsOf (imageSects img) 6).map (fun s => parseRec s.body), [])
  let d4 := (d3.writeImage img roles recs).unplacedRecords recs
  let d5 := { d4 with sv := { d4.sv with sentMs := d4.fld hbUid 0xA000 0 16 }, bt := { d4.bt with staging := false, planDone := false } }
  -- Overlay: R593, R691.
  let (x, d6) := d5.draw
  let d7 := match d6.nv.overlay with
    | some (q, rs, ro) =>
      if q = seq then (d6.applyOverlay rs ro).extend 4 (natBe 48 x)
      else ({ d6 with nv := { d6.nv with overlay := none } }).extend 4 (shaBytes [])
    | none => d6.extend 4 (shaBytes [])
  -- Debug levels: R747.
  let d8 := if d7.db.seq = seq + 1 then d7 else
    let e := forUpto 256 (fun p d => d.levelTo p 0) d7
    ({ e with db := { e.db with seq := seq + 1 } }).writeGrants
  let d9 := d8.setFld bootUid 0x4000 0 3 3
  -- Trust failures of group 02: R589, R678.
  let fails := (if keyBad then [5] else []) ++ (if revoked then [6] else []) ++ (if sigBad || roll then [7] else [])
  let d10 := forAll fails (fun c d => d.trustFail entry c) d9
  let degraded := d10.flag bootUid 0x4000 8
  let d11 := if degraded ∧ fails = [] then d10.noticeAll (d10.kp.recs.map (·.part)) else d10
  d11.planLoad

/-- IMAGE_LOAD (R587-R593): the keeper checks the image that it copied, and writes the structure or refuses it. -/
def Dev.imageLoad (d : Dev) : Dev :=
  if d.stage ≠ 2 then d
  else match d.objOf 3 0 with
  | none => d
  | some (e, img) =>
    match d.structCheck img (iLe (d.dirEntry e) 8 4) with
    | some (code, off) =>
      let st := (d.reg bootUid 0x4800).toNat / 2 ^ 16 % 2 ^ 16 * 2 ^ 16 + code + at_ off 32 32
      ((d.setReg bootUid 0x4800 (BitVec.ofNat 64 st)).setFld bootUid 0x4000 0 3 3).structFail e 2 false
    | none => d.imageInForce e img

def execImageLoad (s : State) : Host.Outcome State Fault Refusal := onDev (fun d => d.imageLoad) s

/-! Keys (R676, R677). -/

/-- A record is acted on: its fuse word waits (R677), and MEAS_6 takes the event. -/
def Dev.fuseAsk (d : Dev) (entry kind n hash : Nat) : Dev :=
  ({ d with bt := { d.bt with fuseJobs := d.bt.fuseJobs ++ [(kind, n, hash)] } }).measEvent 6 5 n entry

/-- KEY_RECORD (R676): a key record that passes its checks with the key of another slot programs its blank slot. -/
def execKeyRecord (e : Fin 62) (s : State) : Host.Outcome State Fault Refusal :=
  onDev (fun d =>
    match d.bt.objs.find? (fun x => x.1 == e.val) with
    | some (_, b) =>
      if iLe (d.dirEntry e) 0 1 ≠ 6 ∨ d.kp.image = [] then d
      else
        let slot := iLe b 128 1
        if d.objTrust b false = 0 ∧ 1 ≤ slot ∧ slot ≤ 3 ∧ iLe (objSig b) 4 1 ≠ slot ∧ d.flag bootUid 0x4010 slot = false ∧
            zeros b 129 15 then
          d.fuseAsk e 0 slot (beNat ((b.drop 144).take 48))
        else d.measEvent 6 6 slot e
    | none => d) s

/-- REVOCATION_RECORD (R676): it must be signed with another key than the one it revokes, and must leave another. -/
def execRevocationRecord (e : Fin 62) (s : State) : Host.Outcome State Fault Refusal :=
  onDev (fun d =>
    match d.bt.objs.find? (fun x => x.1 == e.val) with
    | some (_, b) =>
      if iLe (d.dirEntry e) 0 1 ≠ 7 ∨ d.kp.image = [] then d
      else
        let n := iLe b 128 1; let vendor := iLe b 129 1 == 1; let signer := iLe (objSig b) 4 1
        let vendorSigned := iLe b 7 1 == 0
        let other := if vendor then decide (n ≤ 1) && !d.flag bootUid 0x4010 (8 + (1 - n))
          else decide (n ≤ 3) && (List.range 4).any (fun k => k != n && d.flag bootUid 0x4010 k && !d.fuseRevoked k)
        let apart := vendor != vendorSigned || signer != n
        if d.objTrust b false = 0 ∧ other ∧ apart ∧ vendor = vendorSigned ∧ iLe b 129 1 ≤ 1 ∧ zeros b 130 62 then
          d.fuseAsk e (if vendor then 2 else 1) n 0
        else d.measEvent 6 6 n e
    | none => d) s

/-- FUSE_PROGRAM (R649, R677): the oldest fuse word that waits is programmed; no word starts under the inhibit of R646 or
before the reserve is charged. -/
def execFuseProgram (s : State) : Host.Outcome State Fault Refusal :=
  onDev (fun d =>
    match d.bt.fuseJobs with
    | (kind, n, hash) :: rest =>
      if d.nvAllowed then
        let d1 := { d with bt := { d.bt with fuseJobs := rest } }
        if kind = 0 then
          ({ d1 with nv := { d1.nv with keyHash := SMap.set (fun _ => 0) d1.nv.keyHash n (hash + 1) } }).setFlag bootUid 0x4010 n true
        else d1.setFlag bootUid 0x4010 (n + (if kind = 1 then 4 else 8)) true
      else d
    | [] => d) s

/-! Loaders and release (R687-R690, R473). -/

/-- Write bytes for the keeper under the homing of a replica. -/
def Dev.repWrite (d : Dev) (p ix pa : Nat) (bs : List Byte) : Dev × Bool :=
  if (d.xrOf pa).isSome then let (d1, r) := d.engWrite pa bs; (d1, match r with | .ok _ => true | .error _ => false)
  else (sectorPieces (bs.length / 64 + 2) pa bs).foldl (fun a q =>
    let (d1, r) := a.1.homeStore (d.repRq p ix) q.1 q.2
    (d1.loseResv q.1 q.2.length none, a.2 && (match r with | .ok _ => true | .error _ => false))) (d, true)

/-- Read bytes for the keeper under the homing of a replica; an error reads as zeros and is reported. -/
def Dev.repRead (d : Dev) (p ix pa n : Nat) : Dev × List Byte × Bool :=
  let base := pa / 64 * 64; let k := (pa + n - base + 63) / 64
  let (d1, bs, ok) := (List.range k).foldl (fun (a : Dev × List Byte × Bool) i =>
    let (d1, r) := a.1.homeLoad (d.repRq p ix) (base + 64 * i)
    match r with
    | .ok s => (d1, a.2.1 ++ natLe 64 s.toNat, a.2.2)
    | .error _ => (d1, a.2.1 ++ List.replicate 64 0, false)) (d, [], true)
  (d1, (bs.drop (pa - base)).take n, ok)

/-- Whether every block under an extent of SDRAM has been initialised (R387). -/
def Dev.extentReady (d : Dev) (a n : Nat) : Bool :=
  let first := a / 2 ^ 30
  (List.range ((a + n - 1) / 2 ^ 30 + 1 - first)).all (fun i =>
    let pa := max a ((first + i) * 2 ^ 30)
    match d.rangeOf pa with
    | none => decide (2 ^ 42 ≤ pa)
    | some k => let (ch, l) := d.decodeIn k pa; d.initialised ch l)

/-- The places of a loader: base addresses for a window, or local stores. -/
def Dev.loaderPlaces (d : Dev) (r : PartRec) (b : List Byte) : List Nat :=
  let dest := iLe b 24 8
  if iLe b 20 1 = 1 then (d.partCores r.part).map (fun c => 2 ^ 47 + c.val * 2 ^ 17 + dest)
  else match r.winAt (iLe b 21 1) with
  | some w => (List.range (tierReps r.tier)).map (fun ix => (w.span ix).1 + dest)
  | none => []

/-- Write a loader's bytes at every place of it; the second result says that no write met an error. -/
def Dev.loaderWrite (d : Dev) (p : Nat) (places : List Nat) (body : List Byte) : Dev × Bool :=
  places.zipIdx.foldl (fun (a : Dev × Bool) x =>
    if 2 ^ 47 ≤ x.1 then
      let k := x.1 - 2 ^ 47
      let (d1, e) := a.1.lsWrite (k / 2 ^ 17) (k % 2 ^ 17) body
      (d1, a.2 && (match e with | .ok _ => true | .error _ => false))
    else let (d1, e) := a.1.repWrite p x.2 x.1 body; (d1, a.2 && e)) (d, true)

/-- LOADER_COPY (R687, R693): the checked loader of a partition is copied into its target, measured, and remembered as
resident. -/
def Dev.loaderCopy (d : Dev) (p : Nat) : Dev :=
  match d.objOf 5 p, d.recOf p with
  | some (_, b), some r =>
    let body := (b.drop 128).take (iLe b 12 4); let places := d.loaderPlaces r b
    if d.kp.released.contains p then d
    else if places.any (fun a => decide (a < 2 ^ 47) && !d.extentReady a body.length) then d
    else
      let (d1, ok) := d.loaderWrite p places body
      if ok = false then d1
      else
        let d2 := d1.extend (8 + p % 8) (shaBytes b)
        { d2 with bt := { d2.bt with loaded := if d2.bt.loaded.contains p then d2.bt.loaded else p :: d2.bt.loaded,
                                     residents := d2.bt.residents.filter (fun x => x.part != p) ++ [⟨p, places, body.length, Config.sha384 body⟩] } }
  | _, _ => d

def execLoaderCopy (p : Fin 256) (s : State) : Host.Outcome State Fault Refusal := onDev (fun d => d.loaderCopy p) s

/-- Whether the directory in force has a loader for a partition. -/
def Dev.hasLoader (d : Dev) (p : Nat) : Bool :=
  (List.range (iLe d.bt.dir 6 2)).any (fun e => iLe (d.dirEntry e) 0 1 == 5 && iLe (d.dirEntry e) 2 2 == p)

/-- Whether a replica's reset vectors lie where every replica sees them (R689): the logical core of the first that does not. -/
def PartRec.vectorBad (r : PartRec) : Option Nat :=
  (r.cores.find? (fun e => let v := e.vector
    !(decide (0xE0001FF00000 ≤ v) && decide (v < 0xE00020000000)) &&
      !r.wins.any (fun w => w.rights / 4 % 2 == 1 && decide ((w.span 0).1 ≤ v) && decide (v < (w.span 0).1 + (w.span 0).2)))).map (·.lcore)

/-- Whether a partition can be released: its memory is initialised (R387), each of its cadences has a valid block number
(R473), and each of its cores has a slice list (R313). A single-tier core without a place is not started (R33). -/
def Dev.releasable (d : Dev) (r : PartRec) : Bool :=
  d.bt.planDone && !d.bt.noRelease && !d.kp.released.contains r.part &&
    r.wins.all (fun w => (List.range (tierReps r.tier)).all (fun ix => let s := w.span ix; decide (2 ^ 42 ≤ s.1) || d.extentReady s.1 s.2)) &&
    r.cads.all (fun c => (opt d.au.done c.1).isSome) && (d.partCores r.part).all (fun c => d.sliceList c != [] && !d.flag (coreUid c) 0x4000 3) &&
    !(r.tier == 0 && r.cores.any (fun e => e.phys.getD 0 0xFFFF == 0xFFFF))

/-- A core whose CDBG_CFG.HOR is 1, or that was halted when it was reset, halts before its first instruction (R755). -/
def Dev.haltOnRelease (d : Dev) (c : CoreId) : Dev :=
  if (d.flag (coreUid c) 0xF008 2 ∨ d.halted c.val) ∧ (d.core c).run = .run then d.haltNow c 7 0 else d

/-- Release the cores of a partition (R688, R473): its rails are at their fallback set point (R73), k0 is taken, the LIVE
bits of its replicas are set, and the mailbox block takes the release snapshot (R422). DESIGN CHOICE, log entry 11. -/
def Dev.releasePart (d : Dev) (r : PartRec) : Dev :=
  let p := r.part
  let gs := dedupNat ((d.partCores p).map (fun c => c.val / 36))
  let d1 := forAll gs (fun g d => d.toFallback g) d
  let d2 := { d1 with kp := { d1.kp with released := p :: d1.kp.released } }
  let d3 := d2.releaseLcores r ((r.cores.filter (fun e => !e.late)).map (·.lcore))
  let live := (List.range (tierReps r.tier)).foldl (fun m ix =>
    if (d3.partCores p).any (fun c => repIx (d3.core c).rep == ix) then m + 2 ^ ix else m) 0
  let d4 := forAll (d3.groupsOf p) (fun e d => d.setLive e.1 e.2 live (d.liveFrom (d.cgCad e.1 e.2))) d3
  let d5 := forAll (d4.partCores p) (fun c d => d.haltOnRelease c) d4
  let mine (l : Nat) : Bool := r.cores.any (fun e => e.lcore == l)
  let d6 := { d5 with rm := ⟨SMap.keep (fun k => !mine (k / 4)) d5.rm.ord, d5.rm.waiting.filter (fun w => !mine w.lcore),
                             d5.rm.done.filter (fun w => !mine w.lcore)⟩ }
  d6.snapPartition p none

/-- Whether every partition that the image releases at boot has been released (R683). -/
def Dev.allReleased (d : Dev) : Bool :=
  d.kp.recs.all (fun r => d.kp.released.contains r.part || !d.hasLoader r.part || r.vectorBad.isSome)

/-- PARTITION_RELEASE (R687-R690). -/
def Dev.partitionRelease (d0 : Dev) (p : Nat) : Dev :=
  let d := d0.planLoad
  match d.recOf p with
  | none => d
  | some r =>
    if d.hasLoader p = false then d.raise bootUid ⟨0x0802, 2, p, 0xFFFF, some p⟩
    else if d.bt.loaded.contains p = false ∨ d.releasable r = false then d
    else match r.vectorBad with
    | some l => d.raise bootUid ⟨0x0803, 4, l, 0xFFFF, some p⟩
    | none =>
      let d1 := d.releasePart r
      let d2 := if d1.flag bootUid 0x4000 8 ∧ d1.kp.notices.any (fun n => n.1 == p) = false then d1.noticeAll [p] else d1
      if d2.allReleased ∧ d2.stage = 3 then
        { d2.setFld bootUid 0x4000 0 3 4 with bt := { d2.bt with allAt := d2.dt + 1 } }
      else d2

def execPartitionRelease (p : Fin 256) (s : State) : Host.Outcome State Fault Refusal := onDev (fun d => d.partitionRelease p) s

/-- SERVICE_BUTTON_HELD (R682): the button held for 4 s while the device runs. -/
def execServiceButtonHeld (s : State) : Host.Outcome State Fault Refusal :=
  onDev (fun d => if d.pw.good ∧ d.pw.deep = .run then d.warmReset 9 else d) s

/-- SLOT_SETTLED (R683): 60 s after the release of every partition that the image releases at boot. -/
def execSlotSettled (s : State) : Host.Outcome State Fault Refusal :=
  onDev (fun d =>
    if d.bt.allAt ≠ 0 ∧ d.bt.allAt + 60000000000 ≤ d.dt + 1 then (d.setFlag bootUid 0x4008 3 true).setFld bootUid 0x4008 0 2 0
    else d) s

/-- PWR_GOOD_RISE (R793, R807): PWR_GOOD has been high for 1 µs; B0 may start. -/
def execPwrGoodRise (s : State) : Host.Outcome State Fault Refusal :=
  onDev (fun d => { d with pw := { d.pw with good := true } }) s

end Sys2Proof.Machine
end

