-- ==== Sys2Proof/Machine/Epoch.lean ====
section
/-!
DEFINITION. Epochs (R594-R613), spare-in and the restructuring operations (R28-R33, R614-R619), fences lifted (R18, R598).
-/
namespace Sys2Proof.Machine

/-! Counted units. -/

/-- Every unit of a die but its die or hub control, which counts the others. -/
def dieUnits (die : Nat) : List Nat :=
  if die < 4 then
    (List.range 18).flatMap (fun i => clusterUnits (18 * die + i)) ++ [funnelUid (2 * die), funnelUid (2 * die + 1), regionUid (2 * die),
      regionUid (2 * die + 1), mkUid die 0 15 3 0, mkUid die 0 15 3 1]
  else
    let h := die - 4
    (List.range 4).map (xsliceUid h) ++ (List.range 7).map (fun i => mkUid die 0 15 3 i) ++ [funnelUid (8 + h)] ++
      (List.range 6).map (fun i => mcUid (6 * h + i)) ++ (List.range 5).map (fun i => quadUid (5 * h + i)) ++
      [pcieUid (2 * h), pcieUid (2 * h + 1), seUid (2 * h), seUid (2 * h + 1), tdmUid (2 * h), tdmUid (2 * h + 1), evcUid h, mbxUid h,
       keeperUid h, mgtUid h] ++ (if h = 0 then [bootUid, hbUid, dbgUid] else [])

/-- A counted unit is not fenced and not in Hold or Off (R596). -/
def Dev.counted (d : Dev) (u : Nat) : Bool := !d.fenced u && decide (d.power u < 3)

/-- Counted units that have not acknowledged the phase in force. -/
def Dev.epPend (d : Dev) : List Nat := d.ep.pend.filter d.counted

/-- The posting in force, read from the control of die 0: the keeper writes all six alike. -/
def Dev.epReg (d : Dev) : Word := d.reg (dieUid 0) 0x4100
def Dev.epNumber (d : Dev) : Nat := bits d.epReg 0 32
def Dev.epPhase (d : Dev) : Nat := bits d.epReg 40 2
def Dev.epStrict (d : Dev) : Bool := bit d.epReg 42
/-- Whether the posting concerns a partition. -/
def Dev.epConcerns (d : Dev) (p : Nat) : Bool := bit d.epReg 56 || bits d.epReg 48 8 == p

/-- The strict modes of Table 14-1. -/
def strictMode (m : Nat) : Bool := [0x02, 0x03, 0x05, 0x06, 0x08, 0x0D, 0x0E].contains m

/-- The registers that a mode changes (Table 14-1). -/
def modeRegs : Nat → List RegName
  | 0x01 | 0x02 => [.winBase, .winAttr]
  | 0x03 => [.homeSlice, .slcPart]
  | 0x04 => [.l2Waymask, .slcPart, .xrAttr, .trlDev]
  | 0x05 => [.xrBase, .xrAttr]
  | 0x06 => [.memRangeBase, .memRangeAttr]
  | 0x08 => [.unitOwner]
  | 0x09 => [.evSrc]
  | 0x0A => [.mbxPerm, .rmbxDest]
  | 0x0B => [.mcShare, .mcSched]
  | 0x0C => [.trlRt, .trlBound]
  | 0x0D => [.remWin, .expWin]
  | _ => []

/-- Set or clear doorbell 30 of the partitions that a posting concerns (R415). -/
def Dev.epBell (d : Dev) : Dev :=
  forAll ((List.range 256).filter (fun l => match d.lcorePart l with | some p => d.epConcerns p | none => false))
    (fun l d => d.mbxBell l true (BitVec.ofNat 64 (2 ^ 30))) d

/-- Refresh EPOCH_ACK of a die (R601). -/
def Dev.epAck (d : Dev) (die : Nat) : Dev :=
  let pend := d.epPend.filter (fun u => uidDie u == die); let u := dieUid die
  let lag := match pend.min? with | some x => x | none => 0xFFFF
  ((d.setFlag u 0x4110 34 pend.isEmpty).setFld u 0x4110 36 8 (min 255 pend.length)).setFld u 0x4110 48 16 lag

/-- A dual mode is complete when every counted unit has acknowledged (R596, R602): doorbell 30 is set again. Its old values
go when the die has acknowledged (R608). -/
def Dev.epSettle (d : Dev) : Dev :=
  let d1 := forUpto 6 (fun i d => d.epAck i) d
  let old := d1.ep.old.filter (fun e => d1.epPend.any (fun u => uidDie u == uidDie e.1))
  let d2 := { d1 with ep := { d1.ep with old := old } }
  if d2.epPend.isEmpty && !d2.epStrict && !d2.ep.complete then ({ d2 with ep := { d2.ep with complete := true, values := [] } }).epBell else d2

/-- Whether the keeper may post epoch `e` with a mode and phase (R596, R602; EPOCH_POST). -/
def Dev.epPostOk (d : Dev) (e mode phase : Nat) : Bool :=
  if e = d.epNumber ∧ d.ep.complete = false then
    mode == bits d.epReg 32 8 && d.epPend.isEmpty && d.epStrict && phase == d.epPhase + 1
  else
    d.ep.complete && e == (d.epNumber + 1) % 2 ^ 32 && decide (1 ≤ mode) && decide (mode ≤ 0x0E) &&
      phase == (if strictMode mode then 1 else 0)

/-- Post a phase at all six dies (R601). -/
def Dev.epPost (d : Dev) (e mode phase part : Nat) (all : Bool) (values : List (Nat × Nat × Word)) : Dev :=
  if d.epPostOk e mode phase = false then d
  else
    let first := d.ep.complete
    let w := e + 2 ^ 32 * mode + 2 ^ 40 * phase + 2 ^ 42 * (strictMode mode).toNat + 2 ^ 48 * part + 2 ^ 56 * all.toNat
    let pend := if phase = 3 then [] else ((List.range 6).flatMap dieUnits).filter d.counted
    let vs := values.filter (fun v => match regAt v.1 v.2.1 with | some (r, _) => (modeRegs mode).contains r.name | none => false)
    let d1 := forUpto 6 (fun i d => ((d.setReg (dieUid i) 0x4100 (BitVec.ofNat 64 w)).setReg (dieUid i) 0x4110
      (BitVec.ofNat 64 (e + 2 ^ 32 * phase)))) d
    let at' := (List.range 6).map (fun i => (i, d.dt + 1))
    let d2 := { d1 with ep := { d1.ep with complete := phase == 3, pend := pend, postedAt := at',
                                           values := if phase = 1 ∨ phase = 3 then d1.ep.values else vs } }
    let d3 := if phase = 3 then { d2 with ep := { d2.ep with values := [] } } else d2
    let d4 := forUpto 6 (fun i d => d.epAck i) d3
    if first || phase == 3 then d4.epBell else d4

/-- EPOCH_POST_APPLY_DUAL (R604): the keeper posts the next epoch with a dual mode and the values that its units take. -/
def execEpochPostApplyDual (mode part : BitVec 8) (all : Bool) (values : List (Nat × Nat × Word)) (s : State) :
    Host.Outcome State Fault Refusal :=
  onDev (fun d => if strictMode mode.toNat then d else d.epPost ((d.epNumber + 1) % 2 ^ 32) mode.toNat 0 part.toNat all values) s

/-- EPOCH_POST_QUIESCE (R603). -/
def execEpochPostQuiesce (mode part : BitVec 8) (all : Bool) (s : State) : Host.Outcome State Fault Refusal :=
  onDev (fun d => if strictMode mode.toNat then d.epPost ((d.epNumber + 1) % 2 ^ 32) mode.toNat 1 part.toNat all [] else d) s

/-- EPOCH_POST_APPLY_STRICT (R604): the second phase, with the values that the units take. -/
def execEpochPostApplyStrict (values : List (Nat × Nat × Word)) (s : State) : Host.Outcome State Fault Refusal :=
  onDev (fun d => d.epPost d.epNumber (bits d.epReg 32 8) 2 (bits d.epReg 48 8) (bit d.epReg 56) values) s

/-- EPOCH_POST_RESUME (R605). -/
def execEpochPostResume (s : State) : Host.Outcome State Fault Refusal :=
  onDev (fun d => d.epPost d.epNumber (bits d.epReg 32 8) 3 (bits d.epReg 48 8) (bit d.epReg 56) []) s

/-- A core's safe point (Table 14-2): no staged write, nothing outstanding; a halted core is at one (R765). A replica's
core, for modes 0x01-0x04 and 0x0E, waits in WAITB with every core of its partition. -/
def Dev.coreSafe (d : Dev) (c : CoreId) : Bool :=
  let k := d.core c; let m := bits d.epReg 32 8
  d.halted c.val || (k.staged.isEmpty && k.sb.isEmpty && k.deferred.isNone &&
    (!(k.placed && k.rep != .none && d.epConcerns k.part && (decide (m ≤ 4) || m == 0x0E)) ||
      (d.partCores k.part).all (fun x => match (d.core x).run with | .waitb _ _ => true | _ => false)))

/-- A unit takes the values of the mode; a dual mode keeps the old ones for the while (R604, R608). RO fields of a
register stay. -/
def Dev.epTake (d : Dev) (u : Nat) : Dev :=
  let mine := d.ep.values.filter (fun v => v.1 == u)
  let d1 := if d.epStrict then d else
    { d with ep := { d.ep with old := mine.map (fun v => (u, v.2.1, d.reg u v.2.1)) ++ d.ep.old } }
  forAll mine (fun v d =>
    let m := match regAt u v.2.1 with | some (r, _) => BitVec.ofNat 64 (rwMask r.fields) | none => 0
    d.setReg u v.2.1 ((d.reg u v.2.1 &&& ~~~m) ||| (v.2.2 &&& m))) d1

/-- EPOCH_UNIT_ACK (R597, R603, R604): a unit at its safe point, with its earlier transactions complete, acknowledges. -/
def Dev.epUnitAck (d : Dev) (u : Nat) : Dev :=
  if d.epPend.contains u = false then d
  else if unitKind u = some .core ∧ d.coreSafe (coreId (uidCore u)) = false then d
  else
    let d1 := if d.epPhase = 1 then d else d.epTake u
    let d2 := { d1 with ep := { d1.ep with pend := d1.ep.pend.filter (fun x => x != u) } }
    d2.epSettle

/-- BOUND of a die in ns. -/
def Dev.epBound (d : Dev) (die : Nat) : Nat := 1000 * d.fld (dieUid die) 0x4108 0 13

/-- EPOCH_LAGGARD_RETRY (R611): a BOUND after the posting, a die or hub control sends it once more. -/
def execEpochLaggardRetry (die : Fin 6) (s : State) : Host.Outcome State Fault Refusal :=
  onDev (fun d =>
    let at' := SMap.get (fun _ => 0) d.ep.postedAt die
    if at' ≠ 0 ∧ at' + d.epBound die ≤ d.dt + 1 ∧ d.epPend.any (fun u => uidDie u == die.val) then d.setFlag (dieUid die) 0x4110 35 true
    else d) s

/-- What the keeper does with a fenced laggard (R612): a unit of a cluster waits for spare-in, a unit with a standby is
replaced by it, a mirrored channel runs on under R369; any other stays fenced with a record. -/
def Dev.fenceLaggard (d : Dev) (u : Nat) : Dev :=
  let d1 := d.fenceUnit u
  match unitKind u with
  | some .core | some .l2 | some .l3 | some .cstop | some .evc | some .mbx | some .keeper => d1
  | some .mc => if d1.ch.stale.contains (uidMc u) then d1 else d1.raise d1.keeperU (Rec.plain 0x0602 4 u)
  | _ => d1.raise d1.keeperU (Rec.plain 0x0602 4 u)

/-- EPOCH_LAGGARD_FENCE (R611, R612): after a further BOUND the control of the die names the unit in record 0x0601, raises
its stall source, and the keeper fences the unit, which stops being counted. -/
def execEpochLaggardFence (die : Fin 6) (s : State) : Host.Outcome State Fault Refusal :=
  onDev (fun d =>
    let at' := SMap.get (fun _ => 0) d.ep.postedAt die
    if at' ≠ 0 ∧ at' + 2 * d.epBound die ≤ d.dt + 1 ∧ d.flag (dieUid die) 0x4110 35 then
      let lag := d.epPend.filter (fun u => uidDie u == die.val)
      (forAll lag (fun u d =>
        ((d.raise (dieUid die) ⟨0x0601, 3, d.epNumber, u, none⟩).raiseEdge (0xA18 + die)).fenceLaggard u) d).epSettle
    else d) s

/-! Units that disagree (R607-R610). -/

/-- Whether a unit is in the posted epoch. -/
def Dev.epNew (d : Dev) (u : Nat) : Bool := d.epPhase != 1 && !d.epPend.contains u

/-- How a receiver serves a transaction (Table 14-3): 0 at once, 1 under the old values, 2 "epoch retry", 3 held. -/
def Dev.epServe (d : Dev) (sender receiver : Nat) : Nat :=
  if d.epPhase = 1 ∨ d.epPhase = 3 ∨ d.epPend = [] then 0
  else match d.epNew sender, d.epNew receiver with
  | false, true => if d.epStrict || d.epPend.all (fun u => uidDie u != uidDie receiver) then 2 else 1
  | true, false => 3
  | _, _ => 0

/-- Run an access under the old values of its receiver. -/
def Dev.underOld (d : Dev) (u : Nat) (f : Dev → Dev) : Dev :=
  let olds := d.ep.old.filter (fun e => e.1 == u)
  let news := olds.map (fun e => (u, e.2.1, d.reg u e.2.1))
  let d1 := f (forAll olds (fun e d => d.setReg u e.2.1 e.2.2) d)
  forAll news (fun e d => d.setReg u e.2.1 e.2.2) d1

/-! Fences lifted, units that leave Hold (R18, R598). -/

/-- A unit takes the latest posted epoch and phase before it takes part in any handshake (R598). -/
def Dev.epCatchUp (d : Dev) (u : Nat) : Dev :=
  let d1 := if d.epPhase = 1 then d else d.epTake u
  ({ d1 with ep := { d1.ep with pend := d1.ep.pend.filter (fun x => x != u) } }).epSettle

/-- LIFT_FENCE (R18, R598): the keeper clears FENCED of a unit. -/
def execLiftFence (u : BitVec 16) (s : State) : Host.Outcome State Fault Refusal :=
  onDev (fun d => if d.fenced u.toNat then (d.setFlag u.toNat 8 4 false).epCatchUp u.toNat else d) s

/-! Operations of the keeper. Each posts its modes in order and counts their epochs; what its units do in between is that
of the epoch commands. -/

/-- The epochs of an operation have been posted and completed: the number advances, and doorbell 30 is set at the first
phase and at the completion (R594, R415). -/
def Dev.epSkip (d : Dev) (modes : List Nat) (part : Nat) : Dev :=
  let e := (d.epNumber + modes.length) % 2 ^ 32; let m := modes.getLastD 0
  let w := e + 2 ^ 32 * m + (if strictMode m then 3 * 2 ^ 40 + 2 ^ 42 else 0) + 2 ^ 48 * part
  let d1 := forUpto 6 (fun i d => (d.setReg (dieUid i) 0x4100 (BitVec.ofNat 64 w)).setReg (dieUid i) 0x4110
    (BitVec.ofNat 64 (e + (if strictMode m then 3 * 2 ^ 32 else 0) + 2 ^ 34 + 0xFFFF * 2 ^ 48))) d
  d1.epBell

/-- The roles of the 72 clusters. -/
def Dev.rolesNow (d : Dev) : List Nat := (List.range 72).map (fun k => d.role (l2Uid k))

/-- Whether a cluster can serve as a spare. -/
def Dev.spareUsable (d : Dev) (j : Nat) : Bool :=
  !d.kp.lost.contains j && !d.nv.failed.contains j && (clusterUnits j).all (fun u => !d.fenced u) && decide (d.power (l2Uid j) < 4)

/-- A spare leaves Hold to be used: its cores are in Run, its records are dropped. -/
def Dev.wakeSpare (d : Dev) (j : Nat) : Dev :=
  let d1 := forAll (clusterUnits j) (fun u d => if u = cstopUid j then d else d.setPower u 0) d
  let g := j / 9; let c := j % 9
  let d2 := (d1.setFlag (regionUid g) 0x4300 c false).setFlag (regionUid g) 0x4300 (32 + c) false
  { d2 with pw := { d2.pw with held := d2.pw.held.filter (fun x => x != j), holdWake := SMap.erase d2.pw.holdWake j } }

/-- The region of a new place reaches its new fallback set point before work moves there (R72). -/
def Dev.raiseFor (d : Dev) (recs : List PartRec) (g : Nat) : Dev :=
  (d.setFld (regionUid g) 0x4000 0 16 (min 0xFFFF (d.regionReq recs g))).toFallback g

/-- Reset a partition (R651, R652, R822): stop it, write its placement again, copy its loader and release it. -/
def Dev.partitionReset (d : Dev) (p : Nat) : Dev :=
  match d.recOf p with
  | none => d
  | some r =>
    let d1 := d.partitionStop p
    -- The clearing walks of the local stores have ended before the loader is copied (R257).
    let d2 := (forAll (d1.partCores p) (fun c d => d.setFlag (coreUid c) 0x4000 3 false) (d1.placePart r)).loaderCopy p
    if d2.bt.loaded.contains p ∧ d2.releasable r ∧ r.vectorBad = none then d2.releasePart r else d2

/-- Partitions with a core or a slice in a cluster. -/
def usersOf (recs : List PartRec) (k : Nat) : List PartRec :=
  recs.filter (fun r => r.cores.any (fun e => e.phys.any (fun p => decide (p < 288) && p / 4 == k)) || r.slices.any (fun s => s.uid == l3Uid k))

/-- Put spare `j` in place of failed cluster `k` (R28, R29, R614): roles, homing, placement; a single-tier partition is reset
(R335). -/
def Dev.spareTo (d : Dev) (k j : Nat) : Dev :=
  let recs := d.kp.recs.map (fun r => r.moveCluster k j)
  let old := usersOf d.kp.recs k
  let d0 := if j / 9 = k / 9 then d else d.raiseFor recs (j / 9)
  let d1 := (d0.wakeSpare j).clusterReset j
  let d2 := forAll (clusterCores k) (fun c d => d.unplaceCore c) d1
  let d3 := forAll (clusterUnits k) (fun u d => d.setRole u 2) (forAll (clusterUnits j) (fun u d => d.setRole u 0) d2)
  let d4 := forAll old (fun r d => forAll (r.slices.filter (fun s => s.uid == l3Uid k)) (fun s d => d.dropSlice r.part s) d) d3
  let d5 := { d4 with kp := { d4.kp with recs := recs, lost := d4.kp.lost.filter (fun x => x != k) } }
  let d6 := forAll old (fun r0 d =>
    match d.recOf r0.part with
    | none => d
    | some r =>
      let d1 := forAll (r.slices.filter (fun s => s.uid == l3Uid j)) (fun s d => d.putSlice r.part s) d
      let d2 := forAll r.cores (fun e d => forUpto (tierReps r.tier) (fun ix d =>
        let c := e.phys.getD ix 0xFFFF
        if c < 288 ∧ c / 4 = j then d.placeCore r e ix c else if c < 288 then d.putSliceList (coreId c) r ix else d) d) d1
      let d3 := d2.epSkip [0x0E, 0x03, 0x04, 0x09] r.part
      if r.tier = 0 then d3.partitionReset r.part else d3) d5
  d6.writeReqs

/-- SPARE_IN (R28, R29, R612, R618): the keeper replaces a cluster that it treats as fenced, between two epochs. With no
spare left, a record says so. -/
def Dev.spareIn (d : Dev) (k : Nat) : Dev :=
  if d.kp.lost.contains k = false ∨ d.ep.complete = false then d
  else match spareFor d.rolesNow d.spareUsable k with
  | some j => d.spareTo k j
  | none =>
    let d1 := forAll (clusterUnits k) (fun u d => d.setRole u 2) d
    ({ d1 with kp := { d1.kp with lost := d1.kp.lost.filter (fun x => x != k) } }).raise d1.keeperU (Rec.plain 0x0602 4 (l2Uid k))

def execSpareIn (k : Fin 72) (s : State) : Host.Outcome State Fault Refusal := onDev (fun d => d.spareIn k) s

/-! RESTRUCTURE (R615-R619). Each operation answers the state and the code of the call, none while it goes on. -/

/-- Whether an operation on a partition of replicas can apply now: every logical core of it in WAITB (Table 14-2). -/
def Dev.atSharedPoint (d : Dev) (r : PartRec) : Bool :=
  r.tier == 0 || (d.partCores r.part).all (fun x => match (d.core x).run with | .waitb _ _ => true | _ => false)

/-- FLUSH all on the L2s and slices that a partition uses. -/
def Dev.flushPart (d : Dev) (r : PartRec) : Dev :=
  let l2s := dedupNat ((d.partCores r.part).map (fun (c : CoreId) => l2Uid (coreCluster c.val)))
  forAll (l2s ++ dedupNat (r.slices.map (·.uid))) (fun u d => d.wholeCacheOp u true true) d

/-- Grow or shrink a window, which keeps its base (R614, R616). -/
def Dev.resizeWin (d : Dev) (p ix size : Nat) (shrink : Bool) : Dev × Option Nat :=
  match d.recOf p with
  | none => (d, some 2)
  | some r =>
    match r.winAt ix with
    | none => (d, some 4)
    | some w =>
      if (if shrink then w.size ≤ size else size ≤ w.size) then (d, some 4)
      else
        let r' := { r with wins := r.wins.map (fun x => if x.index = ix then { x with size := size } else x) }
        let code := d.resultCheck (d.kp.recs.map (fun x => if x.part = p then r' else x))
        if code ≠ 0 then (d, some (0x10000 + code))
        else if d.ep.complete = false ∨ d.atSharedPoint r = false then (d, none)
        else
          let d0 := d.epBell
          let d1 := forAll (d0.partCores p) (fun c d => d.putWindows c r' (repIx (d.core c).rep)) (d0.putRec r')
          let d2 := if shrink then d1.flushPart r' else d1
          (d2.epSkip [if shrink then 2 else 1] p, some 0)

/-- Move a single-tier logical core to another physical core: its state, local store and inbox go with it; no translation
state does (R290, R407); a halt ends (R756). -/
def Dev.moveCore (d : Dev) (r : PartRec) (e : CoreEnt) (c c' : CoreId) : Dev :=
  let k := d.core c
  let ls := (d.localStore.filter (fun x => x.1 / 2 ^ 17 == c.val)).foldl
    (fun m x => SMap.set zeroByte m (lsKey c' (x.1 % 2 ^ 17)) x.2) (d.clearLocal c').localStore
  let regs := [0x4400, 0x4408, 0x4410, 0x4418, 0x4480].map (fun o => (o, d.reg (coreUid c) o))
  let d1 := { d.clearLocal c' with localStore := ls }
  let d2 := if d1.halted c.val then d1.endHalt c.val else d1
  let d3 := (d2.unplaceCore c).setCore c' { k with tlb := [], walkCache := [], fetchBuf := none, ras := [] }
  forAll regs (fun x d => d.setReg (coreUid c') x.1 x.2) (d3.placeCore r e 0 c')

/-- Move a logical core to the physical cores named for its replicas, 0xFFFF to leave one where it is. -/
def Dev.moveOp (d : Dev) (p l : Nat) (tgt : List Nat) : Dev × Option Nat :=
  match d.recOf p with
  | none => (d, some 2)
  | some r =>
    match r.entry l with
    | none => (d, some 4)
    | some e =>
      if d.kp.op = p + 1 then
        if (d.rejoinOf p).isSome then (d, none)
        else
          let ok := (List.range (tierReps r.tier)).all (fun ix => d.repLive p ix)
          ({ d with kp := { d.kp with op := 0 } }, some (if ok then 0 else 6))
      else
        let want := (List.range 3).map (fun i => if tgt.getD i 0xFFFF = 0xFFFF then e.phys.getD i 0xFFFF else tgt.getD i 0xFFFF)
        let e' := { e with phys := want }
        let r' := { r with cores := r.cores.map (fun x => if x.lcore = l then e' else x) }
        let recs := d.kp.recs.map (fun x => if x.part = p then r' else x)
        let code := d.resultCheck recs
        let moved := (List.range (tierReps r.tier)).filter (fun i => want.getD i 0xFFFF ≠ e.phys.getD i 0xFFFF)
        if code ≠ 0 then (d, some (0x10000 + code))
        else if moved = [] then (d, some 0)
        else if d.ep.complete = false then (d, none)
        else
          let d1 := forAll moved (fun i d => d.raiseFor recs (want.getD i 0 / 36)) d
          let i := moved.headD 0; let c := coreId (e.phys.getD i 0); let c' := coreId (want.getD i 0)
          if r.tier = 0 then
            let k := d1.core c
            if k.sb ≠ [] ∨ k.staged ≠ [] then (d, none)
            else ((((d1.epBell).putRec r').moveCore r' e' c c').epSkip [0x0E] p |>.writeReqs, some 0)
          else if 1 < moved.length then (d, some 4)
          else
            let d2 := ((d1.epBell).clearLive p i).unplaceCore c
            let d3 := forAll (d2.repCores p i) (fun x d => d.coreReset x) d2
            let d4 := ((d3.putRec r').placeCore r' e' i c'.val).epSkip [0x0E] p
            ({ d4.rejoinStart p i with kp := { (d4.rejoinStart p i).kp with op := p + 1 } }, none)

/-- Replace the slice and share entries of a partition by those of another record of it. -/
def Dev.replaceShares (d : Dev) (r r' : PartRec) : Dev :=
  let d1 := forAll r.slices (fun s d => d.dropSlice r.part s) d
  let d2 := forAll r.shares (fun s d => d.dropShare r.part s) d1
  forAll r'.shares (fun s d => d.putShare r.part s) (forAll r'.slices (fun s d => d.putSlice r.part s) d2)

/-- The tier of a partition's commit groups changes at a block start (R617): when DEFER rises, the block already played is
played once more as concealed; when it falls, one released block is dropped and the next is crossfaded. -/
def Dev.setTier (d : Dev) (p tier : Nat) : Dev :=
  forAll (d.groupsOf p) (fun e d =>
    let was := d.cgTier e.1 e.2
    let d1 := d.setFld (seUid e.1) (0x6000 + 32 * e.2) 1 2 tier
    let b := (d.blkNow (d.cgCad e.1 e.2)).getD 0 - 1
    d1.modCg e.1 e.2 (fun x =>
      if was = 0 ∧ tier ≠ 0 then { x with verdicts := (b, .conceal) :: x.verdicts.filter (fun v => v.1 != b) }
      else if was ≠ 0 ∧ tier = 0 then { x with run := max 1 x.run } else x)) d

/-- Whether a supplied record equals the one in force but for TIER and the fields of replicas added or removed (R616). -/
def sameButTier (r r' : PartRec) : Bool :=
  let n := min (tierReps r.tier) (tierReps r'.tier)
  let code (t : Nat) (c : Nat) : Nat := if t = 0 then c + 1 else c
  r.part == r'.part && r.flags == r'.flags && r.debug == r'.debug && r.mcad == r'.mcad && r.rejoin == r'.rejoin && r.cads == r'.cads &&
    r.cores.map (fun e => ({ e with phys := e.phys.take n, masks := e.masks.take n } : CoreEnt)) ==
      r'.cores.map (fun e => ({ e with phys := e.phys.take n, masks := e.masks.take n } : CoreEnt)) &&
    r.wins.map (fun w => ({ w with bases := w.bases.take n } : WinEnt)) == r'.wins.map (fun w => ({ w with bases := w.bases.take n } : WinEnt)) &&
    (r.slices.map (fun s => ({ s with rep := code r.tier s.rep } : SliceEnt))).filter (fun s => decide (s.rep ≤ n)) ==
      (r'.slices.map (fun s => ({ s with rep := code r'.tier s.rep } : SliceEnt))).filter (fun s => decide (s.rep ≤ n)) &&
    (r.shares.map (fun s => ({ s with rep := code r.tier s.rep } : ShareEnt))).filter (fun s => decide (s.rep ≤ n)) ==
      (r'.shares.map (fun s => ({ s with rep := code r'.tier s.rep } : ShareEnt))).filter (fun s => decide (s.rep ≤ n))

/-- The cores of a partition take the tier and replica of a record. -/
def Dev.retag (d : Dev) (r : PartRec) : Dev :=
  forAll (d.partCores r.part) (fun c d => d.modCore c (fun k =>
    { k with tier := r.tier, rep := repAt r.tier (repIx k.rep),
             sCorectl := if r.tier = 0 then k.sCorectl else setBit k.sCorectl 1 true })) d

/-- Start the rejoin of the first replica of a record that is not live. DEDUCED, log entry 58. -/
def Dev.rejoinNext (d : Dev) (r : PartRec) : Dev :=
  match (List.range (tierReps r.tier)).find? (fun ix => !d.repLive r.part ix) with
  | some ix => d.rejoinStart r.part ix
  | none => d

/-- Change a partition's tier (R614, R617). DEDUCED, log entry 81. -/
def Dev.tierOp (d : Dev) (p : Nat) (r' : PartRec) : Dev × Option Nat :=
  match d.recOf p with
  | none => (d, some 2)
  | some r =>
    if d.kp.op = p + 1 then
      match d.rejoinOf p with
      | some j => if j.stage = 3 then (({ d with kp := { d.kp with op := 0 } }).putRejoin p none, some 6) else (d, none)
      | none =>
        if (List.range (tierReps r.tier)).all (fun ix => d.repLive p ix) then
          (({ d with kp := { d.kp with op := 0 } }).epSkip [0x04, 0x0B, 0x0E] p, some 0)
        else (d.rejoinNext r, none)
    else if sameButTier r r' = false ∨ r'.part ≠ p ∨ r'.tier = r.tier then (d, some 4)
    else
      let code := d.resultCheck (d.kp.recs.map (fun x => if x.part = p then r' else x))
      if code ≠ 0 then (d, some (0x10000 + code))
      else if d.ep.complete = false ∨ d.atSharedPoint r = false then (d, none)
      else if r.tier < r'.tier then
        let d1 := (((d.epBell).putRec r').replaceShares r r').retag r'
        let d2 := forAll r'.cores (fun e d => forAll ((List.range (tierReps r'.tier)).filter (fun ix => decide (tierReps r.tier ≤ ix)))
          (fun ix d => let c := e.phys.getD ix 0xFFFF; if c < 288 then d.placeCore r' e ix c else d) d) d1
        let d3 := ((d2.setTier p r'.tier).writeReqs).rejoinNext r'
        ({ d3 with kp := { d3.kp with op := p + 1 } }, none)
      else if (List.range (tierReps r'.tier)).all (fun ix => d.repLive p ix) = false then (d, some 6)
      else
        let gone := (List.range (tierReps r.tier)).filter (fun ix => decide (tierReps r'.tier ≤ ix))
        let d1 := forAll gone (fun ix d => forAll (d.repCores p ix) (fun c d => d.unplaceCore c) (d.clearLive p ix)) d.epBell
        let d2 := (((d1.putRec r').replaceShares r r').retag r').setTier p r'.tier
        ((d2.writeReqs).epSkip [0x04, 0x0B, 0x0E] p, some 0)

end Sys2Proof.Machine
end

