-- ==== Sys2Proof/Machine/Power.lean ====
section
/-!
DEFINITION. Power states, resets, supplies and the journal (R621-R660, R694-R696, R822).
-/
namespace Sys2Proof.Machine

/-! The records of refused and abandoned entries (R637, R638). -/

/-- Count a refusal in a PWR_REC. -/
def Dev.pwrRefuse (d : Dev) (u off code by_ : Nat) : Dev :=
  ((d.incFld u off 0 16).setFld u off 32 16 by_).setFld u off 48 8 code

/-- Count an abort in a PWR_REC. -/
def Dev.pwrAbort (d : Dev) (u off code by_ : Nat) : Dev :=
  ((d.incFld u off 16 16).setFld u off 32 16 by_).setFld u off 48 8 code

/-- The first reason, lowest code first, whose condition holds. -/
def firstReason (rs : List (Nat × Bool)) : Option Nat := (rs.find? (fun r => r.2)).map (·.1)

/-! Nap (R621-R624). -/

/-- NAP_ENTRY (R621, R660): Doze has lasted NAP_DELAY with NAP_EN = 1. A pending event refuses it. -/
def execNapEntry (c : CoreId) (s : State) : Host.Outcome State Fault Refusal :=
  onDev (fun d =>
    let u := coreUid c
    if d.flag u 0x4480 0 ∧ d.power u = 1 ∧ (d.core c).dozeAt + 1000 * d.fld u 0x4480 4 12 ≤ d.dt then
      if d.inboxPending c ≠ [] then d.pwrRefuse u 0x4508 1 u else (d.setPower u 2).tracePower c 2
    else d) s

/-- Nap exit of a core starts. -/
def Dev.wakeNap (d : Dev) (c : CoreId) : Dev :=
  if d.power (coreUid c) = 2 ∧ SMap.get (fun _ => 0) d.pw.napWake c = 0 then
    { d with pw := { d.pw with napWake := SMap.set (fun _ => 0) d.pw.napWake c (d.dt + 1) } }
  else d

/-- NAP_EXIT (R623): 4 µs after its wake the core issues again. -/
def execNapExit (c : CoreId) (s : State) : Host.Outcome State Fault Refusal :=
  onDev (fun d =>
    let w := SMap.get (fun _ => 0) d.pw.napWake c
    if w ≠ 0 ∧ w + 4000 ≤ d.dt + 1 then
      let d1 := { d with pw := { d.pw with napWake := SMap.erase d.pw.napWake c } }
      (d1.setPower (coreUid c) 1).modCore c (fun k => { k with dozeAt := d.dt })
    else d) s

/-- NAP_EARLY_WAKE (R624): at DT_start of the block that a core naps for in WAITB. -/
def execNapEarlyWake (c : CoreId) (s : State) : Host.Outcome State Fault Refusal :=
  onDev (fun d =>
    match (d.core c).run with
    | .waitb cad _ =>
      let b := SMap.get (fun _ => 0) (d.core c).lastBlk cad
      if d.cadEn cad ∧ d.dtStart cad b ≤ d.dt then d.wakeNap c else d
    | _ => d) s

/-! Hold (R625-R629, R333). -/

/-- Offset of the Hold record of a cluster in its region control. -/
def offHold (k : Nat) : Nat := 0x4200 + 8 * (k % 9)

/-- Whether a core runs: it has been released and does not doze. -/
def Dev.coreRuns (d : Dev) (c : CoreId) : Bool := (d.core c).run == .run

/-- Whether an enabled entry of a cluster's slice names a partition or replica that has a core running (R333). -/
def Dev.sliceServes (d : Dev) (k : Nat) : Bool :=
  (List.range 4).any (fun i => let a := 0x4010 + 8 * i; let u := l3Uid k
    d.flag u a 0 && (d.partCores (d.fld u a 8 8)).any (fun c => repCode (d.core c).rep == d.fld u a 1 2 && d.coreRuns c &&
      c.val / 4 != k))

/-- Why a Hold is refused (Table 15-4), lowest code first. -/
def Dev.holdRefused (d : Dev) (k : Nat) : Option Nat :=
  let cs := (clusterCores k).filter (fun c => (d.core c).placed)
  firstReason
    [(0x01, cs.any (fun c => d.inboxPending c != [])),
     (0x02, cs.any (fun c => (d.core c).staged != [])),
     (0x03, cs.any (fun c => (d.core c).sb != [])),
     (0x04, d.sliceServes k),
     (0x05, d.sv.rh.step != 0 && d.sv.rh.clusters.contains k),
     (0x06, !d.ep.complete),
     (0x0B, cs.any (fun c => d.halted c.val))]

/-- The units of a cluster that lose power in Hold. -/
def holdUnits (k : Nat) : List Nat := (clusterUnits k).filter (fun u => u != cstopUid k)

/-- A cluster loses what Hold does not keep (R225, R290, R327, Table 15-9): classes L and V but for the inbox, which is
saved (R407); reservations, TLBs, predictor state and fetch buffers. The architectural state stays with the core, which
stands for the records of Table 15-3. -/
def Dev.holdLose (d : Dev) (k : Nat) : Dev :=
  let us := holdUnits k
  let d1 := d.loseRegs (fun u off => us.contains u && off != 8 && !(decide (0x4400 ≤ off) && decide (off < 0x4420))) lostPower
  forAll (clusterCores k) (fun c d =>
    ((d.dropResv c).setFlag (coreUid c) 0x4000 3 false).modCore c
      (fun x => { x with tlb := [], walkCache := [], ras := [], fetchBuf := none })) d1

/-- Events 3-7 of Table 15-2: power markers and flush, FLUSH all of L2 and slice, save, clamp, power off. The watchdogs of
its logical cores hold their counts (R722). DESIGN CHOICE, log entry 9. DEDUCED, log entry 71. -/
def Dev.holdEnter (d : Dev) (k : Nat) : Dev :=
  let d1 := forAll (clusterCores k) (fun c d => if (d.core c).placed then (d.sbFlush c).tracePower c 3 else d) d
  let d2 := (d1.flushFunnel (k / 9)).wholeCacheOp (l2Uid k) true true
  let d3 := ((d2.wholeCacheOp (l3Uid k) true true).dropCache (l2Uid k)).dropCache (l3Uid k)
  let d4 := d3.holdLose k
  let d5 := forAll (holdUnits k) (fun u d => d.setPower u 3) d4
  let d6 := d5.setFlag (regionUid (k / 9)) 0x4300 (32 + k % 9) true
  let ls := ((clusterCores k).filter (fun c => (d.core c).placed)).map (fun c => (d.core c).lcore)
  { d6 with pw := { d6.pw with held := if d6.pw.held.contains k then d6.pw.held else k :: d6.pw.held,
                               holdWake := SMap.erase d6.pw.holdWake k },
            tm := { d6.tm with tc := SMap.erase d6.tm.tc k },
            sv := { d6.sv with wdogHeld := d6.sv.wdogHeld ++ ls.filter (fun l => !d6.sv.wdogHeld.contains l) } }

/-- Whether every core of a cluster is in Doze or is a spare: event 2 of Table 15-2. -/
def Dev.allDoze (d : Dev) (k : Nat) : Bool :=
  (clusterCores k).all (fun c => let x := d.core c
    !x.placed || (match x.run with | .run => false | _ => true))

/-- HOLD_REQUEST (R625, R637): the keeper sets HOLD of a cluster. A refused request leaves it 0. Entry goes on once every
core dozes, and with `fail` 0x21 or 0x22 the save is abandoned. DEDUCED, log entry 71. -/
def Dev.holdRequest (d : Dev) (k fail : Nat) : Dev :=
  let g := regionUid (k / 9)
  if 3 ≤ d.power (l2Uid k) then d
  else match d.holdRefused k with
  | some code => (d.setFlag g 0x4300 (k % 9) false).pwrRefuse g (offHold k) code (l2Uid k)
  | none =>
    let d1 := d.setFlag g 0x4300 (k % 9) true
    if d1.allDoze k = false then d1
    else if fail = 0x21 ∨ fail = 0x22 then (d1.setFlag g 0x4300 (k % 9) false).pwrAbort g (offHold k) fail (l2Uid k)
    else d1.holdEnter k

def execHoldRequest (k : Fin 72) (fail : BitVec 8) (s : State) : Host.Outcome State Fault Refusal :=
  onDev (fun d => d.holdRequest k fail.toNat) s

/-- HOLD_EXIT_REQUEST (R626, R639): a wake request. An entry in progress is abandoned; a held cluster's power switches
close, and its time counter is loaded. -/
def Dev.holdWake (d : Dev) (k : Nat) : Dev :=
  let g := regionUid (k / 9)
  if d.power (l2Uid k) = 3 then
    if SMap.get (fun _ => 0) d.pw.holdWake k ≠ 0 then d
    else
      let d1 := (d.setFlag g 0x4300 (k % 9) false).loadCounter k
      { d1 with pw := { d1.pw with holdWake := SMap.set (fun _ => 0) d1.pw.holdWake k (d1.dt + 1) } }
  else if d.flag g 0x4300 (k % 9) ∧ d.power (l2Uid k) < 3 then
    (d.setFlag g 0x4300 (k % 9) false).pwrAbort g (offHold k) 0x20 (l2Uid k)
  else d

def execHoldExitRequest (k : Fin 72) (s : State) : Host.Outcome State Fault Refusal := onDev (fun d => d.holdWake k) s

/-- The watchdogs of a cluster's logical cores restart with their full period (R722). -/
def Dev.wdogRestart (d : Dev) (ls : List Nat) : Dev :=
  { d with sv := { d.sv with wdogHeld := d.sv.wdogHeld.filter (fun l => !ls.contains l),
                             wdogAt := ls.foldl (fun m l => if SMap.get (fun _ => 0) m l = 0 then m else SMap.set (fun _ => 0) m l (d.dt + 1)) d.sv.wdogAt } }

/-- HOLD_EXIT_COMPLETE (R627, R628, R639): 20 µs after the wake the records have been checked and restored. A record that
fails names the cluster, which the keeper treats as fenced. Messages kept for its cores are delivered (R404), and its
units take the epoch in force (R598). -/
def Dev.holdExit (d : Dev) (k : Nat) (crcOk : Bool) : Dev :=
  let w := SMap.get (fun _ => 0) d.pw.holdWake k; let g := k / 9
  if w = 0 ∨ d.dt + 1 < w + 20000 ∨ d.counterValid k = false then d
  else
    let d0 := { d with pw := { d.pw with holdWake := SMap.erase d.pw.holdWake k, held := d.pw.held.filter (fun x => x != k) } }
    if crcOk = false then (d0.raise (regionUid g) ⟨0x0409, 3, 0x4000 + 0x1C000 * (k % 9), l2Uid k, none⟩).loseCluster k
    else
      let d1 := forAll (holdUnits k) (fun u d => d.setPower u 0) d0
      let d2 := forAll (clusterCores k) (fun c d =>
        match (d.core c).run with | .waite | .waitb _ _ => (d.setPower (coreUid c) 1).modCore c (fun x => { x with dozeAt := d.dt }) | _ => d) d1
      let d3 := d2.setFlag (regionUid g) 0x4300 (32 + k % 9) false
      let cs := (clusterCores k).filter (fun c => (d3.core c).placed)
      let d4 := ({ d3 with tr := { d3.tr with resync := d3.tr.resync ++ cs.map (fun (c : CoreId) => c.val) } }).deliverKept k
      (forAll (holdUnits k) (fun u d => d.epCatchUp u) d4).wdogRestart (cs.map (fun c => (d4.core c).lcore))

def execHoldExitComplete (k : Fin 72) (crcOk : Bool) (s : State) : Host.Outcome State Fault Refusal :=
  onDev (fun d => d.holdExit k crcOk) s

/-! Region Off (R630). -/

/-- REGION_OFF_REQUEST (R630): the region is switched off when every cluster is held and nothing is placed in it; its
local stores lose their contents. -/
def Dev.regionOff (d : Dev) (g : Nat) : Dev :=
  let u := regionUid g; let ks := regionClusters g
  if d.flag u 0x4300 48 then d
  else if ks.all (fun k => d.flag u 0x4300 (32 + k % 9)) && ks.all (fun k => (clusterCores k).all (fun c => !(d.core c).placed)) then
    let d1 := (d.setFlag u 0x4300 16 true).setFlag u 0x4300 48 true
    let d2 := forAll ks (fun k d => forAll (clusterCores k) (fun c d => d.clearLocal c)
      (forAll (holdUnits k) (fun x d => d.setPower x 4) d)) d1
    d2.setRail g 0
  else d.pwrRefuse u 0x4248 0x0D u

def execRegionOffRequest (g : Fin 8) (s : State) : Host.Outcome State Fault Refusal := onDev (fun d => d.regionOff g) s

/-- REGION_ON_REQUEST (R639): the rail is commanded to its fallback set point. -/
def Dev.regionOn (d : Dev) (g : Nat) : Dev :=
  let u := regionUid g
  if d.flag u 0x4300 48 ∧ SMap.get (fun _ => 0) d.pw.regionWake g = 0 then
    let d1 := (d.setFlag u 0x4300 16 false).setRail g (d.fallback g)
    { d1 with pw := { d1.pw with regionWake := SMap.set (fun _ => 0) d1.pw.regionWake g (d.dt + 1) } }
  else d.setFlag u 0x4300 16 false

def execRegionOnRequest (g : Fin 8) (s : State) : Host.Outcome State Fault Refusal := onDev (fun d => d.regionOn g) s

/-- REGION_ON_COMPLETE (R630, R639): 200 µs later the clusters come up as after a cluster reset and enter Hold. -/
def execRegionOnComplete (g : Fin 8) (s : State) : Host.Outcome State Fault Refusal :=
  onDev (fun d =>
    let w := SMap.get (fun _ => 0) d.pw.regionWake g
    if w ≠ 0 ∧ w + 200000 ≤ d.dt + 1 then
      let d1 := { d with pw := { d.pw with regionWake := SMap.erase d.pw.regionWake g } }
      let d2 := (forAll (regionClusters g) (fun k d => (d.clusterReset k).holdEnter k) d1).setFlag (regionUid g) 0x4300 48 false
      forAll (regionClusters g) (fun k d => d.setFlag (regionUid g) 0x4300 (k % 9) true) d2
    else d) s

/-! Deep (R631-R635, R390, R694-R696). -/

/-- Why Deep is refused, lowest code first. -/
def Dev.deepRefused (d : Dev) : Option Nat :=
  firstReason
    [(0x06, !d.ep.complete),
     (0x07, iLe (sectBody (imageSects d.kp.image) 0x000E) 1 1 % 2 == 0),
     (0x08, d.kp.released.any (fun p => !d.pw.votes.contains p)),
     (0x09, d.pw.nvBusy),
     (0x0A, d.hbPlaying),
     (0x0B, (List.range 288).any (fun c => d.halted c))]

/-- Every cache unit of the device. -/
def allCaches : List Nat := (List.range 6).flatMap dieCaches

/-- Events 1-3 of Table 15-6: conditions, funnels and caches flushed, registers saved; the keeper fills the retained
digest (R694). DEDUCED, log entry 72. -/
def Dev.deepBegin (d : Dev) : Dev :=
  if d.pw.deep ≠ .run then d
  else match d.deepRefused with
  | some code => d.pwrRefuse hbUid 0x9028 code d.keeperU
  | none =>
    let d1 := forUpto 10 (fun f d => d.flushFunnel f) d
    let d2 := forAll (allCaches.filter (fun u => uidType u == 1)) (fun u d => d.wholeCacheOp u true true) d1
    let d3 := forAll (allCaches.filter (fun u => uidType u != 1)) (fun u d => d.wholeCacheOp u true true) d2
    { d3 with pw := { d3.pw with deep := .entering }, bt := { d3.bt with digest := some d3.bt.residents } }

/-- What the dies lose when their power goes (Table 15-9, column Deep). The channels keep their initialisation state in
self-refresh (R391). -/
def Dev.deepLose (d : Dev) : Dev :=
  let blk := (List.range 12).map (fun c => (c, d.initBlk c, d.mcState c))
  let d1 := d.loseRegs (fun u _ => !alwaysOn u) lostPower
  let d2 := forAll blk (fun e d => (d.setFld (mcUid e.1) 0x4030 9 9 e.2.1).setFld (mcUid e.1) 0x4030 0 2 (if e.2.2 = 2 then 3 else e.2.2)) d1
  let cs := d2.cores.mapFinIdx (fun _ k _ => resetCore k)
  let clr (_ : Nat) (v : Word) : Word := setBits v 50 10 0
  { d2 with
    cores := cs, resv := [], localStore := [], localErr := [], l2 := [], homes := [], evLevel := [], evRot := [], evKept := [],
    routes := SMap.mapVals (fun _ => (0x1F80 : Word)) clr d2.routes,
    tm := { d2.tm with tc := [], noTick := [] },
    pw := { d2.pw with held := [], holdWake := [], napWake := [], regionWake := [], vcoreEn := [], rail := [], railOld := [],
                       railAt := [], wakeAsked := [], hot := [] },
    kp := { d2.kp with released := [], inbox := [], toFence := [], op := 0 },
    au := AudioSt.initial, ep := EpochSt.initial, rm := ⟨[], [], []⟩, nt := NetSt.initial, snaps := [],
    ch := { d2.ch with openRow := [], acts := [] },
    keeperSram := [], regionSram := [],
    sv := { d2.sv with wdogAt := [], wdogHeld := [], crbAt := [], rh := { d2.sv.rh with step := 0, peerAt := 0 } },
    bt := { d2.bt with planDone := false, allAt := 0 } }

/-- Events 4-6 of Table 15-6 and DEEP_CTL.ENTER: channels in self-refresh, the sentinel petted, pads latched, hub and
compute power off. From the keeper-only wake of R635 the device goes back to Deep while every vote stands.
DEDUCED, log entry 72. -/
def Dev.deepEnter (d : Dev) : Dev :=
  let again := d.pw.deep == .exiting && d.pw.keeperOnly && d.pw.deepStep == 3
  if d.pw.deep ≠ .entering ∧ again = false then d
  else
    let d0 := { d with sv := { d.sv with sentAt := d.dt, sentMs := d.fld hbUid 0xA000 0 14 } }
    let d1 := (d0.padLatch).deepLose
    let d2 := { d1 with pw := { d1.pw with deep := .deep, deepStep := 0, keeperOnly := false } }
    d2

def execDeepEnter (s : State) : Host.Outcome State Fault Refusal := onDev (fun d => d.deepEnter) s

/-- Whether DEEP_CTL lets a wake source, numbered as PWR_CAUSE.WAKE, wake the device. -/
def Dev.wakeEnabled (d : Dev) (src : Nat) : Bool :=
  let v := d.reg hbUid 0x9000
  if 1 ≤ src ∧ src ≤ 4 then bit v src
  else if src = 5 then bit v 5
  else if src = 6 then bit v 6 && decide (bits v 24 40 * 2 ^ 20 ≤ d.dt)
  else if src = 7 then bit v 14
  else if src = 8 then bit v 22
  else false

/-- Deep exit begins: event 1 of Table 15-5. -/
def Dev.deepExit (d : Dev) (src : Nat) (keeperOnly : Bool) : Dev :=
  ({ d with pw := { d.pw with deep := .exiting, deepAt := d.dt, deepStep := 1, keeperOnly := keeperOnly } }).setFld hbUid 0x9020 4 4 src

/-- A wake source has become active (R633, R635, R639, R660): an entry before event 4 is abandoned and the digest
discarded; in Deep, exit begins; a keeper-only wake becomes a full one. -/
def Dev.deepWake (d : Dev) (src : Nat) : Dev :=
  if d.wakeEnabled src = false then d
  else match d.pw.deep with
  | .entering =>
    ({ d with pw := { d.pw with deep := .run }, bt := { d.bt with digest := none } }).pwrAbort hbUid 0x9028 0x20 hbUid
  | .deep => d.deepExit src false
  | .exiting => if d.pw.keeperOnly then ({ d with pw := { d.pw with keeperOnly := false } }).setFld hbUid 0x9020 4 4 src else d
  | .run => d

def execDeepWake (src : BitVec 4) (s : State) : Host.Outcome State Fault Refusal := onDev (fun d => d.deepWake src.toNat) s

/-- DEEP_SENTINEL_WAKE (R635): half the sentinel's period since the last pet. -/
def execDeepSentinelWake (s : State) : Host.Outcome State Fault Refusal :=
  onDev (fun d => if d.pw.deep = .deep ∧ d.sv.sentAt + 500000 * d.sv.sentMs ≤ d.dt then d.deepExit 9 true else d) s

/-- Times of the Deep events 1-7 after the wake, in ns (Table 15-5). -/
def deepTimes : List Nat := [0, 200000, 1200000, 1200000, 2200000, 2500000, 8200000]

/-- DEEP_EXIT_STEP (R639, R640): the next event at its time. `ok` says that the event's condition holds: the keeper runs
(3), every rail is valid (5), the pattern check of the channels passes (7). Where it does not, events 3 and 5 end in a
warm reset and event 7 waits for full training. -/
def Dev.deepStepOn (d : Dev) (ok : Bool) : Dev :=
  let n := d.pw.deepStep + 1
  if d.pw.deep ≠ .exiting ∨ 7 < n ∨ d.dt < d.pw.deepAt + deepTimes.getD (n - 1) 0 ∨ (d.pw.keeperOnly ∧ n = 4) then d
  else
    let done (d : Dev) : Dev := { d with pw := { d.pw with deepStep := n } }
    match n with
    | 2 => done (d.padRelease (2 ^ 8))
    | 3 =>
      if ok then
        let stands := d.bt.residents.all (fun r => d.pw.votes.contains r.part)
        let d1 := done { d with sv := { d.sv with sentAt := d.dt, sentMs := d.fld hbUid 0xA000 0 14 } }
        { d1 with pw := { d1.pw with keeperOnly := d1.pw.keeperOnly && stands } }
      else d.warmReset 8
    | 4 => done (forUpto 8 (fun g d => d.setRail g (d.fallback g)) { d with pw := { d.pw with vcoreEn := List.range 8 } })
    | 5 => if ok then done d else d.warmReset 8
    | 6 =>
      let d1 := forUpto 72 (fun k d => forAll (holdUnits k) (fun u d => d.setPower u 3) (d.loadCounter k)) d
      let d2 := forUpto 8 (fun g d => (d.setFld (regionUid g) 0x4300 0 9 0x1FF).setFld (regionUid g) 0x4300 32 9 0x1FF) d1
      done { d2 with pw := { d2.pw with held := List.range 72 } }
    | 7 =>
      if ok then done (forUpto 12 (fun c d =>
        if d.mcState c = 3 then (d.setFld (mcUid c) 0x4030 0 2 2).setFld (mcUid c) 0x4030 2 2 (if d.trainSrc c = 1 then 1 else 3) else d) d)
      else forUpto 12 (fun c d => if d.mcState c = 3 then d.setFld (mcUid c) 0x4030 2 2 1 else d) d
    | _ => d

def execDeepExitStep (ok : Bool) (s : State) : Host.Outcome State Fault Refusal := onDev (fun d => d.deepStepOn ok) s

/-- Whether a resident loader still has the hash of the digest, in every place. -/
def Dev.residentOk (d : Dev) (x : Resident) : Bool :=
  x.places.zipIdx.all (fun y =>
    if 2 ^ 47 ≤ y.1 then true
    else let (_, bs, ok) := d.repRead x.part y.2 y.1 x.len; ok && Config.sha384 bs == x.hash)

/-- FAST_PATH_REHASH (R634, R695, R696): the keeper hashes every resident object in place; `areaOk` says that the Deep-path
code and the keeper area match the digest. With every hash right the device runs on and the partitions are released as at
boot; otherwise the chain is taken from flash, as after a warm reset but with PWR_CAUSE of the Deep exit. A warm reset
asked for in Deep follows (R660). -/
def Dev.fastPath (d : Dev) (areaOk : Bool) : Dev :=
  if d.pw.deep ≠ .exiting ∨ d.pw.deepStep ≠ 7 then d
  else
    let wake := d.fld hbUid 0x9020 4 4
    let d0 := (d.setFld hbUid 0x9020 0 4 7).setFld hbUid 0x9020 8 8 (satInc (d.fld hbUid 0x9020 8 8) 8)
    let good := areaOk && (match d.bt.digest with | some rs => rs.all d.residentOk | none => false)
    if d.pw.warmWaits then d0.warmReset 3
    else if good = false then
      let log := d0.reg hbUid 0xC000
      ((d0.warmReset 7).setFld hbUid 0x9020 4 4 wake).setReg hbUid 0xC000 log
    else
      let d1 := ((d0.measEvent 6 3 0 0xFF).setFlag bootUid 0x4000 7 true).setFld bootUid 0x4000 0 3 3
      let d2 := { d1 with pw := { d1.pw with deep := .run, deepStep := 0, votes := [], holdAsked := [] } }
      let used := (List.range 72).filter (fun k => (clusterCores k).any (fun c => (d2.core c).placed) || d2.sliceServes k || d2.role (l2Uid k) == 0)
      let d3 := forAll used (fun k d => d.wakeSpare k) d2
      let d4 := forAll used (fun k d => forAll (clusterCores k) (fun c d => d.setFlag (coreUid c) 0x4000 3 false) d) d3
      let d5 := forUpto 16 (fun c d => if d.cadEn c then d.cadStart c else d) d4
      let d6 := { d5 with tr := { d5.tr with resync := (List.range 288) } }
      forAll (d6.kp.recs.map (·.part)) (fun p d => d.partitionRelease p) d6

def execFastPathRehash (areaOk : Bool) (s : State) : Host.Outcome State Fault Refusal := onDev (fun d => d.fastPath areaOk) s

/-! Supplies (R646-R648, R794). -/

/-- The bit of SUPPLY_STAT that a rail lowers: rails 0-7 VDD_CORE_n, 8 VDDQ, 9 and 10 VAA_LANE, 11 VAON, 12 VIO, 13
VDD_HUB, 14 VDD_SRAM. -/
def railBit (r : Nat) : Nat :=
  if r < 8 then 5 + r else match r with | 8 => 13 | 9 => 14 | 10 => 14 | 11 => 2 | 12 => 1 | 13 => 3 | _ => 4

/-- Whether a rail of Table 15-7 inhibits non-volatile writes below its inhibit level. DEDUCED, log entry 83. -/
def railInhibits (r : Nat) : Bool := !(r == 8 || r == 9 || r == 10)

/-- Set INHIBIT; an entry is counted. DEDUCED, log entry 68. -/
def Dev.inhibit (d : Dev) : Dev :=
  if d.flag hbUid 0x9030 0 then d else (d.setFlag hbUid 0x9030 0 true).incFld hbUid 0x9030 32 16

/-- INHIBIT clears when no rail is low and the reserve is charged. -/
def Dev.inhibitEnd (d : Dev) : Dev :=
  if d.fld hbUid 0x9030 1 12 = 0 ∧ d.flag hbUid 0x9030 15 then d.setFlag hbUid 0x9030 0 false else d

/-- SUPPLY_MONITOR_TRIP (R646, R794): a rail has been below its inhibit or reset level for 2 µs. DEDUCED, log entry 68.
DEDUCED, log entry 83. -/
def Dev.supplyTrip (d : Dev) (r : Nat) (reset : Bool) : Dev :=
  let d1 := if railInhibits r then (d.setFlag hbUid 0x9030 (railBit r) true).inhibit
            else if reset then d.setFlag hbUid 0x9030 (railBit r) true else d
  if reset = false then d1
  else if r < 8 then (d1.raise hbUid ⟨0x0207, 3, r, regionUid r, none⟩).regionReset r
  else if r = 8 then d1.raise hbUid (Rec.plain 0x0207 4 8)
  else if r ≤ 10 then (forUpto 40 (fun l d => if d.linkState l ≠ 0 then d.linkDown l else d) d1).raise hbUid (Rec.plain 0x0207 2 r)
  else
    let d2 := { d1 with pw := { d1.pw with vcoreEn := [] } }
    if r ≤ 12 then d2.powerOnReset 2 else d2.warmReset 5

def execSupplyMonitorTrip (r : Fin 15) (reset : Bool) (s : State) : Host.Outcome State Fault Refusal :=
  onDev (fun d => d.supplyTrip r reset) s

/-- SUPPLY_MONITOR_RECOVERY (R646): the rail is back above its level. -/
def execSupplyMonitorRecovery (r : Fin 15) (s : State) : Host.Outcome State Fault Refusal :=
  onDev (fun d => (d.setFlag hbUid 0x9030 (railBit r) false).inhibitEnd) s

/-- RESERVE_CHARGED (R648). -/
def execReserveCharged (s : State) : Host.Outcome State Fault Refusal :=
  onDev (fun d => (d.setFlag hbUid 0x9030 15 true).inhibitEnd) s

/-! The journal (R649, R593, R715, R573). -/

/-- Clusters with a fenced core, L2 or L3 slice, but for those that a rehearsal has fenced (R731). -/
def Dev.failedNow (d : Dev) : List Nat :=
  (List.range 72).filter (fun k => (holdUnits k).any d.fenced && !d.sv.rh.clusters.contains k)

/-- JOURNAL_RECORD_WRITE (R649): a record is written whole, when the supply monitors permit. Kinds: 0 the fenced units, 1 the
device marks, 2 the failed clusters, 3 the overlay, 4 the Harebell record, 5 the highest SEQ. -/
def Dev.journal (d : Dev) (kind : Nat) : Dev :=
  if d.nvAllowed = false then d
  else
    let nv := d.nv
    let units := (d.regs.filter (fun e => e.1 % 65536 == 8 && bit e.2 4)).map (fun e => e.1 / 65536)
    let skip (u : Nat) : Bool := match unitKind u with
      | some .core | some .l2 | some .l3 | some .cstop => d.sv.rh.clusters.contains (uidClusterNo u)
      | _ => false
    let nv' : NvSt := match kind with
      | 0 => { nv with fenced := units.filter (fun u => !skip u) }
      | 1 => { nv with marks := (List.range 12).flatMap (fun c => ((List.range 8).filter (fun m => d.flag (mcUid c) (0x4200 + 8 * m) 0)).map
                 (fun m => (c, m, d.fld (mcUid c) (0x4200 + 8 * m) 1 4))) }
      | 2 => { nv with failed := dedupNat (nv.failed ++ d.failedNow) }
      | 3 => { nv with overlay := some ((d.reg bootUid 0x4808).toNat, d.kp.recs, d.rolesNow) }
      | 4 => { nv with hbRec := some (hbRecOffs.map (fun o => d.reg hbUid o)) }
      | _ => if d.fld bootUid 0x4800 16 3 = 0 then { nv with seq := max nv.seq (d.reg bootUid 0x4808).toNat } else nv
    { d with nv := nv' }

def execJournalRecordWrite (kind : Fin 6) (s : State) : Host.Outcome State Fault Refusal := onDev (fun d => d.journal kind) s

/-! Resets (R651-R653, R822, R334). -/

/-- POWER_ON_RESET: PWR_GOOD has gone low. -/
def execPowerOnReset (s : State) : Host.Outcome State Fault Refusal := onDev (fun d => d.powerOnReset 1) s

/-- WARM_RESET: by the WARM_N ball or by the keeper. In Deep, Deep exit runs first (R660). -/
def execWarmReset (byPin : Bool) (s : State) : Host.Outcome State Fault Refusal :=
  onDev (fun d =>
    match d.pw.deep with
    | .deep => if byPin then { d.deepExit 0 false with pw := { (d.deepExit 0 false).pw with warmWaits := true } } else d
    | .exiting => if byPin then { d with pw := { d.pw with warmWaits := true, keeperOnly := false } } else d
    | _ => d.warmReset (if byPin then 3 else 4)) s

/-- FLUSH all of cache units, L2s first. -/
def Dev.flushUnits (d : Dev) (us : List Nat) : Dev :=
  forAll (us.filter (fun u => uidType u == 1) ++ us.filter (fun u => uidType u != 1)) (fun u d => d.wholeCacheOp u true true) d

/-- DIE_RESET by the keeper, which flushes the caches of the die first. -/
def execDieReset (die : Fin 6) (s : State) : Host.Outcome State Fault Refusal :=
  onDev (fun d => (d.flushUnits (dieCaches die)).dieReset die) s

/-- REGION_RESET by the keeper. -/
def execRegionReset (g : Fin 8) (s : State) : Host.Outcome State Fault Refusal :=
  onDev (fun d => (d.flushUnits ((regionClusters g).flatMap (fun k => [l2Uid k, l3Uid k]))).regionReset g) s

/-- CLUSTER_RESET by the keeper. -/
def execClusterReset (k : Fin 72) (s : State) : Host.Outcome State Fault Refusal :=
  onDev (fun d => (d.flushUnits [l2Uid k, l3Uid k]).clusterReset k) s

/-- CORE_RESET by the keeper: the caches that serve the core outlive it. -/
def execCoreReset (c : CoreId) (s : State) : Host.Outcome State Fault Refusal := onDev (fun d => d.coreReset c) s

/-- PARTITION_RESET by the keeper (R651, R652, R822). -/
def execPartitionReset (p : Fin 256) (s : State) : Host.Outcome State Fault Refusal := onDev (fun d => d.partitionReset p) s

/-- POWER_REMOVAL (R621, Table 15-9): class F and the non-volatile contents are all that is left. A non-volatile write in
progress has completed (R648, R649). DEDUCED, log entry 37. -/
def Dev.powerRemoval (d : Dev) : Dev :=
  let keepF := d.loseRegs (fun _ _ => true) (fun c => match c with | .F => false | _ => true)
  let (f, d1) := d.draw
  { Dev.reset with
    freeCnt := d1.freeCnt, resp := d.resp, regs := keepF.regs, nv := d.nv, sent := d.sent,
    ch := { Dev.reset.ch with trained := d.ch.trained }, sv := SurviveSt.initial (BitVec.ofNat 64 f) }

def execPowerRemoval (s : State) : Host.Outcome State Fault Refusal := onDev (fun d => (d.powerRemoval).fenceRestore) s

end Sys2Proof.Machine
end

