-- ==== Sys2Proof/Machine/Survive.lean ====
section
/-!
DEFINITION. Faults and survival (R698-R737): freeing a record, the A-class log, Harebell's command, sentinel, watchdogs,
input filters, Crumble and the nightly rehearsal.
-/
namespace Sys2Proof.Machine

/-- A write of ERR_STATUS: 1 in VALID frees the record, and OVERFLOW, CNT and the rest of its status go with it (R699). -/
def Dev.errStatusWrite (d : Dev) (u : Nat) (v : Word) : Dev := if bit v 0 then d.setReg u 0x2000 0 else d

/-! The A-class error log (R723-R725). -/

/-- Write an entry: bytes 0-13 and 16-23 as given, sequence number, BOOTS and CRC by the log. -/
def Dev.logPut (d : Dev) (a b : List Byte) : Dev × Bool :=
  let c := d.reg hbUid 0xC000
  if bit c 0 && bit c 27 then (d.logLost, false)
  else
    let i := bits c 16 11
    let body := a ++ natLe 2 (d.elogSeq % 65536) ++ b ++ natLe 2 (bits c 48 16) ++ [0, 0]
    let d1 := { d with elog := SMap.set (fun _ => []) d.elog i (body ++ natLe 4 (crc32c body)), elogSeq := d.elogSeq + 1 }
    let d2 := d1.setFld hbUid 0xC000 16 11 (i + 1)
    (if i = 2047 then d2.setFlag hbUid 0xC000 27 true else d2, true)

/-- An entry of a control reaches the log; LOGGED is set in the unit that still holds its record (R700). -/
def Dev.logEntry (d : Dev) (e : LogEnt) : Dev :=
  let a := natLe 8 e.dt ++ natLe 2 e.uid ++ natLe 1 (e.sev + 128 * e.rehearsal.toNat) ++ natLe 1 (e.part.getD 0xFF) ++ natLe 2 e.code
  let (d1, ok) := d.logPut a (natLe 8 e.addr)
  if ok && d1.flag e.uid 0x2000 0 && d1.fld e.uid 0x2008 0 16 == e.code && (d1.reg e.uid 0x2018).toNat == e.dt then
    d1.setFlag e.uid 0x2000 6 true
  else d1

/-- ERROR_LOG_ENTRY (R724): the oldest entry that waits in a die or hub control reaches the log. -/
def Dev.logNext (d : Dev) (die : Nat) : Dev :=
  match d.logQ.find? (fun e => e.die == die) with
  | none => d
  | some e => ({ d with logQ := d.logQ.erase e }).logEntry e

def execErrorLogEntry (die : Fin 6) (s : State) : Host.Outcome State Fault Refusal := onDev (fun d => d.logNext die) s

/-- Every entry that waits reaches the log (R727, operation 8). -/
def Dev.logAll (d : Dev) : Dev := forAll d.logQ (fun e d => d.logEntry e) { d with logQ := [] }

/-- A write of ELOG_IN[i]: the last one commits the entry (R724). -/
def Dev.elogIn (d : Dev) (i : Nat) (v : Word) : Dev :=
  let d1 := d.setReg hbUid (0xC030 + 8 * i) v
  if i = 3 then
    let w (k : Nat) : List Byte := natLe 8 (d1.reg hbUid (0xC030 + 8 * k)).toNat
    (d1.logPut ((w 0 ++ w 1).take 14) (w 2)).1
  else d1

/-- Byte 8i onwards of the entry that ELOG_SEL names. -/
def Dev.elogData (d : Dev) (i : Nat) : Word :=
  BitVec.ofNat 64 (iLe (SMap.get (fun _ => []) d.elog (d.fld hbUid 0xC008 0 11)) (8 * i) 8)

/-! The sentinel (R717-R719). -/

/-- A pet, from the active keeper pair only (R718). A new period takes effect here. -/
def Dev.sentPet (d : Dev) (by_ : Agent) (v : Word) : Dev × Answer :=
  match by_ with
  | .keeper =>
    if bit v 0 then ({ d with sv := { d.sv with sentAt := d.dt, sentMs := d.fld hbUid 0xA000 0 14, expired := false } }, .data [])
    else (d, .data [])
  | _ => (d, .err errNotPermitted)

/-- SENT_STAT.REMAIN. DEDUCED, log entry 73. -/
def Dev.sentRemain (d : Dev) : Nat := min 16383 (d.sv.sentMs - (d.dt - d.sv.sentAt) / 1000000)

/-- SENTINEL_EXPIRY (R717, R719, R683): the period has passed since the last pet. The record is in the log and the latch of
trigger 0 is set before the warm reset; a boot of slot A that has not settled counts in SENT_A. DEDUCED, log entry 73. -/
def Dev.sentExpire (d : Dev) : Dev :=
  if d.bt.strapped = false ∨ d.dt < d.sv.sentAt + 1000000 * d.sv.sentMs then d
  else
    let d1 := (d.incFld hbUid 0xA010 32 16).raise hbUid (Rec.plain 0x0701 4 d.sv.sentMs)
    let d2 := (d1.trigSet 0).logAll
    let d3 := if d2.slotB = false ∧ d2.flag bootUid 0x4008 3 = false then d2.incFld bootUid 0x4008 0 2 else d2
    let d4 := d3.warmReset 6
    { d4 with sv := { d4.sv with expired := true } }

def execSentinelExpiry (s : State) : Host.Outcome State Fault Refusal := onDev (fun d => d.sentExpire) s

/-! Partition watchdogs (R720-R722). -/

/-- Offset of WDOG_CFG[l]. -/
def offWdog (l : Nat) : Nat := 0xD800 + 8 * l

/-- Restart the count of a watchdog, STAGE 0 (R721). -/
def Dev.wdogStart (d : Dev) (l : Nat) : Dev :=
  let d1 := d.setFld mbxU (offWdog l) 36 2 0
  let on := d1.flag mbxU (offWdog l) 0
  { d1 with sv := { d1.sv with wdogAt := SMap.set (fun _ => 0) d1.sv.wdogAt l (if on then d1.dt + 1 else 0) } }

/-- A write of WDOG_CFG[l]. -/
def Dev.wdogCfgWrite (d : Dev) (r : RegRow) (l : Nat) (v : Word) : Dev := (d.regStore mbxU r l v).wdogStart l

/-- Whether the present period of a watchdog has passed: it counts, is not held, and its core is not halted under
HALT_FREEZE. -/
def Dev.wdogDue (d : Dev) (l stage : Nat) : Bool :=
  let a := SMap.get (fun _ => 0) d.sv.wdogAt l
  let frozen := d.flag mbxU (offWdog l) 1 && (d.coresOf l).any (fun c => d.halted c.val)
  d.flag mbxU (offWdog l) 0 && d.fld mbxU (offWdog l) 36 2 == stage && decide (a ≠ 0) && !d.sv.wdogHeld.contains l && !frozen &&
    decide (a + 100000 * d.fld mbxU (offWdog l) 16 20 ≤ d.dt + 1)

/-- WATCHDOG_FIRST_EXPIRY (R721): the vector goes straight to the core's inbox, and the period is counted again. -/
def execWatchdogFirstExpiry (l : Fin 256) (s : State) : Host.Outcome State Fault Refusal :=
  onDev (fun d =>
    if d.wdogDue l 0 then
      let d1 := d.setFld mbxU (offWdog l) 36 2 1
      let d2 := { d1 with sv := { d1.sv with wdogAt := SMap.set (fun _ => 0) d1.sv.wdogAt l (d1.dt + 1) } }
      match (d2.coresOf l).head? with
      | some c => d2.messageCore c (d2.fld mbxU (offWdog l) 8 8) (d2.fld mbxU (offWdog l) 4 4)
      | none => d2
    else d) s

/-- WATCHDOG_SECOND_EXPIRY (R721): record 0x0702 and source 0xA40 + l; the keeper posts a notice, after a partition reset
where ACT asks for one. -/
def execWatchdogSecondExpiry (l : Fin 256) (s : State) : Host.Outcome State Fault Refusal :=
  onDev (fun d =>
    if d.wdogDue l 1 then
      let p := (d.lcorePart l).getD 0
      let d1 := d.setFld mbxU (offWdog l) 36 2 2
      let d2 := { d1 with sv := { d1.sv with wdogAt := SMap.erase d1.sv.wdogAt l } }
      let d3 := (d2.raise (mbxUid (d2.activeHub 11)) ⟨0x0702, 2, l, 0xFFFF, d.lcorePart l⟩).raiseEdge (0xA40 + l)
      (if d3.fld mbxU (offWdog l) 2 2 = 1 then d3.partitionReset p else d3).noticeAll [p]
    else d) s

/-! Input filters (R728). -/

/-- GPIO_FILTER_SETTLE: a new level of a GPIO input has held for its filter time. It reaches the event source by its
polarity, and the wake logic. -/
def execGpioFilterSettle (n : Fin 64) (level : Bool) (s : State) : Host.Outcome State Fault Refusal :=
  onDev (fun d =>
    let a := 0xD000 + 8 * n.val
    if d.flag hbUid a 10 = level then d
    else
      let d1 := (d.setFlag hbUid a 10 level).raiseSource (0x400 + n) (level != d.flag (evcUid 0) (offEvSrc (0x400 + n)) 2)
      let w := d1.reg hbUid 0x9000
      let d2 := if bits w 8 6 = n then d1.deepWake 7 else d1
      if bits w 16 6 = n then d2.deepWake 8 else d2) s

/-- An ALARM_IN input becomes active or inactive: it reaches the event source, Harebell's trigger n + 1 and, when active,
the wake logic. -/
def Dev.alarmSet (d : Dev) (n : Nat) (on : Bool) : Dev :=
  let a := 0xD200 + 8 * n
  if d.flag hbUid a 9 = on then d
  else
    let d1 := (d.setFlag hbUid a 9 on).raiseSource (0x440 + n) (on != d.flag (evcUid 0) (offEvSrc (0x440 + n)) 2)
    let d2 := d1.trigInput (n + 1) on
    if on then d2.deepWake (n + 1) else d2

/-- ALARM_FILTER_SETTLE: a new level of an ALARM_IN input has held for FILT_MS. -/
def execAlarmFilterSettle (n : Fin 4) (level : Bool) (s : State) : Host.Outcome State Fault Refusal :=
  onDev (fun d => d.alarmSet n (level != d.flag hbUid (0xD200 + 8 * n.val) 8)) s

/-- A write of ALARM_CFG[n]: a change of POL makes the present level active or inactive. -/
def Dev.alarmCfgWrite (d : Dev) (r : RegRow) (n : Nat) (v : Word) : Dev :=
  let d1 := d.regStore hbUid r n v
  let a := 0xD200 + 8 * n
  if d.flag hbUid a 8 = d1.flag hbUid a 8 then d1 else d1.alarmSet n (!d1.flag hbUid a 9)

/-! Crumble (R729, R730). -/

/-- Unlock the Crumble of a unit. DEDUCED, log entry 74. -/
def Dev.crumbleUnlock (d : Dev) (u : Nat) : Dev :=
  if d.flag u 0x3000 0 then d
  else
    let d1 := d.setFlag u 0x3000 0 true
    { d1 with sv := { d1.sv with crbAt := SMap.set (fun _ => 0) d1.sv.crbAt u (d1.dt + 1) } }

/-- A write of CRB_KEY: the keeper's value must be RH_KEY, a debugger's may be any (R729, R740). -/
def Dev.crumbleKey (d : Dev) (u : Nat) (debug : Bool) (v : Word) : Dev :=
  if debug ∨ v = d.sv.rhKey then d.crumbleUnlock u else d

/-- Lock the Crumble of a unit and clear its settings. The count of perturbations stays. DEDUCED, log entry 74. -/
def Dev.crumbleLock (d : Dev) (u : Nat) : Dev :=
  let n := d.fld u 0x3000 32 16
  let d1 := (d.setReg u 0x3000 (BitVec.ofNat 64 (0x2710 * 2 ^ 16))).setFld u 0x3000 32 16 n
  let d2 := forAll [0x3010, 0x3018, 0x3020, 0x3028, 0x3030] (fun o d => if (regAt u o).isSome then d.setReg u o 0 else d) d1
  { d2 with sv := { d2.sv with crbAt := SMap.erase d2.sv.crbAt u } }

/-- CRUMBLE_AUTO_LOCK (R730): DURATION ms after it unlocked. -/
def execCrumbleAutoLock (u : BitVec 16) (s : State) : Host.Outcome State Fault Refusal :=
  onDev (fun d =>
    let a := SMap.get (fun _ => 0) d.sv.crbAt u.toNat
    if a ≠ 0 ∧ a + 1000000 * d.fld u.toNat 0x3000 16 16 ≤ d.dt + 1 then d.crumbleLock u.toNat else d) s

/-! The nightly rehearsal (R734-R737). -/

/-- Second of network time. -/
def Dev.netSecond (d : Dev) : Nat := (((d.dt : Int) + signedOf 64 (d.reg hbUid 0x8028).toNat) / 1000000000).toNat

/-- Whether this is the device's second of the day. -/
def Dev.rehSecond (d : Dev) : Bool := d.netSecond % 86400 == 7200 + 300 * (d.ownId % 24)

/-- Enabled groups of a tier, with their partition. -/
def Dev.tierGroups (d : Dev) (tier : Nat) : List (Nat × Nat × Nat) :=
  (List.range 256).flatMap (fun p => ((d.groupsOf p).filter (fun e => d.cgTier e.1 e.2 == tier)).map (fun e => (p, e.1, e.2)))

/-- The clusters of a region that are spares in Hold. -/
def Dev.heldSpares (d : Dev) (g : Nat) : List Nat :=
  (regionClusters g).filter (fun k => d.role (l2Uid k) == 1 && d.power (l2Uid k) == 3 && d.spareUsable k)

/-- Why a night is skipped (R735), lowest reason first. -/
def Dev.rehSkip (d : Dev) : Option Nat :=
  firstReason
    [(1, [1, 2].any (fun t => (d.tierGroups t).any (fun e => (List.range (t + 1)).any (fun r => !bit (d.cgCfg e.2.1 e.2.2) (21 + r))))),
     (2, (List.range 8).any (fun g => d.heldSpares g == [])),
     (3, d.hbPlaying),
     (4, !d.ep.complete || d.kp.op != 0),
     (5, d.sv.realAt != 0 && decide (d.dt + 1 < d.sv.realAt + 3600000000000))]

/-- Sum of the concealment counters of every group (R737). -/
def Dev.concealedSum (d : Dev) : Nat :=
  (List.range 4).foldl (fun n se => (List.range 32).foldl (fun n g => n + d.fld (seUid se) (0x6010 + 32 * g) 16 32) n) 0

/-- Change the rehearsal's own state. -/
def Dev.modReh (d : Dev) (f : RehSt → RehSt) : Dev := { d with sv := { d.sv with rh := f d.sv.rh } }

/-- The rehearsal's outcome: RH_STAT, record 0x0705 or 0x0706 in a record page and in the log, source 0xB43. -/
def Dev.rehReport (d : Dev) (result reason : Nat) : Dev :=
  let d1 := (d.setFld hbUid 0xE000 32 3 result).setFld hbUid 0xE000 40 8 reason
  let d2 := if result = 1 ∨ result = 4 then d1.incFld hbUid 0xE000 48 16 else d1
  let st := (d2.reg hbUid 0xE000).toNat
  let bad := decide (3 ≤ result)
  let (code, sev) := if bad then (0x0706, 2) else (0x0705, 1)
  let d3 := (d2.raise d2.keeperU (Rec.plain code sev st)).raiseEdge 0xB43
  (d3.logPut (natLe 8 d3.dt ++ natLe 2 d3.keeperU ++ natLe 1 sev ++ natLe 1 0xFF ++ natLe 2 code) (natLe 8 st)).1

/-- A cluster that the rehearsal fenced, or brought to Run, is a spare in Hold again. -/
def Dev.spareAgain (d : Dev) (k : Nat) : Dev :=
  if (clusterCores k).any (fun c => (d.core c).placed) then d
  else
    let d1 := forAll (clusterUnits k) (fun u d => (d.setFlag u 8 4 false).setRole u 1) d
    let d2 := { d1 with kp := { d1.kp with lost := d1.kp.lost.filter (fun x => x != k) } }
    if d2.power (l2Uid k) = 3 then d2 else (d2.holdEnter k).setFlag (regionUid (k / 9)) 0x4300 (k % 9) true

/-- The rehearsal ends: its clusters become spares again, its Crumble locks. -/
def Dev.rehEnd (d : Dev) (result reason : Nat) : Dev :=
  let d1 := forAll d.sv.rh.clusters (fun k d => (d.crumbleLock (cstopUid k)).spareAgain k) d
  let d2 := forUpto 4 (fun n d => d.crumbleLock (seUid n)) (forUpto 12 (fun c d => d.crumbleLock (mcUid c)) d1)
  (d2.modReh (fun r => { r with step := 0, abort := 0, clusters := [], cursor := 0, failed := 0, nights := r.nights + 1 })).rehReport result reason

/-- Skip the night. -/
def Dev.rehSkipNight (d : Dev) (reason : Nat) : Dev := (d.modReh (fun r => { r with peerAt := 0 })).rehReport 2 reason

/-- REHEARSAL_START (R734, R735): at the device's second, or when the peer that it waited for has finished. -/
def Dev.rehStart (d : Dev) (peerBusy : Bool) : Dev :=
  let rh := d.sv.rh
  if rh.step ≠ 0 ∨ (rh.peerAt = 0 ∧ d.rehSecond = false) then d
  else if peerBusy then (if rh.peerAt = 0 then d.modReh (fun r => { r with peerAt := d.dt + 1 }) else d)
  else match d.rehSkip with
  | some c => d.rehSkipNight c
  | none =>
    let d1 := d.modReh (fun r => { r with step := 1, at_ := d.dt, peerAt := 0, abort := 0, concealed := d.concealedSum,
                                          clusters := [], failed := 0, cursor := 0 })
    (d1.setFld hbUid 0xE000 0 32 d1.netSecond).setFld hbUid 0xE000 35 4 1

def execRehearsalStart (peerBusy : Bool) (s : State) : Host.Outcome State Fault Refusal := onDev (fun d => d.rehStart peerBusy) s

/-- REHEARSAL_PEER_TIMEOUT (R734). -/
def execRehearsalPeerTimeout (s : State) : Host.Outcome State Fault Refusal :=
  onDev (fun d => if d.sv.rh.peerAt ≠ 0 ∧ d.sv.rh.peerAt + 300000000000 ≤ d.dt + 1 then d.rehSkipNight 6 else d) s

/-- Use a cluster in the rehearsal. -/
def Dev.rehUse (d : Dev) (k : Nat) : Dev :=
  d.modReh (fun r => { r with clusters := if r.clusters.contains k then r.clusters else k :: r.clusters })

/-- A replica's cores start anew and a rejoin rebuilds them. -/
def Dev.rehRejoin (d : Dev) (p ix : Nat) : Dev :=
  (forAll (d.repCores p ix) (fun c d => (d.coreReset c).setFlag (coreUid c) 0x4000 3 false) (d.clearLive p ix)).rejoinStart p ix

/-- Event 1 in a region: its lowest-numbered active cluster whose placed cores are all replicas gives way to the spare. -/
def Dev.rehRotate (d : Dev) (g : Nat) : Dev :=
  let pick (k : Nat) : Bool :=
    let cs := (clusterCores k).filter (fun c => (d.core c).placed)
    d.role (l2Uid k) == 0 && cs != [] && cs.all (fun c => (d.core c).rep != .none)
  match (regionClusters g).find? pick, (d.heldSpares g).head? with
  | some k, some j =>
    let reps := ((clusterCores k).filter (fun c => (d.core c).placed)).map (fun c => ((d.core c).part, repIx (d.core c).rep))
    let d1 := (forAll reps (fun x d => d.clearLive x.1 x.2) (d.rehUse k)).spareTo k j
    forAll reps (fun x d => if (d.rejoinOf x.1).isSome then d else d.rehRejoin x.1 x.2) (d1.spareAgain k)
  | _, _ => d

/-- Mask of the class 1 ports of a mesh stop. -/
def class1Ports (u : Nat) : Nat := (List.range 7).foldl (fun m p => if (port u p).2 = 1 ∧ (port u p).1 ≠ 0xFFFF then m + 2 ^ p else m) 0

/-- Set the Crumble of a cluster's mesh stop to perturb class 1 ports. -/
def Dev.rehPerturb (d : Dev) (k ports hs : Nat) : Dev :=
  let u := cstopUid k
  let d1 := (d.crumbleUnlock u).setFlag u 0x3000 1 true
  (d1.setReg u 0x3010 (BitVec.ofNat 64 ports)).setReg u 0x3018 (BitVec.ofNat 64 hs)

/-- Number of parts of a step of Table 17-11. -/
def Dev.rehParts (d : Dev) (step : Nat) : Nat :=
  match step with
  | 1 => 8
  | 2 => 2
  | 3 => (d.tierGroups 2).length
  | 4 => (dedupNat ((d.tierGroups 1).map (·.1))).length
  | 5 => 2
  | 6 => 12
  | _ => 0

/-- One part of a step. Whether it succeeded is `good`, but for the checks that the device itself makes. -/
def Dev.rehPart (d : Dev) (step i : Nat) : Dev × Bool :=
  match step with
  | 1 => (d.rehRotate i, true)
  | 2 =>
    let ps := dedupNat (((d.tierGroups 1) ++ (d.tierGroups 2)).map (·.1))
    let ks := dedupNat (ps.flatMap (fun p => (d.repClusters p 0).take 1))
    if i = 0 then (forAll ks (fun k d => d.rehPerturb k (class1Ports (cstopUid k)) (d.fld (cstopUid k) 0x1100 0 20 / 4 + 8 * 2 ^ 16)) d, true)
    else (d, ks.all (fun k => !d.flag (cstopUid k) 0x3000 0))
  | 3 =>
    match (d.tierGroups 2)[i]? with
    | none => (d, true)
    | some (p, se, g) =>
      let r := d.sv.rh.nights % 3; let u := seUid se
      let d1 := ((d.crumbleUnlock u).setFlag u 0x3000 1 true).setReg u 0x3030 (BitVec.ofNat 64 (g + 32 * r + 256))
      (forAll (d.repClusters p r) (fun k d => d.rehUse k) d1, true)
  | 4 =>
    match (dedupNat ((d.tierGroups 1).map (·.1)))[i]? with
    | none => (d, true)
    | some p => (d.rehRejoin p (d.sv.rh.nights % 2), true)
  | 5 =>
    if i = 0 then
      match (List.range 8).findSome? (fun g => (d.heldSpares g).head?) with
      | none => (d, false)
      | some k => (((d.rehUse k).wakeSpare k).rehPerturb k (class1Ports (cstopUid k) % 2 ^ 4) (2 ^ 48), true)
    else
      let ks := d.sv.rh.clusters.filter (fun k => d.flag (cstopUid k) 0x3018 48)
      (forAll ks (fun k d => (d.crumbleLock (cstopUid k)).spareAgain k) d,
       ks.all (fun k => d.reg (cstopUid k) 0x1008 != 0))
  | 6 =>
    if d.mcState i ≠ 2 ∨ d.capacity i = 0 then (d, true)
    else
      let u := mcUid i
      let d1 := ((d.crumbleUnlock u).setFlag u 0x3000 1 true).setReg u 0x3028 0
      let d2 := d1.setReg u 0x3020 (BitVec.ofNat 64 (2 ^ 10 + 2 ^ 27))
      let was := d.fld u 0x4020 0 24
      match d2.mcRead i 0 1 true with
      | (d3, .ok s) =>
        let d4 := ((d3.mcWrite i 0 s []).1.mcRead i 0 1 true).1
        ((d4.mcWrite i 0 s []).1.crumbleLock u, d4.fld u 0x4020 0 24 != was || d4.fld u 0x4020 0 24 == 0xFFFFFF)
      | (d3, .error _) => (d3.crumbleLock u, false)
  | _ => (d, true)

/-- REHEARSAL_STEP (R736, R737): the present part completes and the next begins; `good` says that what had to follow it
(an outvote, a rejoin) came about. Nothing begins while a rejoin is in progress. A real record or a concealment aborts
the rehearsal; 240 s after its start the steps not reached are skipped. -/
def Dev.rehStep (d : Dev) (good : Bool) : Dev :=
  let rh := d.sv.rh
  if rh.step = 0 ∨ d.au.rejoins ≠ [] then d
  else if rh.abort ≠ 0 then d.rehEnd 3 (rh.abort - 1)
  else if rh.concealed < d.concealedSum then d.rehEnd 3 0x03
  else if rh.at_ + 240000000000 ≤ d.dt ∨ 7 ≤ rh.step then (if rh.failed = 0 then d.rehEnd 1 0 else d.rehEnd 4 0x06)
  else if rh.cursor < d.rehParts rh.step then
    let (d1, ok) := d.rehPart rh.step rh.cursor
    d1.modReh (fun r => { r with cursor := r.cursor + 1, failed := if ok ∧ good then r.failed else r.failed + 1 })
  else
    (d.modReh (fun r => { r with step := r.step + 1, cursor := 0, failed := if good then r.failed else r.failed + 1 })).setFld hbUid 0xE000 35 4
      (rh.step + 1)

def execRehearsalStep (good : Bool) (s : State) : Host.Outcome State Fault Refusal := onDev (fun d => d.rehStep good) s

end Sys2Proof.Machine
end

