-- ==== Sys2Proof/Machine/Debug.lean ====
section
/-!
DEFINITION. Pufort debug (R738-R772): test access port, unlocking, run control, debug bus master, virtual terminal. The
results of debug accesses are the statuses of Table 18-3.
-/
namespace Sys2Proof.Machine

/-! The test access port (R739). The data of a boundary scan are the board's. -/

/-- Load the instruction register. DEDUCED, log entry 76. -/
def Dev.tap (d : Dev) (ir : Nat) : Dev := { d with db := { d.db with ir := ir } }

/-- TAP_EXTEST: only in bench mode, otherwise BYPASS. -/
def execTapExtest (s : State) : Host.Outcome State Fault Refusal := onDev (fun d => d.tap (if d.bench then 0 else 0xFF)) s
/-- TAP_SAMPLE_PRELOAD. -/
def execTapSamplePreload (s : State) : Host.Outcome State Fault Refusal := onDev (fun d => d.tap 1) s
/-- TAP_DBGACC: selects the 128-bit register that carries one debug access. -/
def execTapDbgacc (s : State) : Host.Outcome State Fault Refusal := onDev (fun d => d.tap 0x20) s
/-- TAP_BYPASS: BYPASS, or any instruction that Table 18-1 does not list. -/
def execTapBypass (s : State) : Host.Outcome State Fault Refusal := onDev (fun d => d.tap 0xFF) s

/-! Levels (R743-R748). -/

/-- The level in effect of a partition: 0 none, 1 observe, 2 full. -/
def Dev.dbgLevel (d : Dev) (p : Nat) : Nat := if d.bench then 2 else d.fld dbgUid (0x5400 + 8 * p) 0 2
/-- The highest level in effect of any partition. -/
def Dev.dbgMax (d : Dev) : Nat := (List.range 256).foldl (fun m p => max m (d.dbgLevel p)) 0
/-- Whether the record of a partition grants "intrusive in service". -/
def Dev.intrusive (d : Dev) (p : Nat) : Bool := d.flag dbgUid (0x5400 + 8 * p) 4
/-- The level for a core: that of the partition that it runs; a core that runs none is reached in bench mode only. -/
def Dev.coreLevel (d : Dev) (c : CoreId) : Nat :=
  if d.bench then 2 else if (d.core c).placed then d.dbgLevel (d.core c).part else 0

/-- Bytes of `n` doublewords of the debug domain control. -/
def Dev.dbgBytes (d : Dev) (off n : Nat) : List Byte := (List.range n).flatMap (fun i => natLe 8 (d.reg dbgUid (off + 8 * i)).toNat)

/-- Put a nonce into DBG_CHAL. -/
def Dev.setNonce (d : Dev) (bs : List Byte) : Dev :=
  forUpto 4 (fun i d => d.setReg dbgUid (0x5000 + 8 * i) (BitVec.ofNat 64 (iLe bs (8 * i) 8))) d

/-- UNLOCK_NEWCHAL (R744): a new nonce from the entropy source. -/
def Dev.newChallenge (d : Dev) : Dev := let (x, d1) := d.draw; d1.setNonce (natLe 32 x)

/-- UNLOCK_GO (R744, R745): the verification starts; the nonce is consumed. DEDUCED, log entry 75. -/
def Dev.unlockGo (d : Dev) (v : Word) : Dev :=
  let u : Unlock := ⟨d.dt, d.dbgBytes 0x5000 4, bits v 2 8, bits v 10 2, d.dbgBytes 0x5100 12, d.dbgBytes 0x5200 12⟩
  (({ d with db := { d.db with unlock := some u } }).setNonce (List.replicate 32 0)).setFld dbgUid 0x5020 13 2 1

/-- UNLOCK_RELOCK (R747): back to level none, but not in bench mode. -/
def Dev.relock (d : Dev) (p : Nat) : Dev := if d.bench then d else d.levelTo p 0

/-- A write of DBG_UNLK_CTL. DEDUCED, log entry 75. -/
def Dev.unlkCtlWrite (d : Dev) (r : RegRow) (v : Word) : Dev :=
  let d1 := d.regStore dbgUid r 0 v
  let d2 := if bit v 0 then d1.newChallenge else d1
  let d3 := if bit v 12 then d2.relock (bits v 2 8) else d2
  if bit v 1 then d3.unlockGo v else d3

/-- The hash of the Debug keys entry that a partition's record names (Table 13-11). -/
def Dev.debugKey (d : Dev) (p : Nat) : Option Nat :=
  match d.recOf p with
  | none => none
  | some r =>
    let b := sectBody (imageSects d.kp.image) 0x000D
    ((entries 0 64 (b.length / 64)).find? (fun o => iLe b o 1 == r.debug / 8 % 8)).map (fun o => beNat ((b.drop (o + 16)).take 48))

/-- UNLOCK_VERIFIED (R745, R746): the level is granted or refused, and MEAS_7 extended. -/
def Dev.unlockDone (d : Dev) : Dev :=
  match d.db.unlock with
  | none => d
  | some u =>
    let d1 := { d with db := { d.db with unlock := none } }
    let msg := u.nonce ++ natLe 8 Config.serial.toNat ++ natLe 1 u.part ++ natLe 1 u.level ++ natLe 6 ((d.reg bootUid 0x4808).toNat % 2 ^ 48)
    let ok := decide (u.nonce ≠ List.replicate 32 0) && (u.level == 1 || u.level == 2) &&
      d.debugKey u.part == some (Config.sha384 u.key) && decide (u.level ≤ d.fld dbgUid (0x5400 + 8 * u.part) 2 2) &&
      Config.ecdsaVerify u.key (Config.sha384 msg) u.sig
    if ok then ((if d1.bench then d1 else d1.levelTo u.part u.level).measEvent 7 (1 + u.level) u.part 0xFF).setFld dbgUid 0x5020 13 2 2
    else (d1.measEvent 7 4 u.part 0xFF).setFld dbgUid 0x5020 13 2 3

def execUnlockVerified (s : State) : Host.Outcome State Fault Refusal := onDev (fun d => d.unlockDone) s

/-! Run control (R749-R766). -/

/-- Whether another replica of a core's partition is live. -/
def Dev.otherLive (d : Dev) (k : Core) : Bool := (d.liveReps k.part).any (fun r => r != repIx k.rep)

/-- CDBG_HALT (R749, R754, R760, R762): post a halt request; the status of a refusal, `none` while it is posted. A core in
Nap leaves it. -/
def Dev.haltRequest (d : Dev) (c : CoreId) : Dev × Option Nat :=
  let k := d.core c; let u := coreUid c
  let safety := match d.recOf k.part with | some r => r.flags / 8 % 2 == 1 | none => false
  if d.halted c.val then (d, some 0)
  else if k.placed && k.rep != .none && !d.otherLive k && !d.intrusive k.part then (d, some 1)
  else if k.placed && k.rep == .none && safety && !d.intrusive k.part then (d, some 1)
  else
    let d1 := (d.setFlag u 0xF010 1 true)
    let d2 := { d1 with db := { d1.db with haltAt := SMap.set (fun _ => 0) d1.db.haltAt c (d1.dt + 1) } }
    let d3 := if d2.power u = 2 ∧ SMap.get (fun _ => 0) d2.pw.napWake c = 0 then
        { d2 with pw := { d2.pw with napWake := SMap.set (fun _ => 0) d2.pw.napWake c (d2.dt + 1) } } else d2
    (d3, none)

/-- The response frame of a debug access (Table 18-2). -/
def debugFrame (status : Nat) (data : Nat) : Answer := .data (natLe 8 (status % 256) ++ natLe 8 data)

/-- HALT_TAKEN (R749): the core reaches a boundary at which a halt may be taken. A divide in progress is abandoned, unless
it was abandoned before (R244). DEDUCED, log entry 32. -/
def Dev.haltTaken (d : Dev) (c : CoreId) (inDivide : Bool) : Dev :=
  let k := d.core c; let u := coreUid c
  let up := match k.run with | .reset => false | _ => true
  if d.flag u 0xF010 1 = false ∨ up = false ∨ 2 ≤ d.power u ∨ k.staged ≠ [] ∨ (inDivide ∧ k.pc ∈ k.abandoned) then d
  else
    let d0 := if SMap.get (fun _ => 0) d.db.haltAt c = 0 then d else d.answer (debugFrame 0 0)
    (d0.haltNow c 1 0).modCore c (fun x => { x with abandoned := if inDivide then x.pc :: x.abandoned else x.abandoned })

def execHaltTaken (c : CoreId) (inDivide : Bool) (s : State) : Host.Outcome State Fault Refusal :=
  onDev (fun d => d.haltTaken c inDivide) s

/-- HALT_UNRESPONSIVE (R753): the class 5 bound has passed; the request stays posted. -/
def execHaltUnresponsive (c : CoreId) (s : State) : Host.Outcome State Fault Refusal :=
  onDev (fun d =>
    let a := SMap.get (fun _ => 0) d.db.haltAt c
    if a ≠ 0 ∧ d.flag (coreUid c) 0xF010 1 ∧ a + 8 * d.fld dbgUid 0x1000 0 20 ≤ d.dt + 1 then
      ({ d with db := { d.db with haltAt := SMap.erase d.db.haltAt c } }).answer (debugFrame 2 0)
    else d) s

/-- The watchdog of a core that was frozen starts anew (R763). -/
def Dev.thawWatchdog (d : Dev) (c : CoreId) : Dev :=
  let l := (d.core c).lcore
  if (d.core c).placed ∧ d.flag mbxU (offWdog l) 1 then d.wdogStart l else d

/-- A halted core runs on from where it stands. -/
def Dev.runOn (d : Dev) (c : CoreId) : Dev :=
  let d1 := (d.thawWatchdog c).endHalt c
  { d1 with db := { d1.db with skipCmp := c.val :: d1.db.skipCmp } }

/-- CDBG_RESUME (R751, R761): a withdrawn replica with a live sibling is rebuilt by a rejoin; one without runs on, and its
LIVE bits are set for the next block. -/
def Dev.resume (d : Dev) (c : CoreId) : Dev :=
  let k := d.core c; let p := k.part; let ix := repIx k.rep
  if d.halted c.val = false then d
  else if k.placed && k.rep != .none && d.db.withdrawn.contains (p, ix) then
    if d.otherLive k then
      let cs := d.repCores p ix
      let d1 := forAll cs (fun (x : CoreId) d => ((d.endHalt x.val).coreReset x).setFlag (coreUid x) 0x4000 3 false) d
      if (d1.rejoinOf p).isSome then d1 else d1.rejoinStart p ix
    else
      let d1 := d.runOn c
      let d2 := forAll (d1.repCores p ix) (fun (x : CoreId) d => d.setFlag (coreUid x) 0xF010 6 false) d1
      let d3 := { d2 with db := { d2.db with withdrawn := d2.db.withdrawn.filter (fun x => x != (p, ix)) } }
      forAll (d3.groupsOf p) (fun e d => d.setLive e.1 e.2 (bits (d.cgCfg e.1 e.2) 21 3 ||| 2 ^ ix) (d.liveFrom (d.cgCad e.1 e.2))) d3
  else d.runOn c

/-- CDBG_STEP and CDBG_STEP_REGION (R751): the core runs until the end of the step. -/
def Dev.stepCore (d : Dev) (c : CoreId) (kind : Nat) : Dev :=
  let d1 := (d.setFld (coreUid c) 0xF010 0 6 0).setFld (coreUid c) 0xF010 8 7 0
  { d1 with db := { d1.db with stepping := SMap.set (fun _ => 0) d1.db.stepping c kind, skipCmp := c.val :: d1.db.skipCmp } }

/-- A write of CDBG_CMD: the status, `none` while a halt request is posted. DEDUCED, log entry 87. -/
def Dev.cdbgCmd (d : Dev) (c : CoreId) (cmd : Nat) : Dev × Option Nat :=
  match cmd with
  | 1 => d.haltRequest c
  | 2 => if d.halted c.val then (d.resume c, some 0) else (d, some 4)
  | 3 => if d.halted c.val then (d.stepCore c 1, some 0) else (d, some 4)
  | 4 => if d.halted c.val then (d.stepCore c 2, some 0) else (d, some 4)
  | _ => (d.raise (coreUid c) (Rec.plain 0x0101 1 0xF000), some 0)

/-- CDBG_PCS: the PC of the last instruction retired; 0 while halted or in Doze. -/
def Dev.pcSample (d : Dev) (c : CoreId) : Word :=
  if d.halted c.val then 0 else match (d.core c).run with | .run => (d.core c).lastPc | _ => 0

/-! The debug bus master (R767-R769). -/

/-- A write of DBM_CTL; false when it is refused with status 0x4. -/
def Dev.dbmCtlWrite (d : Dev) (r : RegRow) (v : Word) : Dev × Bool :=
  if bit v 0 ∧ d.flag dbgUid 0x6010 0 then (d, false)
  else
    let d1 := d.regStore dbgUid r 0 v
    if bit v 0 then
      let j : DbmJob := ⟨d1.reg dbgUid 0x6000, d1.fld dbgUid 0x6008 0 48, d1.dbgBytes 0x6040 8⟩
      (({ d1 with db := { d1.db with dbm := some j } }).setReg dbgUid 0x6010 1, true)
    else (d1, true)

/-- What an address is to the debug bus master, for a partition and replica: the window's replica index and whether it is
private, or the local store of a core. -/
inductive DbmPlace where
  | window (ix : Nat) (priv : Bool) (rights : Nat)
  | local_ (c : CoreId)
  | none
  deriving DecidableEq, Repr

/-- Find the place of an address (R767). -/
def Dev.dbmPlace (d : Dev) (p rep pa n : Nat) : DbmPlace :=
  match d.recOf p with
  | .none => .none
  | .some r =>
    if (r.tier = 0) ≠ (rep = 0) ∨ r.tier + 1 < rep then .none
    else
      let ix := rep - 1
      if 0xE00000000000 ≤ pa ∧ pa < 0xE00012000000 then
        let c := coreId ((pa - 0xE00000000000) / 2 ^ 20)
        let k := d.core c
        if k.placed && k.part == p && repCode k.rep == rep && decide (pa % 2 ^ 20 + n ≤ 131072) then .local_ c else .none
      else match r.wins.find? (fun w => let s := w.span ix; decide (s.1 ≤ pa) && decide (pa + n ≤ s.1 + s.2)) with
        | .some w => if inRemote pa ∨ 0xF00000000000 ≤ pa then .none else .window ix (!w.shared) w.rights
        | .none => .none

/-- Perform the read or write of the debug bus master at a physical address; bytes, or an error code. -/
def Dev.dbmMove (d : Dev) (p ix pa n : Nat) (write : Option (List Byte)) : Dev × Except Nat (List Byte) :=
  if 0xE00000000000 ≤ pa ∧ pa < 0xE00012000000 then
    let c := (pa - 0xE00000000000) / 2 ^ 20; let off := pa % 2 ^ 20
    match write with
    | some bs =>
      let (d1, r) := d.lsWrite c off bs
      (d1.loseResv pa n none, match r with | .ok _ => .ok [] | .error e => .error e)
    | none => d.lsRead c off n
  else
    let rq := if ix < 3 then d.repRq p ix else engRq
    match write with
    | some bs =>
      let (d1, r) := d.homeStore rq pa bs
      ((d1.loseResv pa n none).noteWrite p (match d.recOf p with | some x => repAt x.tier ix | none => .none) pa,
        match r with | .ok _ => .ok [] | .error e => .error e)
    | none =>
      match d.homeLoad rq (pa / 64 * 64) with
      | (d1, .ok s) => (d1, .ok (secBytes s (pa % 64) n))
      | (d1, .error e) => (d1, .error e)

/-- DBM_DONE (R767-R769, R707): the access ends and DBM_STAT records its result. -/
def Dev.dbmDone (d : Dev) : Dev :=
  match d.db.dbm with
  | none => d
  | some j =>
    let wr := bit j.ctl 1; let n := if bit j.ctl 2 then 64 else 8
    let p := bits j.ctl 5 8; let rep := bits j.ctl 13 2; let kmode := bit j.ctl 15 && d.bench
    let pa := j.addr / n * n
    let d1 := { d with db := { d.db with dbm := none } }
    let d2 := if bit j.ctl 4 then d1.setFld dbgUid 0x6008 0 48 (j.addr + n) else d1
    let data := if wr then some (j.data.take n) else none
    let finish (d : Dev) (r : Nat) (code : Nat) : Dev := d.setReg dbgUid 0x6010 (BitVec.ofNat 64 (2 * r + 256 * code))
    let move (ix : Nat) : Dev :=
      match d2.dbmMove p ix pa n data with
      | (d3, .error e) =>
        finish (if e = errPoisoned ∧ !wr then d3.raise dbgUid ⟨0x0307, 2, pa, 0xFFFF, some p⟩ else d3) 2 e
      | (d3, .ok bs) =>
        finish (if wr then d3 else forUpto (n / 8) (fun i d => d.setReg dbgUid (0x6040 + 8 * i) (BitVec.ofNat 64 (iLe bs (8 * i) 8))) d3) 0 0
    if j.addr % n ≠ 0 then finish d2 1 0
    else if kmode then move 3
    else match d2.dbmPlace p rep pa n with
    | .none => finish d2 1 0
    | .window ix priv rights =>
      if (if wr then rights / 2 % 2 else rights % 2) = 0 then finish d2 1 0
      else if wr && priv && rep != 0 && d2.repLive p ix && !d2.intrusive p then finish d2 3 0
      else move ix
    | .local_ c =>
      if wr && rep != 0 && d2.repLive p (rep - 1) && !d2.intrusive p then finish d2 3 0 else move (repIx (d2.core c).rep)

def execDbmDone (s : State) : Host.Outcome State Fault Refusal := onDev (fun d => d.dbmDone) s

/-! The virtual terminal (R770-R772). -/

/-- Offset of VT_OUT[p]; VT_IN[p] follows. -/
def offVt (p : Nat) : Nat := 0x4000 + 16 * p

/-- Store bytes in VT_OUT or VT_IN and set FULL; COUNT 0 is reserved. -/
def Dev.vtStore (d : Dev) (off : Nat) (v : Word) : Dev :=
  if bits v 56 3 = 0 then d.raise dbgUid (Rec.plain 0x0101 1 off)
  else d.setReg dbgUid off (BitVec.ofNat 64 (bits v 0 59 + 2 ^ 63 + 2 ^ 60 * d.fld dbgUid off 60 1))

/-- Empty VT_OUT or VT_IN. -/
def Dev.vtEmpty (d : Dev) (off : Nat) : Dev := (d.setFlag dbgUid off 63 false).setFlag dbgUid off 62 true

/-- VT_OUT_WRITE (R771): a partition's write; discarded with OVERRUN while full. -/
def Dev.vtOutWrite (d : Dev) (p : Nat) (v : Word) : Dev :=
  let o := offVt p
  if d.flag dbgUid o 63 then d.setFlag dbgUid o 60 true else d.vtStore o v

/-- VT_OUT_EMPTY (R771): the debugger's write: 1 in FULL empties, 1 in OVERRUN clears it. -/
def Dev.vtOutDebug (d : Dev) (p : Nat) (v : Word) : Dev :=
  let d1 := if bit v 60 then d.setFlag dbgUid (offVt p) 60 false else d
  if bit v 63 then d1.vtEmpty (offVt p) else d1

/-- VT_IN_WRITE (R772): the debugger's write; false when it is refused with status 0x4. -/
def Dev.vtInDebug (d : Dev) (p : Nat) (v : Word) : Dev × Bool :=
  let o := offVt p + 8
  if d.flag dbgUid o 63 then (d, false) else (d.vtStore o v, true)

/-- VT_IN_EMPTY (R772): the partition's write of 1 to FULL. -/
def Dev.vtInWrite (d : Dev) (p : Nat) (v : Word) : Dev := if bit v 63 then d.vtEmpty (offVt p + 8) else d

/-! The reset of the debug domain (R651, R747, R766). -/

/-- DEBUG_DOMAIN_RESET: every halted core resumes, withdrawn replicas are rebuilt, every unlock, comparator and session is
cleared; the grants are the image's. DEDUCED, log entry 76. -/
def Dev.debugReset (d : Dev) : Dev :=
  let halted := (List.range 288).filter (fun c => d.halted c)
  let d1 := forAll halted (fun c d => if d.halted c then d.resume (coreId c) else d) d
  let d2 := d1.loseRegs (fun _ _ => true) lostDebug
  ({ d2 with db := { DbgSt.initial with seq := d2.db.seq }, tr := { d2.tr with fifo := [], drops := [], closing := [] } }).writeGrants

def execDebugDomainReset (s : State) : Host.Outcome State Fault Refusal := onDev (fun d => d.debugReset) s

end Sys2Proof.Machine
end

