-- ==== Sys2Proof/Machine/Ctrl.lean ====
section
/-!
DEFINITION. The control registers of a core (R153-R164): levels, what a read returns, when a write takes effect; the
counters.
-/
namespace Sys2Proof.Machine

/-- Indices of Table 3-10 that are named below. -/
def ixAstat : Nat := 0x000
def ixTime : Nat := 0x001
def ixCtrCfg : Nat := 0x008
def ixStatus : Nat := 0x100
def ixTbase : Nat := 0x106
def ixAsid : Nat := 0x107
def ixCorectl : Nat := 0x108

/-- Whether Table 3-10 lists an index. -/
def ctrlListed (i : Nat) : Bool :=
  i == 0 || i == 1 || (decide (8 ≤ i) && decide (i ≤ 0x0B)) || (decide (0x10 ≤ i) && decide (i ≤ 0x1F)) ||
    (decide (0x100 ≤ i) && decide (i ≤ 0x109))

/-- The level that a core runs at: S, or U (S_STATUS.PRIV). -/
def Core.priv (k : Core) : Priv := if bits k.sStatus 0 2 = 0 then .u else .s
/-- Whether a core runs a replica. -/
def Core.replica (k : Core) : Bool := k.placed && k.rep != .none
/-- Deterministic mode in effect (R212). A replica never leaves it. -/
def Core.dmode (k : Core) : Bool := k.replica || bit k.sCorectl 1
/-- BP_OFF in effect. -/
def Core.bpOff (k : Core) : Bool := bit k.sCorectl 0

/-- Whether the level of a core suffices for a read or a write of a control register. -/
def Core.ctrlMay (k : Core) (i : Nat) (write : Bool) : Bool :=
  if k.priv = .s then true
  else if i ≤ 1 then true
  else if 9 ≤ i ∧ i ≤ 0x0B then bit k.ctrCfg 8
  else if 0x10 ≤ i ∧ i ≤ 0x17 then !write && bit k.ctrCfg (i - 0x10)
  else false

/-- The bits of a control register that a write changes (its RW fields). -/
def ctrlMask (i : Nat) : Nat :=
  if i = 0 then 0x303
  else if i = 8 then 0x101FF
  else if 0x10 ≤ i ∧ i ≤ 0x17 then 2 ^ 48 - 1
  else if 0x18 ≤ i ∧ i ≤ 0x1F then 0x7FF
  else match i with
    | 0x100 => 0xFF3C
    | 0x101 => 2 ^ 64 - 4
    | 0x102 => 0xFFFFFFFF001FFFFF
    | 0x103 | 0x105 => 2 ^ 64 - 1
    | 0x104 => 2 ^ 64 - 2 ^ 12
    | 0x106 => 2 ^ 48 - 2 ^ 12 + 1
    | 0x107 => 0xFFF
    | 0x108 => 3
    | _ => 0

/-- Whether a write is to a staged register (Table 3-10). -/
def ctrlStaged (i : Nat) : Bool := i == 0x106 || i == 0x107 || i == 0x108
/-- Whether a write is of the "after SYNC.C" class. -/
def ctrlAfterSync (i : Nat) : Bool := i == 8 || (decide (0x18 ≤ i) && decide (i ≤ 0x1F))

/-- The value in effect of a register that a core stores. -/
def Core.ctrlStored (k : Core) (i : Nat) : Word :=
  if i = 8 then k.ctrCfg
  else if 0x10 ≤ i ∧ i ≤ 0x17 then BitVec.ofNat 64 ((k.pmc.toList.getD (i - 0x10) 0))
  else if 0x18 ≤ i ∧ i ≤ 0x1F then k.pmcSel.toList.getD (i - 0x18) 0
  else match i with
    | 0x000 => k.astat
    | 0x009 => BitVec.ofNat 64 k.stepCnt
    | 0x00A => BitVec.ofNat 64 k.retCnt
    | 0x00B => BitVec.ofNat 64 k.wpfCnt
    | 0x100 => k.sStatus
    | 0x101 => k.sEpc
    | 0x102 => k.sCause
    | 0x103 => k.sFaddr
    | 0x104 => k.sEvbase
    | 0x105 => k.sScratch
    | 0x106 => k.sTbase
    | 0x107 => k.sAsid
    | 0x108 => setBit k.sCorectl 1 k.dmode
    | _ => 0

/-- The value most recently written to a staged register (R157). -/
def Core.ctrlLatest (k : Core) (i : Nat) : Word :=
  match (k.staged.filter (fun s => s.idx == i)).getLast? with
  | some s => if i = 0x108 then setBit s.val 1 (k.replica || bit s.val 1) else s.val
  | none => k.ctrlStored i

/-- S_CORESTAT. -/
def Core.coreStat (k : Core) : Word :=
  BitVec.ofNat 64 (at_ k.lcore 0 8 + at_ k.part 8 8 + at_ k.replica.toNat 16 1 + at_ k.tier 17 2 + at_ k.dmode.toNat 19 1)

/-- TIME (R160, R475): DT, or in a replica the start of the block that its latest WAITB returned.
DESIGN CHOICE, log entry 31. -/
def Dev.timeOf (d : Dev) (k : Core) : Word :=
  if k.replica = false then BitVec.ofNat 64 d.dt
  else match k.lastCad with
    | some c => BitVec.ofInt 64 (d.dtStart c ((SMap.get (fun _ => 0) k.lastBlk (256 + c) - 1 : Nat) : Int))
    | none => match d.recOf k.part with
      | some r => BitVec.ofInt 64 (d.dtStart r.firstCad (((SMap.get (fun _ => 0) k.lastBlk r.firstCad : Nat) : Int) - 1))
      | none => 0

/-- What a read of a control register returns; in a replica the counters read as 0 but to a debugger (R163). -/
def Dev.ctrlRead (d : Dev) (c : CoreId) (i : Nat) (debug : Bool) : Word :=
  let k := d.core c
  if i = 1 then d.timeOf k
  else if i = 0x109 then k.coreStat
  else if !debug && k.replica && ((decide (9 ≤ i) && decide (i ≤ 0x0B)) || (decide (0x10 ≤ i) && decide (i ≤ 0x17))) then 0
  else if ctrlStaged i then k.ctrlLatest i
  else k.ctrlStored i

/-- Whether a cause code is defined (Table 3-9). -/
def causeCode (x : Nat) : Bool := x == 0x20 || (decide (x ≤ 0x13) && x != 7)

/-- Whether a write of a value carries a reserved value; its field then keeps its value (R12). -/
def ctrlReserved (i : Nat) (v : Word) : Bool :=
  (i == 0x100 && bits v 2 2 != 0 && bits v 2 2 != 1) || (i == 0x102 && !causeCode (bits v 0 8)) || (decide (0x18 ≤ i) && decide (i ≤ 0x1F) && decide (0x13 ≤ bits v 0 8))

/-- The word that a register holds after a write of `v`. -/
def Core.ctrlNew (k : Core) (i : Nat) (v : Word) : Word :=
  let old := k.ctrlStored i
  let keep := if i == 0x100 && ctrlReserved i v then 0xC else if ctrlReserved i v then 0xFF else 0
  let m := BitVec.ofNat 64 (ctrlMask i) &&& ~~~(BitVec.ofNat 64 keep)
  let w := (old &&& ~~~m) ||| (v &&& m)
  if 0x18 ≤ i ∧ i ≤ 0x1F ∧ bit v 11 then setBit w 11 false else w

/-- Store a register's new word. S_CORECTL ignores writes of DMODE in a replica; `dmode` keeps it 1. -/
def Core.ctrlPut (k : Core) (i : Nat) (w : Word) : Core :=
  if i = 8 then { k with ctrCfg := w }
  else if 0x10 ≤ i ∧ i ≤ 0x17 then { k with pmc := k.pmc.setIfInBounds (i - 0x10) w.toNat }
  else if 0x18 ≤ i ∧ i ≤ 0x1F then { k with pmcSel := k.pmcSel.setIfInBounds (i - 0x18) w }
  else match i with
    | 0x000 => { k with astat := w }
    | 0x100 => { k with sStatus := w }
    | 0x101 => { k with sEpc := w }
    | 0x102 => { k with sCause := w }
    | 0x103 => { k with sFaddr := w }
    | 0x104 => { k with sEvbase := w }
    | 0x105 => { k with sScratch := w }
    | 0x106 => { k with sTbase := w }
    | 0x107 => { k with sAsid := w }
    | 0x108 => { k with sCorectl := setBit w 1 (k.replica || bit w 1) }
    | _ => k

/-- A write takes effect now. A reserved value raises record 0x0101 in the core. -/
def Dev.ctrlSet (d : Dev) (c : CoreId) (i : Nat) (v : Word) : Dev :=
  let d1 := d.modCore c (fun k => k.ctrlPut i (k.ctrlNew i v))
  if ctrlReserved i v then d1.raise (coreUid c) (Rec.plain 0x0101 1 i) else d1

/-- A staged register takes its value: fetched instructions are discarded, and a DMODE of 1 that takes effect empties the
store buffer, which deterministic mode does not use (R154, R212, R213, R240). -/
def Dev.stagedSet (d : Dev) (c : CoreId) (i : Nat) (v : Word) : Dev :=
  let was := (d.core c).dmode
  let d1 := (d.ctrlSet c i v).modCore c (fun k => { k with fetchBuf := none })
  if !was && (d1.core c).dmode then d1.sbFlush c else d1

/-- A write by an instruction (R154, R158, R159): now, at the eighth boundary after it retires, or at some time up to the
next SYNC.C. A staged entry starts at 8: the boundary after the writing instruction is the first of its eight. -/
def Dev.ctrlWrite (d : Dev) (c : CoreId) (i : Nat) (v : Word) : Dev :=
  if ctrlStaged i then
    d.modCore c (fun k =>
      let w := (k.ctrlLatest i &&& ~~~(BitVec.ofNat 64 (ctrlMask i))) ||| (v &&& BitVec.ofNat 64 (ctrlMask i))
      { k with staged := k.staged ++ [⟨i, w, 8⟩] })
  else if ctrlAfterSync i then d.modCore c (fun k => { k with afterSync := k.afterSync ++ [(i, v)] })
  else d.ctrlSet c i v

/-- Apply the staged writes that are due, in the order written. -/
def Dev.stagedDue (d : Dev) (c : CoreId) : Dev :=
  let due := (d.core c).staged.filter (fun s => s.left == 0)
  if due = [] then d
  else forAll due (fun s d => d.stagedSet c s.idx s.val)
    (d.modCore c (fun k => { k with staged := k.staged.filter (fun s => s.left != 0) }))

/-- Apply every pending staged write at once, in the order written (R144, R156). -/
def Dev.stagedAll (d : Dev) (c : CoreId) : Dev :=
  let all := (d.core c).staged
  forAll all (fun s d => d.stagedSet c s.idx s.val) (d.modCore c (fun k => { k with staged := [] }))

/-- Apply the first `n` writes of the "after SYNC.C" class. DEDUCED, log entry 23. -/
def Dev.afterSyncSome (d : Dev) (c : CoreId) (n : Nat) : Dev :=
  let xs := (d.core c).afterSync
  forAll (xs.take n) (fun x d => d.ctrlSet c x.1 x.2) (d.modCore c (fun k => { k with afterSync := xs.drop n }))

/-! Counters (R161-R164). -/

/-- A 48-bit count with `n` added, and whether it wrapped. -/
def count48 (x n : Nat) : Nat × Bool := ((x + n) % 2 ^ 48, decide (2 ^ 48 ≤ x + n))

/-- A counter event occurs `n` times in a core at a level: every programmable counter that selects it counts, and a wrap sets
OVF and, with OVIE, raises the core's counter-overflow source (R162). -/
def Dev.countEvt (d : Dev) (c : CoreId) (evt n : Nat) : Dev :=
  let k0 := d.core c
  if n = 0 ∨ bit k0.ctrCfg 16 then d
  else forUpto 8 (fun i d =>
    let k := d.core c
    let sel := k.pmcSel.toList.getD i 0
    let on := if k.priv = .u then bit sel 8 else bit sel 9
    if bits sel 0 8 = evt ∧ evt ≠ 0 ∧ on then
      let (x, ovf) := count48 (k.pmc.toList.getD i 0) n
      let d1 := d.modCore c (fun k => { k with pmc := k.pmc.setIfInBounds i x,
                                               pmcSel := if ovf then k.pmcSel.setIfInBounds i (setBit sel 11 true) else k.pmcSel })
      if ovf ∧ bit sel 10 ∧ k.placed then d1.raiseEdge (0x300 + k.lcore) else d1
    else d) d

/-- Count steps and retired instructions (R161), unless FREEZE is 1. -/
def Dev.countSteps (d : Dev) (c : CoreId) (steps retired : Nat) : Dev :=
  if bit (d.core c).ctrCfg 16 then d
  else
    let d1 := d.modCore c (fun k => { k with stepCnt := (count48 k.stepCnt steps).1, retCnt := (count48 k.retCnt retired).1 })
    (d1.countEvt c 0x01 retired).countEvt c 0x02 steps

/-! Register access of a halted core (R752). -/

/-- CDBG_RDATA: the register or doubleword that CDBG_RSEL selects. DEDUCED, log entry 87. -/
def Dev.cdbgRead (d : Dev) (c : CoreId) : Word :=
  let sel := d.reg (coreUid c) 0xF020; let k := d.core c; let i := bits sel 2 12
  match bits sel 0 2 with
  | 0 => k.w.toList.getD i 0
  | 1 => d.ctrlRead c i true
  | 2 => (k.v.toList.getD (i / 8) 0).extractLsb' (64 * (i % 8)) 64
  | _ => if i = 192 then k.vstat.setWidth 64 else (k.q.toList.getD (i / 24) 0).extractLsb' (64 * (i % 24)) 64

/-- A write of CDBG_RDATA: a staged register takes its value at once (R752); w0 and RO registers discard it. -/
def Dev.cdbgWrite (d : Dev) (c : CoreId) (v : Word) : Dev :=
  let sel := d.reg (coreUid c) 0xF020; let i := bits sel 2 12
  match bits sel 0 2 with
  | 0 => if i = 0 then d else d.modCore c (fun k => { k with w := k.w.setIfInBounds i v })
  | 1 => if ctrlStaged i then
           (d.modCore c (fun k => { k with staged := k.staged.filter (fun s => s.idx != i) })).stagedSet c i v
         else d.ctrlSet c i v
  | 2 => d.modCore c (fun k => { k with v := k.v.setIfInBounds (i / 8) (setBits (k.v.toList.getD (i / 8) 0) (64 * (i % 8)) 64 v.toNat) })
  | _ =>
    if i = 192 then d.modCore c (fun k => { k with vstat := v.setWidth 4 })
    else d.modCore c (fun k => { k with q := k.q.setIfInBounds (i / 24) (setBits (k.q.toList.getD (i / 24) 0) (64 * (i % 24)) 64 v.toNat) })

end Sys2Proof.Machine
end

