-- ==== Sys2Proof/Machine/Access.lean ====
section
/-!
DEFINITION. Windows (R297-R302) and accesses to control space: decoding, the checks of R7, R18, R23, R25, R26 and the
chapters that replace the ownership condition, the read of a register and the effect of a write (R8-R12).
-/
namespace Sys2Proof.Machine

/-! Partition windows. -/

/-- Offset of WIN_BASE[n]; WIN_ATTR[n] follows it. -/
def offWin (n : Nat) : Nat := 0x4200 + 16 * n
/-- Base and log2 of the size of window `n` of a core. -/
def Dev.winBase (d : Dev) (c n : Nat) : Nat := d.fld (coreUid c) (offWin n) 21 27 * 2 ^ 21
def Dev.winLog (d : Dev) (c n : Nat) : Nat := d.fld (coreUid c) (offWin n + 8) 0 6

/-- The lowest-numbered enabled window of a core that contains a physical address. -/
def Dev.winOf (d : Dev) (c pa : Nat) : Option Nat :=
  firstUpto 16 (fun n => d.flag (coreUid c) (offWin n) 0 && pa / 2 ^ d.winLog c n == d.winBase c n / 2 ^ d.winLog c n)

/-- Number of a memory type (Table 6-3). -/
def mtNum : MemType → Nat
  | .wb => 0 | .wt => 1 | .nc => 2 | .dO => 3 | .dS => 4

/-- The memory type of a number; `none` for the reserved ones. -/
def mtOf : Nat → Option MemType
  | 0 => some .wb | 1 => some .wt | 2 => some .nc | 3 => some .dO | 4 => some .dS | _ => none

/-- Whether a type is a device type. -/
def devType : MemType → Bool
  | .dO | .dS => true
  | _ => false

/-- Whether an address lies in control space as R298 bounds it. -/
def inControl (pa : Nat) : Bool := decide (0xF00000000000 ≤ pa) && decide (pa < 0xF10000000000)

/-- The rights that an access needs of a window: bits R, W, X. -/
structure Rights where
  r : Bool
  w : Bool
  x : Bool
  deriving DecidableEq, Repr

/-- The window check (R297, R298): the window that permits the access, or S_CAUSE.INFO of Table 6-6. -/
def Dev.winCheck (d : Dev) (c pa : Nat) (need : Rights) (mt : MemType) (u : Bool) : Except Nat Nat :=
  match d.winOf c pa with
  | none => .error 0
  | some n =>
    let a := d.reg (coreUid c) (offWin n + 8)
    let no (reason : Nat) : Except Nat Nat := .error (reason + 256 * n)
    if (need.r && !bit a 8) || (need.w && !bit a 9) || (need.x && !bit a 10) then no 1
    else if !bit a (16 + mtNum mt) || (inControl pa && !devType mt) then no 2
    else if u && !bit a 11 then no 3
    else .ok n

/-- The address at which an access through window `n` is performed (R301). -/
def Dev.relocate (d : Dev) (c n pa : Nat) : Nat :=
  let v := d.reg (coreUid c) (0x4600 + 8 * n)
  if bit v 0 then bits v 21 27 * 2 ^ 21 + (pa - d.winBase c n) else pa

/-! Reads. -/

/-- What a register holds for a reader: stored, or computed from the rest of the state. -/
def Dev.regValue (d : Dev) (u : Nat) (r : RegRow) (i : Nat) : Word :=
  let v := d.reg u (r.off + r.stride * i)
  match r.name with
  | .slcCtl => setBit v 33 (d.drained u)
  | .tbNow => BitVec.ofNat 64 d.dt
  | .trlRt => d.route (d.fld (hubUid 0) 0x8010 0 12)
  | .sentStat => setBits v 0 14 d.sentRemain
  | .mbxBellclr => d.reg u (mbxOff i 0x18)
  | .hbStatus => setBit v 1 ((List.range 7).any (fun t => d.trigActive t))
  | .elogData => d.elogData i
  | .rhKey => d.sv.rhKey
  | .coreExec =>
    let k := d.core (coreId (uidCore u))
    setBits (setBit (setBit v 0 k.dmode) 1 k.bpOff) 32 6 k.sb.length
  | .dbgLevel => setBit (setBits v 0 2 (d.dbgLevel i)) 5 d.bench
  | .cdbgPc => (d.core (coreId (uidCore u))).pc
  | .cdbgPcs => d.pcSample (coreId (uidCore u))
  | .cdbgRdata => d.cdbgRead (coreId (uidCore u))
  | .trcSrc => if unitKind u = some .core then setBits v 8 8 (d.core (coreId (uidCore u))).part else v
  | _ => v

/-- Perform a register read: RC fields are cleared unless the read peeks (R8, R9). A read of PCIE_CFGD performs a
configuration read (R555). The checkpoints, reorder window and load queue in use are open in normal mode and 0 in
deterministic mode (R259). -/
def Dev.regRead (d : Dev) (u : Nat) (r : RegRow) (i : Nat) (peek : Bool) : Dev × Answer :=
  match r.name with
  | .pcieCfgd =>
    if peek then (d, Answer.word (d.reg u 0x4018))
    else let d1 := d.pcieConfig ((uidDie u - 4) * 2 + (uidIndex u - 8)) none; (d1, d1.resp)
  | .coreExec =>
    let v := d.regValue u r i
    if bit v 0 then (d, Answer.word v)
    else
      let (x, d1) := d.draw
      (d1, Answer.word (setBits (setBits (setBits v 8 6 (x % 49)) 16 8 (x / 64 % 129)) 24 6 (x / 16384 % 49)))
  | _ => ((d.regLoad u r i peek).1, Answer.word (readView r (d.regValue u r i)))

/-! Writes. -/

/-- A write of UNIT_STATE by the keeper: ROLE, and a change of FENCED fences the unit or lifts its fence (R18, R598). -/
def Dev.unitStateWrite (d : Dev) (u : Nat) (r : RegRow) (v : Word) : Dev :=
  let d1 := d.regStore u r 0 (setBit v 4 (d.fenced u))
  if bit v 4 && !d.fenced u then d1.fenceUnit u
  else if !bit v 4 && d.fenced u then (d1.setFlag u 8 4 false).epCatchUp u
  else d1

/-- A write of CM_OP (R332): refused while BUSY; a reserved operation, set or way starts nothing and raises 0x0101.
The operation is carried out here; CM_OP_DONE ends it. DEDUCED, log entry 79. -/
def Dev.cmWrite (d : Dev) (u : Nat) (v : Word) : Dev × Answer :=
  let op := bits v 0 3; let set := bits v 8 11; let way := bits v 24 4
  let sets := if uidType u = 1 then 512 else if uidDie u < 4 then 1024 else 2048
  let ways := if uidType u = 2 ∧ uidDie u < 4 then 12 else 16
  if d.flag u 0x4108 0 then (d, .err errBusy)
  else if op = 0 ∨ 6 ≤ op ∨ (op < 4 ∧ (sets ≤ set ∨ ways ≤ way)) then (d.raise u (Rec.plain 0x0101 1 0x4100), .data [])
  else
    let d1 := d.setReg u 0x4108 1
    (match op with
      | 1 => d1.setWayOp u set way true false
      | 2 => d1.setWayOp u set way false true
      | 3 => d1.setWayOp u set way true true
      | 4 => d1.wholeCacheOp u true true
      | _ => d1.wholeCacheOp u true false, .data [])

/-- A write of REG_HOLD by the keeper: each bit that changes is a request (R625, R626, R630). -/
def Dev.regHoldWrite (d : Dev) (u : Nat) (v : Word) : Dev :=
  let g := uidDie u * 2 + uidRegion u; let old := d.reg u 0x4300
  let d1 := forUpto 9 (fun c d =>
    let k := 9 * g + c
    if bit v c && !bit old c then d.holdRequest k 0
    else if !bit v c && bit old c then d.holdWake k else d) d
  if bit v 16 && !bit old 16 then d1.regionOff g else if !bit v 16 && bit old 16 then d1.regionOn g else d1

/-- A write of EPOCH_POST by the keeper: it posts the phase that the value spells (R601). A posting that carries values is a
command of its own. -/
def Dev.epochPostWrite (d : Dev) (v : Word) : Dev :=
  d.epPost (bits v 0 32) (bits v 32 8) (bits v 40 2) (bits v 48 8) (bit v 56) []

/-- A write of MBX registers by the keeper, which holds every right (R409). -/
def Dev.mbxKeeperWrite (d : Dev) (m r : Nat) (v : Word) : Dev × Answer :=
  match r with
  | 0x00 => d.mbxMsg m none v
  | 0x08 => (if bit v 2 then d.setFlag mbxU (mbxOff m 8) 2 false else d, .data [])
  | 0x10 => d.mbxAck m v
  | 0x18 => (d.mbxBell m true v, .data [])
  | 0x20 => (d.setReg mbxU (mbxOff m 0x20) (BitVec.ofNat 64 (bits v 0 32)), .data [])
  | _ => (d.mbxBellClr m v, .data [])

/-- A write of MBX registers by a core of partition `p` (Table 9-2, R410). -/
def Dev.mbxCoreWrite (d : Dev) (p l m r : Nat) (v : Word) : Dev × Answer :=
  let own := d.mbxOwner p m
  let no : Dev × Answer := (d, .err errNotPermitted)
  match r with
  | 0x00 => if d.mbxRight p m false then d.mbxMsg m (some l) v else no
  | 0x08 => if own then (if bit v 2 then d.setFlag mbxU (mbxOff m 8) 2 false else d, .data []) else no
  | 0x10 => if own then d.mbxAck m v else no
  | 0x18 => if d.mbxRight p m true then ((d.mbxBell m false v).bellRelease p m v, .data []) else no
  | 0x20 => if own then (d.setReg mbxU (mbxOff m 0x20) (BitVec.ofNat 64 (bits v 0 32)), .data []) else no
  | _ => if own then (d.mbxBellClr m v, .data []) else no

/-- The logical core that an agent is; the keeper and others are none. -/
def Dev.agentLcore (d : Dev) : Agent → Option Nat
  | .core c => some (d.core c).lcore
  | _ => none

/-- Perform a permitted register write by agent `a` (with its level). -/
def Dev.regWrite (d : Dev) (a : Agent) (k : Bool) (part : Nat) (u : Nat) (r : RegRow) (i : Nat) (v : Word) : Dev × Answer :=
  let done (d : Dev) : Dev × Answer := (d, .data [])
  match r.name with
  | .unitState => done (d.unitStateWrite u r v)
  | .stallStatus => done (d.stallReopen u v)
  | .stallBound => done (d.stallBoundWrite u i v)
  | .errStatus => done (d.errStatusWrite u v)
  | .crbKey => done (d.crumbleKey u (match a with | .debug _ => true | _ => false) v)
  | .paceCfg =>
    let d1 := d.regStore u r i v
    done (if bit v 32 then d1.setLevel (0x44A + uidDie u * 2 + uidRegion u) false else d1)
  | .tbLoad => d.tbLoadWrite v
  | .cadCfg => d.cadCfgWrite r i v
  | .cadPhase => d.cadPhaseWrite r i v
  | .mcCfg => done (d.mcCfgWrite u r v)
  | .cmOp => d.cmWrite u v
  | .seReload => done (d.seReload (uidSe u) (bit v 10) (bits v 0 10))
  | .tdmCfg => done (d.tdmCfgWrite u r i v)
  | .cgCfg => done (d.cgCfgWrite u r i v)
  | .lqCfg => done (d.lqCfgWrite u r v)
  | .lqLink => done (d.lqLinkWrite u r i v)
  | .trlRt => done (d.trlRtWrite u r v)
  | .ringBase | .mgtRingBase => d.ringBaseWrite u r i v
  | .rmbxMsg => d.proxyWrite i v
  | .evSrc => if k then done (d.evSrcKWrite r i v) else d.evSrcSWrite part i v
  | .mbxMsg | .mbxStatus | .mbxAck | .mbxBell | .mbxBellmask | .mbxBellclr =>
    let o := r.off - 0x4000
    if k then d.mbxKeeperWrite i o v else d.mbxCoreWrite part ((d.agentLcore a).getD 0) i o v
  | .coreInbox => done (d.inboxWrite (coreId (uidCore u)) i v)
  | .wdogCfg => done (d.wdogCfgWrite r i v)
  | .wdogPet => done (if bit v 0 then d.wdogStart i else d)
  | .sentPet => d.sentPet a v
  | .elogIn => done (d.elogIn i v)
  | .hbCmd => done (d.hbCmd v)
  | .alarmCfg => done (d.alarmCfgWrite r i v)
  | .padRelease => done (d.padRelease (bits v 0 10))
  | .deepCtl => done (let d1 := d.regStore u r i v; if bit v 0 then d1.deepEnter else d1)
  | .regHold => done (d.regHoldWrite u v)
  | .epochPost => done (d.epochPostWrite v)
  | .pcieCfgd =>
    let d1 := d.pcieConfig ((uidDie u - 4) * 2 + (uidIndex u - 8)) (some v.toNat)
    (d1, d1.resp)
  | .vtOut => done (d.vtOutWrite i v)
  | .vtIn => done (d.vtInWrite i v)
  | _ => done (d.regStore u r i v)

/-! The checks. -/

/-- Whether the lowest level of a register is at or below a level. -/
def lvlOk : Lvl → Priv → Bool
  | .k, .k => true
  | .s, .s | .s, .k => true
  | .u, _ => true
  | _, _ => false

/-- Whether a partition holds a right on a mailbox as its sender (Table 9-2). -/
def Dev.mbxSender (d : Dev) (p m : Nat) : Bool := d.mbxRight p m false || d.mbxRight p m true

/-- What a core of partition `p` at S may do with the registers of pages 4-14 of the mailbox block and the event controller
(R393, R398, R408-R410, R544, R720). -/
def Dev.busMay (d : Dev) (p : Nat) (r : RegRow) (i : Nat) (write : Bool) : Bool :=
  match r.name with
  | .evSrc => d.srcOwned i p
  | .mbxMsg => if write then d.mbxRight p i false else d.mbxOwner p i
  | .mbxStatus => if write then d.mbxOwner p i else d.mbxSender p i
  | .mbxAck => if write then d.mbxOwner p i else d.mbxSender p i
  | .mbxBell => if write then d.mbxRight p i true else d.mbxOwner p i
  | .mbxBellmask | .mbxBellclr => d.mbxOwner p i
  | .mbxPerm => !write && i / 8 == p
  | .mbxLastack => !write && d.lcorePart i == some p
  | .rmbxMsg | .rmbxStat => d.proxyOf p i
  | .rmbxDest => !write
  | .wdogCfg | .wdogPet => d.lcorePart i == some p && (match d.recOf p with | some x => x.tier == 0 | none => true)
  | _ => false

/-- Whether an S- or U-level access of partition `p` to a register of unit `u` may be performed (R26, R393, R708, R770). -/
def Dev.partMay (d : Dev) (p : Nat) (lv : Priv) (u : Nat) (r : RegRow) (i off : Nat) (write : Bool) : Bool :=
  let level := lvlOk (if write then r.wr else r.rd) lv
  let owned := (d.fld u 0x10 8 2 == 1 && d.fld u 0x10 0 8 == p) ||
    (d.fld u 0x10 8 2 == 2 && lv == .s && !write && decide (off < 0x1000))
  match unitKind u with
  | some .evc | some .mbx =>
    if lv = .u then false else if 0x4000 ≤ off ∧ off < 0xF000 then d.busMay p r i write else owned && level
  | some .harebell =>
    if write then false else if 0x4000 ≤ off ∧ lv = .s then level else owned && level
  | some .dbg =>
    if 0x4000 ≤ off ∧ off < 0x5000 then lv == .s && i == p else owned && level
  | _ => owned && level

/-- Whether an access may be performed at its level. The debug registers belong to the debugger; page 4 of the debug domain
control is a partition's (R770). DEDUCED, log entry 78. -/
def Dev.regMay (d : Dev) (q : Req) (u : Nat) (r : RegRow) (i off : Nat) : Bool :=
  match q.priv with
  | .k => lvlOk (if q.write.isSome then r.wr else r.rd) .k
  | lv => d.partMay q.part lv u r i off q.write.isSome

/-- Whether page 3 is closed: Crumble is locked (R729). -/
def Dev.crumbleShut (d : Dev) (u off : Nat) (write : Bool) : Bool :=
  decide (0x3000 ≤ off) && decide (off < 0x4000) && !d.flag u 0x3000 0 &&
    !((off == 0x3000 && !write) || (off == 0x3008 && write))

/-- A replica's access: only the mailbox block, by snapshot and by matched writes (Table 11-2, R422-R426). -/
def Dev.replicaAccess (d : Dev) (c : CoreId) (u off : Nat) (write : Option Word) : Dev × Answer :=
  let k := d.core c
  if unitKind u ≠ some .mbx then (d, .err errNotPermitted)
  else match write with
    | some v =>
      if repMbxOff off then (d.replicaMbx k.part k.lcore (repIx k.rep) off v, .data []) else (d, .err errNotPermitted)
    | none => match d.replicaRead k off with
      | .ok v => (d, Answer.word v)
      | .error e => (d, .err e)

/-- Whether the unit answers at all: powered (R83), and not fenced but for K-level accesses to pages 0 and 2 (R18). -/
def Dev.unitDown (d : Dev) (u : Nat) (k : Bool) (off : Nat) : Option Nat :=
  if 3 ≤ d.power u then some errPoweredDown
  else if d.fenced u && !(k && (off / 4096 == 0 || off / 4096 == 2)) then some errFenced
  else none

/-- The unit and offset that a control-space address selects. -/
def ctlUnit (pa : Nat) : Nat := (pa - 0xF00000000000) / 65536
def ctlOff (pa : Nat) : Nat := pa % 65536

/-- An access to the register at `off` of unit `u` by a core or the keeper, past the window check. -/
def Dev.ctlAt (d : Dev) (q : Req) (u off : Nat) : Dev × Answer :=
  match unitKind u with
  | none => (d, .err errNoTarget)
  | some kind =>
    match d.unitDown u (q.priv == .k) off with
    | some e => (d, .err e)
    | none =>
      let g := (uidDie u - 4) * 2 + (uidIndex u - 8)
      if kind = .pcie ∧ 0x4000 ≤ off ∧ d.pciePort g = false then (d, .err errNoTarget)
      else if kind = .pcie ∧ 0x8000 ≤ off ∧ off < 0xF000 then
        if q.priv ≠ .k ∧ ¬(d.fld u 0x10 8 2 = 1 ∧ d.fld u 0x10 0 8 = q.part) then (d, .err errNotPermitted)
        else let d1 := d.pcieAperture g off q.size (q.write.map leNat); (d1, d1.resp)
      else if q.size ≠ 8 ∨ q.addr % 8 ≠ 0 then (d, .err errMalformed)
      else match regAt u off with
        | none => (d, .err errNoTarget)
        | some (r, i) =>
          let w := q.write.map (fun bs => BitVec.ofNat 64 (leNat bs))
          match q.agent, q.rep with
          | .core c, .a | .core c, .b | .core c, .c => d.replicaAccess c u off w
          | _, _ =>
            if d.regMay q u r i off = false ∨ d.crumbleShut u off w.isSome then (d, .err errNotPermitted)
            else match w with
              | some v => d.regWrite q.agent (q.priv == .k) q.part u r i v
              | none => d.regRead u r i q.peek

/-- An access to control space by a core or the keeper, past the window check. -/
def Dev.ctlAccess (d : Dev) (q : Req) : Dev × Answer := d.ctlAt q (ctlUnit q.addr) (ctlOff q.addr)

end Sys2Proof.Machine
end

