-- ==== Sys2Proof/Machine/RegRows.lean ====
section
/-!
DEFINITION. Requests at the mesh (R50-R52, R595-R610), register commands of cores and the keeper, and debug accesses (R740-R743).
-/
namespace Sys2Proof.Machine

/-! Requests. -/

/-- The requester that an agent is for cached memory. -/
def Dev.agentRq (d : Dev) : Agent → Rq
  | .core c => d.rqOf c
  | _ => engRq

/-- Whether an agent reaches the local-store slots (R52). DEDUCED, log entry 80. -/
def slotAgent (q : Req) : Bool :=
  q.priv == .k || (match q.agent with | .debug _ | .engine _ => true | _ => false)

/-- Serve a request at its target, by the address map of R50 and R51. -/
def Dev.serve (d : Dev) (q : Req) : Dev × Answer :=
  let pa := q.addr; let n := q.size
  let part (s : Sector) : Answer := .data (secBytes s (pa % 64) n)
  if pa < 0x40000000000 ∨ inRemote pa then
    if 64 < pa % 64 + n then (d, .err errMalformed)
    else match q.write with
      | some bs =>
        match d.homeStore (d.agentRq q.agent) pa bs with
        | (d1, .ok ()) =>
          ((d1.loseResv pa n (match q.agent with | .core c => some c.val | _ => none)).noteWrite q.part q.rep pa, .data [])
        | (d1, .error e) => (d1, .err e)
      | none =>
        match d.homeLoad (d.agentRq q.agent) (pa / 64 * 64) with
        | (d1, .ok s) => (d1, part s)
        | (d1, .error e) => (d1, .err e)
  else if 0xE00000000000 ≤ pa ∧ pa < 0xE00012000000 then
    if slotAgent q = false then (d, .err errNotPermitted)
    else
      let c := (pa - 0xE00000000000) / 2 ^ 20; let off := pa % 2 ^ 20
      match q.write with
      | some bs => match d.lsWrite c off bs with
        | (d1, .ok ()) => (d1.loseResv pa n none, .data [])
        | (d1, .error e) => (d1, .err e)
      | none => match d.lsRead c off n with
        | (d1, .ok bs) => (d1, .data bs)
        | (d1, .error e) => (d1, .err e)
  else if 0xF00000000000 ≤ pa ∧ pa < 0xF000C0000000 then d.ctlAccess q
  else if 0xF10000000000 ≤ pa ∧ pa + n ≤ 0xF10000040000 then
    if q.priv ≠ .k then (d, .err errNotPermitted)
    else match q.write with
      | some bs => ({ d with retained := writeBytes d.retained (pa - 0xF10000000000) bs }, .data [])
      | none => (d, .data (readBytes d.retained (pa - 0xF10000000000) n))
  else if 0xF10000100000 ≤ pa ∧ pa + n ≤ 0xF10000140000 then
    if q.priv ≠ .k ∨ d.bt.romOff ∨ q.write.isSome then (d, .err errNotPermitted)
    else (d, .data ((List.range n).map (fun i => Config.romByte (pa - 0xF10000100000 + i))))
  else (d, .err errNoTarget)

/-- The unit that takes a request, as far as epochs go: the unit of a register, or none that differs from its sender. -/
def receiverOf (q : Req) : Option Nat :=
  if 0xF00000000000 ≤ q.addr ∧ q.addr < 0xF000C0000000 then some (ctlUnit q.addr) else none

/-- The sending unit. -/
def Dev.senderOf (d : Dev) : Agent → Nat
  | .core c => coreUid c
  | .keeper => d.keeperU
  | .debug _ => dbgUid
  | .engine u => u

/-- How the receiver serves a request under the epoch protocol (Table 14-3). -/
def Dev.serveHow (d : Dev) (q : Req) : Nat :=
  match receiverOf q with
  | some u => d.epServe (d.senderOf q.agent) u
  | none => 0

/-- Whether the windows of the issuing core permit a request at S or U (R26, R297). -/
def Dev.reqWindow (d : Dev) (q : Req) : Bool :=
  match q.agent, q.priv with
  | .core _, .k => true
  | .core c, lv =>
    (match d.winCheck c q.addr ⟨q.write.isNone, q.write.isSome, false⟩ q.mt (lv == .u) with | .ok _ => true | .error _ => false)
  | _, _ => true

/-- A request arrives (R26, R607-R610): checked against its windows, then served under the present or the old values,
answered with "epoch retry" and kept by its sender, or held by the receiver. -/
def Dev.arrive (d : Dev) (q : Req) : Dev :=
  if d.reqWindow q = false then d.answer (.err errNotPermitted)
  else match d.serveHow q with
  | 0 => let (d1, a) := d.serve q; d1.answer a
  | 1 => (d.underOld ((receiverOf q).getD 0) (fun d => let (d1, a) := d.serve q; d1.answer a))
  | 2 => { d.answer (.err errEpochRetry) with ep := { d.ep with retry := d.ep.retry ++ [(d.senderOf q.agent, q)] } }
  | _ => { d with ep := { d.ep with held := d.ep.held ++ [((receiverOf q).getD 0, q)] } }

/-- TRANSACTION_ARRIVAL (R26). -/
def execTransactionArrival (q : Req) (s : State) : Host.Outcome State Fault Refusal := onDev (fun d => d.arrive q) s

/-- EPOCH_RETRY_RESEND (R609): a sender that has taken the new epoch sends its first transaction that met "epoch retry" again. -/
def execEpochRetryResend (u : BitVec 16) (s : State) : Host.Outcome State Fault Refusal :=
  onDev (fun d =>
    match d.ep.retry.find? (fun e => e.1 == u.toNat) with
    | none => d
    | some e =>
      if d.epNew u.toNat ∨ d.epPend = [] then
        ({ d with ep := { d.ep with retry := d.ep.retry.erase e } }).arrive e.2
      else d) s

/-- Held transactions whose receiver has taken the posted epoch are served (R607). -/
def Dev.serveHeld (d : Dev) : Dev :=
  let (go, stay) := d.ep.held.partition (fun e => d.epNew e.1 || d.epPend.isEmpty)
  forAll go (fun e d => d.arrive e.2) { d with ep := { d.ep with held := stay } }

/-- EPOCH_UNIT_ACK (R597, R603, R604), after which the transactions that the unit held are served. -/
def execEpochUnitAck (u : BitVec 16) (s : State) : Host.Outcome State Fault Refusal :=
  onDev (fun d => (d.epUnitAck u.toNat).serveHeld) s

/-! Register commands. -/

/-- The request that an agent makes to a register: a core's at its level through a page of type DS, the keeper's at K. -/
def Dev.regReq (d : Dev) (a : Agent) (pa size : Nat) (peek : Bool) (w : Option Word) : Req :=
  let wr := w.map (fun v => (natLe 8 v.toNat).take size)
  match a with
  | .core c => ⟨a, (d.core c).priv, (d.core c).part, (d.core c).rep, pa, size, .dS, peek, wr⟩
  | .keeper => ⟨a, .k, 0, .none, pa, size, .dS, peek, wr⟩
  | _ => ⟨a, .u, 0, .none, pa, size, .dS, peek, wr⟩

/-- Address of a register. -/
def ctlAddr (u off : Nat) : Nat := 0xF00000000000 + u * 65536 + off

/-- A write of a 64-bit register by an agent. -/
def Dev.putReg (d : Dev) (a : Agent) (u off : Nat) (v : Word) : Dev := d.arrive (d.regReq a (ctlAddr u off) 8 false (some v))

/-- Add to the device as a register write by an agent. -/
def writeBy (a : Agent) (u off : Nat) (v : Word) (s : State) : Host.Outcome State Fault Refusal :=
  onDev (fun d => d.putReg a u off v) s

/-- REG_WRITE (R8): a write to any register, by its address; `size` other than 8 is malformed (R7). -/
def execRegWrite (by_ : Agent) (pa : BitVec 48) (size : BitVec 4) (v : Word) (s : State) : Host.Outcome State Fault Refusal :=
  onDev (fun d => d.arrive (d.regReq by_ pa.toNat size.toNat false (some v))) s

/-- RC_READ (R8, R9): a read of a register. -/
def execRcRead (by_ : Agent) (pa : BitVec 48) (peek : Bool) (s : State) : Host.Outcome State Fault Refusal :=
  onDev (fun d => d.arrive (d.regReq by_ pa.toNat 8 peek none)) s

/-- STALL_REOPEN (R82): a write of STALL_STATUS. -/
def execStallReopen (u : BitVec 16) (mask : Word) (s : State) : Host.Outcome State Fault Refusal :=
  writeBy .keeper u.toNat 0x1008 mask s

/-- STALL_BOUND_WRITE (R79). -/
def execStallBoundWrite (u : BitVec 16) (p : Fin 64) (v : Word) (s : State) : Host.Outcome State Fault Refusal :=
  writeBy .keeper u.toNat (0x1100 + 8 * p.val) v s

/-- TB_LOAD_WRITE (R89). -/
def execTbLoadWrite (v : Word) (s : State) : Host.Outcome State Fault Refusal := writeBy .keeper hbUid 0x8018 v s

/-- LOAD_EN_CLEAR (R89): a write of TB_CTL with LOAD_EN 1 and the other fields as they are. -/
def execLoadEnClear (s : State) : Host.Outcome State Fault Refusal :=
  onDev (fun d => d.putReg .keeper hbUid 0x8000 (setBit (d.reg hbUid 0x8000) 5 true)) s

/-- SPARE_GO (R370): a write of MC_CFG with SPARE_GO 1. -/
def execSpareGo (ch : Fin 12) (cfg : Word) (s : State) : Host.Outcome State Fault Refusal :=
  writeBy .keeper (mcUid ch) 0x4000 (setBit cfg 12 true) s

/-- EVENT_EOI (R400): a write of 1 to EOI of EV_SRC[n], MASK as it is. -/
def execEventEoi (by_ : Agent) (n : BitVec 12) (s : State) : Host.Outcome State Fault Refusal :=
  onDev (fun d => d.putReg by_ (evcUid (d.activeHub 10)) (offEvSrc n.toNat) (setBit (d.reg (evcUid 0) (offEvSrc n.toNat)) 42 true)) s

/-- EVENT_SOURCE_S_WRITE (R398): a core's write of EV_SRC[n]. -/
def execEventSourceSWrite (c : CoreId) (n : BitVec 12) (v : Word) (s : State) : Host.Outcome State Fault Refusal :=
  onDev (fun d => d.putReg (.core c) (evcUid (d.activeHub 10)) (offEvSrc n.toNat) v) s

/-- CORE_INBOX_DISCARD (R407). -/
def execCoreInboxDiscard (by_ : Agent) (c : CoreId) (k : Fin 4) (mask : Word) (s : State) : Host.Outcome State Fault Refusal :=
  writeBy by_ (coreUid c) (0x4400 + 8 * k.val) mask s

/-- A write to a register of the active mailbox block. -/
def mbxWrite (a : Agent) (off : Nat) (v : Word) (s : State) : Host.Outcome State Fault Refusal :=
  onDev (fun d => d.putReg a (mbxUid (d.activeHub 11)) off v) s

/-- MBX_MSG_WRITE (R411). -/
def execMbxMsgWrite (by_ : Agent) (m : Fin 260) (v : Word) (s : State) : Host.Outcome State Fault Refusal :=
  mbxWrite by_ (mbxOff m 0) v s

/-- MBX_ACK_WRITE (R412). -/
def execMbxAckWrite (by_ : Agent) (m : Fin 260) (v : Word) (s : State) : Host.Outcome State Fault Refusal :=
  mbxWrite by_ (mbxOff m 0x10) v s

/-- MBX_BELL_SET (R414, R415). -/
def execMbxBellSet (by_ : Agent) (m : Fin 260) (v : Word) (s : State) : Host.Outcome State Fault Refusal :=
  mbxWrite by_ (mbxOff m 0x18) v s

/-- MBX_BELLCLR (R414). -/
def execMbxBellclr (by_ : Agent) (m : Fin 260) (v : Word) (s : State) : Host.Outcome State Fault Refusal :=
  mbxWrite by_ (mbxOff m 0x28) v s

/-- MBX_OVERRUN_CLEAR (R411): a write of MBX_STATUS with OVERRUN 1. -/
def execMbxOverrunClear (by_ : Agent) (m : Fin 260) (s : State) : Host.Outcome State Fault Refusal :=
  mbxWrite by_ (mbxOff m 0x08) 4 s

/-- RMBX_MSG_WRITE (R544). -/
def execRmbxMsgWrite (by_ : Agent) (r : Fin 16) (v : Word) (s : State) : Host.Outcome State Fault Refusal :=
  mbxWrite by_ (offProxy r + 8) v s

/-- CADENCE_ENABLE (R433): a write of CAD_CFG[c] with EN = 1. -/
def execCadenceEnable (c : Fin 16) (cfg : Word) (s : State) : Host.Outcome State Fault Refusal :=
  writeBy .keeper (hubUid 0) (0x7000 + 16 * c.val) (setBit cfg 0 true) s

/-- CADENCE_DISABLE (R433): a write of CAD_CFG[c] with EN = 0 and the other fields as they are. -/
def execCadenceDisable (c : Fin 16) (s : State) : Host.Outcome State Fault Refusal :=
  onDev (fun d => d.putReg .keeper (hubUid 0) (0x7000 + 16 * c.val) (setBit (d.cadCfg c) 0 false)) s

/-- SE_RELOAD (R445). -/
def execSeReload (se : Fin 4) (tx : Bool) (stream : Fin 1024) (s : State) : Host.Outcome State Fault Refusal :=
  writeBy .keeper (seUid se) 0x5028 (BitVec.ofNat 64 (stream.val + 1024 * tx.toNat)) s

/-- LANE_MODE_CHANGE (R517): a write of LQ_CFG. -/
def execLaneModeChange (q : Fin 10) (v : Word) (s : State) : Host.Outcome State Fault Refusal := writeBy .keeper (quadUid q) 0x4000 v s

/-- The unit and ring of a ring number: quad rings 0-79, then two rings of each management port. -/
def ringUnit (r : Nat) : Nat × Nat := if r < 80 then (quadUid (r / 8), r % 8) else (mgtUid ((r - 80) / 2), (r - 80) % 2)

/-- RING_TAIL_WRITE (R524): TAIL advances. -/
def execRingTailWrite (by_ : Agent) (r : Fin 84) (tail : BitVec 16) (s : State) : Host.Outcome State Fault Refusal :=
  writeBy by_ (ringUnit r).1 (0x4208 + 16 * (ringUnit r).2) (tail.setWidth 64) s

/-- RING_ENABLE (R526): a write of RING_BASE with EN = 1. -/
def execRingEnable (by_ : Agent) (r : Fin 84) (base : Word) (s : State) : Host.Outcome State Fault Refusal :=
  writeBy by_ (ringUnit r).1 (0x4200 + 16 * (ringUnit r).2) (setBit base 0 true) s

/-- RING_DISABLE (R526): a write of RING_BASE with EN = 0 and the other fields as they are. -/
def execRingDisable (by_ : Agent) (r : Fin 84) (s : State) : Host.Outcome State Fault Refusal :=
  onDev (fun d => d.putReg by_ (ringUnit r).1 (0x4200 + 16 * (ringUnit r).2) (setBit (d.reg (ringUnit r).1 (0x4200 + 16 * (ringUnit r).2)) 0 false)) s

/-- PCIE_CONFIG_READ (R555). -/
def execPcieConfigRead (by_ : Agent) (g : Fin 4) (s : State) : Host.Outcome State Fault Refusal :=
  onDev (fun d => d.arrive (d.regReq by_ (ctlAddr (pcieUid g) 0x4018) 8 false none)) s

/-- PCIE_CONFIG_WRITE (R555). -/
def execPcieConfigWrite (by_ : Agent) (g : Fin 4) (v : Word) (s : State) : Host.Outcome State Fault Refusal :=
  writeBy by_ (pcieUid g) 0x4018 v s

/-- PCIE_APERTURE_ACCESS (R556): an access of 4 or 8 bytes to an aperture page. -/
def execPcieApertureAccess (by_ : Agent) (g : Fin 4) (off : BitVec 16) (wide : Bool) (w : Option Word) (s : State) :
    Host.Outcome State Fault Refusal :=
  onDev (fun d => if off.toNat < 0x8000 then d else d.arrive (d.regReq by_ (ctlAddr (pcieUid g) off.toNat) (if wide then 8 else 4) false w)) s

/-- PAD_RELEASE_WRITE (R645). -/
def execPadReleaseWrite (mask : BitVec 10) (s : State) : Host.Outcome State Fault Refusal :=
  writeBy .keeper hbUid 0x9018 (mask.setWidth 64) s

/-- ERR_VALID_CLEAR (R699): a write of 1 to ERR_STATUS.VALID. -/
def execErrValidClear (u : BitVec 16) (s : State) : Host.Outcome State Fault Refusal := writeBy .keeper u.toNat 0x2000 1 s

/-- HB_CMD_SET (R711): a write of HB_CMD with SET bits, and the message of trigger 6. -/
def execHbCmdSet (set : BitVec 7) (msg6 : BitVec 4) (s : State) : Host.Outcome State Fault Refusal :=
  writeBy .keeper hbUid 0xB008 (BitVec.ofNat 64 (set.toNat + 2 ^ 16 * msg6.toNat)) s

/-- HB_CMD_CLEAR (R711): a write of HB_CMD with CLEAR bits, and any SET bits written with them. -/
def execHbCmdClear (clear set : BitVec 7) (msg6 : BitVec 4) (s : State) : Host.Outcome State Fault Refusal :=
  writeBy .keeper hbUid 0xB008 (BitVec.ofNat 64 (set.toNat + 256 * clear.toNat + 2 ^ 16 * msg6.toNat)) s

/-- SENTINEL_PET (R718). -/
def execSentinelPet (by_ : Agent) (s : State) : Host.Outcome State Fault Refusal := writeBy by_ hbUid 0xA008 1 s

/-- WATCHDOG_PET (R721). -/
def execWatchdogPet (by_ : Agent) (l : Fin 256) (s : State) : Host.Outcome State Fault Refusal := mbxWrite by_ (0x8100 + 8 * l.val) 1 s

/-- WATCHDOG_CONFIG_WRITE (R721). -/
def execWatchdogConfigWrite (by_ : Agent) (l : Fin 256) (v : Word) (s : State) : Host.Outcome State Fault Refusal :=
  mbxWrite by_ (offWdog l) v s

/-- ELOG_IN_COMMIT (R724): a write of ELOG_IN[3]. -/
def execElogInCommit (v : Word) (s : State) : Host.Outcome State Fault Refusal := writeBy .keeper hbUid 0xC048 v s

/-- CRUMBLE_UNLOCK (R729): a K-level write of CRB_KEY. A debugger's write is a debug access. -/
def execCrumbleUnlock (u : BitVec 16) (key : Word) (s : State) : Host.Outcome State Fault Refusal :=
  writeBy .keeper u.toNat 0x3008 key s

/-! Debug accesses. -/

/-- The partitions whose level an access of pages 4-14 of the debug domain control rests on, and the level needed; `none`:
bench mode only. -/
def Dev.dbgUnitNeed (d : Dev) (r : RegRow) (i : Nat) (w : Option Word) : Option (Option Nat × Nat) :=
  match r.name with
  | .dbgChal | .dbgUnlkCtl | .dbgLevel => some (none, 0)
  | .dbgUnlkKey | .dbgUnlkSig => some (none, 0)
  | .vtOut => some (some i, 1)
  | .vtIn => some (some i, 2)
  | .tsCtl => some (some (match w with | some v => bits v 2 8 | none => bits (d.tsCtl i) 2 8), 1)
  | .tsBase | .tsPtr | .tsTrig | .tsTdt | .tsDrop => some (some (bits (d.tsCtl i) 2 8), 1)
  | .dbmCtl => some (some (bits (w.getD (d.reg dbgUid 0x6000)) 5 8), if w.isSome ∧ bit (w.getD 0) 1 then 2 else 1)
  | .dbmData => some (none, if w.isSome then 2 else 1)
  | .dbmAddr | .dbmStat => some (none, 1)
  | _ => none

/-- The level needed at page 15 of a core. -/
def Dev.coreNeed (d : Dev) (u : Nat) (r : RegRow) (i : Nat) (w : Option Word) : Nat :=
  match r.name with
  | .cdbgStat | .cdbgPcs | .trcSrc => 1
  | .cdbgCfg => if w.isSome then 2 else 1
  | .cdbgCmp => if w.isSome ∧ d.flag u (0xF108 + 16 * i) 3 = false then 2 else 1
  | .cdbgCmpc => match w with
    | some v => if d.flag u (0xF108 + 16 * i) 3 ∧ bit v 3 then 1 else if bit v 3 ∧ d.flag u (0xF108 + 16 * i) 0 = false then 1 else 2
    | none => 1
  | _ => 2

/-- The level in effect for an access, and the level that it needs; `none`: bench mode only (R740, R743). -/
def Dev.dbgNeed (d : Dev) (u off : Nat) (r : RegRow) (i : Nat) (w : Option Word) : Option (Nat × Nat) :=
  if 0xF000 ≤ off then
    if unitKind u = some .core then
      let c := coreId (uidCore u)
      if (d.core c).placed then some (d.coreLevel c, d.coreNeed u r i w) else none
    else some (match w with | some v => d.dbgLevel (bits v 8 8) | none => d.dbgMax, 1)
  else if u = dbgUid ∧ 0x4000 ≤ off then
    (d.dbgUnitNeed r i w).map (fun x => (match x.1 with | some p => d.dbgLevel p | none => d.dbgMax, x.2))
  else if 0x3000 ≤ off ∧ off < 0x4000 ∧ d.fld u 0x10 8 2 = 1 then some (d.dbgLevel (d.fld u 0x10 0 8), 2)
  else none

/-- Perform a debug write to a debug register: the status, `none` while a halt request is posted. -/
def Dev.dbgWrite (d : Dev) (u : Nat) (r : RegRow) (i : Nat) (v : Word) : Dev × Option Nat :=
  let c := coreId (uidCore u)
  let st (x : Dev × Bool) : Dev × Option Nat := (x.1, some (if x.2 then 0 else 4))
  match r.name with
  | .cdbgCmd => d.cdbgCmd c (bits v 0 3)
  | .cdbgPc => if d.halted c then (d.modCore c (fun k => { k with pc := v &&& ~~~3#64 }), some 0) else (d, some 4)
  | .cdbgRsel => if d.halted c then (d.regStore u r i v, some 0) else (d, some 4)
  | .cdbgRdata => if d.halted c then (d.cdbgWrite c v, some 0) else (d, some 4)
  | .trcSrc => st (d.trcSrcWrite u r v)
  | .tsCtl => st (d.tsCtlWrite r i v)
  | .tsTrig => (d.tsTrigWrite r i v, some 0)
  | .dbgUnlkCtl => (d.unlkCtlWrite r v, some 0)
  | .dbmCtl => st (d.dbmCtlWrite r v)
  | .vtOut => (d.vtOutDebug i v, some 0)
  | .vtIn => st (d.vtInDebug i v)
  | _ => (d.regStore u r i v, some 0)

/-- Whether a debug read is refused with status 0x4 by the state of its target. -/
def Dev.dbgReadShut (d : Dev) (u : Nat) (r : RegRow) : Bool :=
  match r.name with
  | .cdbgPc | .cdbgRsel | .cdbgRdata => !d.halted (uidCore u)
  | _ => false

/-- DEBUG_ACCESS (R740-R743): one frame. `silent`: no target answers, and the frame waits for its timeout. -/
def Dev.debugAccess (d : Dev) (write side : Bool) (pa : Nat) (v : Word) (silent : Bool) : Dev :=
  let u := ctlUnit pa; let off := ctlOff pa
  let w := if write then some v else none
  let frame := [BitVec.ofNat 8 (write.toNat + 2 * side.toNat)] ++ natLe 7 pa ++ natLe 8 v.toNat
  let ans (d : Dev) (st data : Nat) : Dev := d.answer (debugFrame st data)
  if silent then { d with db := { d.db with dr := frame, waiting := d.db.waiting ++ [(frame, d.dt)] } }
  else
    let d := { d with db := { d.db with dr := frame } }
    if pa < 0xF00000000000 ∨ 0xF000C0000000 ≤ pa ∨ pa % 8 ≠ 0 then ans d 1 0
    else match regAt u off with
    | none => if d.bench then ans d 3 errNoTarget else ans d 1 0
    | some (r, i) =>
      let own := decide (0xF000 ≤ off) || (u == dbgUid && decide (0x4000 ≤ off))
      let ok := d.bench || (match d.dbgNeed u off r i w with
        | some (lv, need) => decide (need ≤ lv) && (!side || write || lv == 2)
        | none => false)
      if ok = false then ans d 1 0
      else if own then
        match w with
        | some v =>
          match d.dbgWrite u r i v with
          | (d1, some st) => ans d1 st 0
          | (d1, none) => d1
        | none => if d.dbgReadShut u r then ans d 4 0 else ans d 0 (readView r (d.regValue u r i)).toNat
      else
        let q : Req := ⟨.debug true, .k, 0, .none, pa, 8, .dS, !side, w.map (fun v => natLe 8 v.toNat)⟩
        match d.ctlAccess q with
        | (d1, .data bs) => ans d1 0 (leNat bs)
        | (d1, .err e) => ans d1 3 e

def execDebugAccess (write side : Bool) (pa : BitVec 48) (v : Word) (silent : Bool) (s : State) :
    Host.Outcome State Fault Refusal :=
  onDev (fun d => d.debugAccess write side pa.toNat v silent) s

/-- DEBUG_ACCESS_TIMEOUT (R742): no answer within the class 5 bound: status 0x2. -/
def execDebugAccessTimeout (s : State) : Host.Outcome State Fault Refusal :=
  onDev (fun d =>
    match d.db.waiting with
    | [] => d
    | (_, t) :: rest =>
      if t + 8 * d.fld dbgUid 0x1000 0 20 ≤ d.dt then
        ({ d with db := { d.db with waiting := rest } }).answer (debugFrame 2 0)
      else d) s

/-- A debug write of a register of the debug domain control or of page 15 of a unit. -/
def debugBy (u off : Nat) (v : Word) (s : State) : Host.Outcome State Fault Refusal :=
  onDev (fun d => d.debugAccess true false (ctlAddr u off) v false) s

/-- UNLOCK_NEWCHAL (R744): a debug write of DBG_UNLK_CTL with NEWCHAL 1. -/
def execUnlockNewchal (v : Word) (s : State) : Host.Outcome State Fault Refusal := debugBy dbgUid 0x5020 (setBit v 0 true) s

/-- UNLOCK_GO (R744, R745). -/
def execUnlockGo (part : BitVec 8) (level : BitVec 2) (s : State) : Host.Outcome State Fault Refusal :=
  debugBy dbgUid 0x5020 (BitVec.ofNat 64 (2 + 4 * part.toNat + 1024 * level.toNat)) s

/-- UNLOCK_RELOCK (R747). -/
def execUnlockRelock (part : BitVec 8) (s : State) : Host.Outcome State Fault Refusal :=
  debugBy dbgUid 0x5020 (BitVec.ofNat 64 (4 * part.toNat + 1024 + 4096)) s

/-- CDBG_HALT (R749, R753). -/
def execCdbgHalt (c : CoreId) (s : State) : Host.Outcome State Fault Refusal := debugBy (coreUid c) 0xF000 1 s
/-- CDBG_RESUME (R751, R761). -/
def execCdbgResume (c : CoreId) (s : State) : Host.Outcome State Fault Refusal := debugBy (coreUid c) 0xF000 2 s
/-- CDBG_STEP (R751). -/
def execCdbgStep (c : CoreId) (s : State) : Host.Outcome State Fault Refusal := debugBy (coreUid c) 0xF000 3 s
/-- CDBG_STEP_REGION (R751). -/
def execCdbgStepRegion (c : CoreId) (s : State) : Host.Outcome State Fault Refusal := debugBy (coreUid c) 0xF000 4 s

/-- DBM_GO (R767): a write of DBM_CTL with GO = 1. -/
def execDbmGo (ctl : Word) (s : State) : Host.Outcome State Fault Refusal := debugBy dbgUid 0x6000 (setBit ctl 0 true) s

/-- VT_OUT_WRITE (R771): a write by a core. -/
def execVtOutWrite (c : CoreId) (p : Fin 256) (v : Word) (s : State) : Host.Outcome State Fault Refusal :=
  writeBy (.core c) dbgUid (offVt p) v s
/-- VT_OUT_EMPTY (R771): a debug write of 1 to FULL. -/
def execVtOutEmpty (p : Fin 256) (s : State) : Host.Outcome State Fault Refusal := debugBy dbgUid (offVt p) (BitVec.ofNat 64 (2 ^ 63)) s
/-- VT_IN_WRITE (R772): a debug write. -/
def execVtInWrite (p : Fin 256) (v : Word) (s : State) : Host.Outcome State Fault Refusal := debugBy dbgUid (offVt p + 8) v s
/-- VT_IN_EMPTY (R772): a core writes 1 to FULL. -/
def execVtInEmpty (c : CoreId) (p : Fin 256) (s : State) : Host.Outcome State Fault Refusal :=
  writeBy (.core c) dbgUid (offVt p + 8) (BitVec.ofNat 64 (2 ^ 63)) s

/-- TRACE_SOURCE_CONFIG (R774): a debug write of TRC_SRC. -/
def execTraceSourceConfig (u : BitVec 16) (v : Word) (s : State) : Host.Outcome State Fault Refusal := debugBy u.toNat 0xF800 v s
/-- TRACE_SESSION_CONFIG (R776): a debug write of TS_CTL[k]. -/
def execTraceSessionConfig (k : Fin 16) (v : Word) (s : State) : Host.Outcome State Fault Refusal := debugBy dbgUid (offTs k) v s

end Sys2Proof.Machine
end

