-- ==== Sys2Proof/Machine/CacheRows.lean ====
section
/-!
DEFINITION. Commands of the caches and homes (R315-R334): requests of cores to homes, recalls and invalidations, atomic
operations and uncached accesses at a home, ageing, clearing walks, set-and-way maintenance.
-/
namespace Sys2Proof.Machine

/-- Whether an address is cacheable: SDRAM or a remote window (R305). -/
def cacheable (pa : Nat) : Bool := decide (pa < 0x40000000000) || inRemote pa

/-- The requester's L2 does not hold the sector of a cacheable address. -/
def Dev.missing (d : Dev) (rq : Rq) (pa : Nat) : Bool := cacheable pa && d.l2Miss rq pa

/-- HOME_READ_REQUEST (R316, R325): a load miss of core `c` at an address after relocation. DEDUCED, log entry 88. -/
def execHomeReadRequest (c : CoreId) (pa : BitVec 48) (s : State) : Host.Outcome State Fault Refusal :=
  onDev (fun d => let rq := d.rqOf c; if d.missing rq pa.toNat then (d.l2Get rq pa.toNat 0 false false).1 else d) s

/-- HOME_READ_EXCLUSIVE (R316): a store of core `c` to a sector that its L2 does not hold. DEDUCED, log entry 88. -/
def execHomeReadExclusive (c : CoreId) (pa : BitVec 48) (s : State) : Host.Outcome State Fault Refusal :=
  onDev (fun d => let rq := d.rqOf c; if d.missing rq pa.toNat then (d.l2Own rq pa.toNat 0 false).1 else d) s

/-- HOME_UPGRADE (R316, R322): a store of core `c` to a sector that its L2 holds in S. -/
def execHomeUpgrade (c : CoreId) (pa : BitVec 48) (s : State) : Host.Outcome State Fault Refusal :=
  onDev (fun d =>
    let rq := d.rqOf c
    if (d.l2Sector rq.cl pa.toNat).st = .s then (d.l2Own rq pa.toNat 0 false).1 else d) s

/-- Apply an operation at the home of an address of core `c`, when that home answers. -/
def Dev.atHome (d : Dev) (c : CoreId) (pa : Nat) (f : Home → Dev) : Dev :=
  match d.homeOf (d.rqOf c) pa with
  | .error _ => d
  | .ok h => if (d.homeAnswers h).isSome then d else f h

/-- HOME_RECALL (R316, R322): the home brings an owned sector's data home; the owner keeps a shared copy. -/
def execHomeRecall (c : CoreId) (pa : BitVec 48) (s : State) : Host.Outcome State Fault Refusal :=
  onDev (fun d => d.atHome c pa.toNat (fun h => d.homeRecall h pa.toNat)) s

/-- HOME_INVALIDATION (R318): the home invalidates every sharer of a sector, and recalls an owner. -/
def execHomeInvalidation (c : CoreId) (pa : BitVec 48) (s : State) : Host.Outcome State Fault Refusal :=
  onDev (fun d => d.atHome c pa.toNat (fun h => d.homeInvalidate h pa.toNat none)) s

/-- HOME_WRITEBACK (R304, R322): the L2 of core `c` writes a dirty sector back to its home and holds it no longer. -/
def execHomeWriteback (c : CoreId) (pa : BitVec 48) (s : State) : Host.Outcome State Fault Refusal :=
  onDev (fun d =>
    let rq := d.rqOf c; let a := pa.toNat / 64 * 64
    let d0 := d.l2Check rq.cl a
    let x := d0.l2Sector rq.cl a
    if x.st = .m then (d0.homeWriteback rq a x).l2Drop rq.cl a else d) s

/-- What an atomic operation makes of the old value of `n` bytes: 0 add, 1 swap, otherwise compare and swap; `none` where
nothing is written (Table 3-6). -/
def atomicFn (op n : Nat) (x y : Word) (old : Nat) : Option Nat :=
  let m := 2 ^ (8 * n)
  if op = 0 then some ((old + x.toNat) % m)
  else if op = 1 then some (x.toNat % m)
  else if old = x.toNat % m then some (y.toNat % m) else none

/-- An atomic operation at the home of a cacheable address (R137, R320); other cores' reservations on the granule are lost
(R135), and a rejoin notes the page. -/
def Dev.atomicAt (d : Dev) (c : CoreId) (pa n : Nat) (wt : Bool) (f : Nat → Option Nat) : Dev × Except Nat Nat :=
  match d.homeAtomic (d.rqOf c) pa n wt f with
  | (d1, .error e) => (d1, .error e)
  | (d1, .ok old) =>
    ((d1.loseResv pa n (some c.val)).noteWrite (d.core c).part (d.core c).rep pa, .ok old)

/-- HOME_ATOMIC (R137, R320): an atomic operation of core `c` reaches its home. -/
def execHomeAtomic (c : CoreId) (pa : BitVec 48) (wide wt : Bool) (op : BitVec 2) (x y : Word) (s : State) :
    Host.Outcome State Fault Refusal :=
  onDev (fun d =>
    let n := if wide then 8 else 4
    if cacheable pa.toNat = false ∨ pa.toNat % n ≠ 0 then d
    else match d.atomicAt c pa.toNat n wt (atomicFn op.toNat n x y) with
    | (d1, .ok old) => d1.answer (.data (natLe n old))
    | (d1, .error e) => d1.answer (.err e)) s

/-- HOME_UNCACHED_ACCESS (R319): an NC, DO or DS access within one sector of SDRAM is performed at the home. -/
def execHomeUncachedAccess (by_ : Agent) (pa : BitVec 48) (size : Fin 65) (w : Option (List Byte)) (s : State) :
    Host.Outcome State Fault Refusal :=
  onDev (fun d =>
    if cacheable pa.toNat = false then d
    else
      let q : Req := match by_ with
        | .core c => ⟨by_, (d.core c).priv, (d.core c).part, (d.core c).rep, pa.toNat, size.val, .nc, false, w⟩
        | _ => ⟨by_, .k, 0, .none, pa.toNat, size.val, .nc, false, w⟩
      let (d1, a) := d.serve q
      d1.answer a) s

/-! The units as caches. -/

/-- Whether a unit is an L2, an L3 slice or an exchange slice. -/
def isCache (u : Nat) : Bool :=
  match unitKind u with
  | some .l2 | some .l3 | some .xslice => true
  | _ => false

/-- Every valid line of a cache grows older by 1, up to 3 (R326). -/
def Dev.ageAll (d : Dev) (u : Nat) : Dev :=
  if uidType u = 1 then
    { d with l2 := SMap.mapVals (fun _ => none) (fun k l =>
        if k / 2 ^ 13 = uidClusterNo u then l.map (fun (x : L2Line) => { x with age := min 3 (x.age + 1) }) else l) d.l2 }
  else
    { d with homes := SMap.mapVals (fun _ => none) (fun k l =>
        if k / 2 ^ 15 = u then l.map (fun (x : HomeLine) => { x with age := min 3 (x.age + 1) }) else l) d.homes }

/-- AGEING_PERIOD (R326): a period of AGE_PER µs of a cache has passed. -/
def execAgeingPeriod (u : BitVec 16) (s : State) : Host.Outcome State Fault Refusal :=
  onDev (fun d => if isCache u.toNat ∧ d.fld u.toNat 0x4000 8 16 ≠ 0 then d.ageAll u.toNat else d) s

/-- CACHE_INIT_DONE (R327): a clearing walk ends; every line is invalid. -/
def execCacheInitDone (u : BitVec 16) (s : State) : Host.Outcome State Fault Refusal :=
  onDev (fun d => if isCache u.toNat ∧ d.flag u.toNat 0x4000 32 then (d.dropCache u.toNat).setFlag u.toNat 0x4000 32 false else d) s

/-- A keeper write of CM_OP. DEDUCED, log entry 79. -/
def cmOp (u op set way : Nat) (s : State) : Host.Outcome State Fault Refusal :=
  writeBy .keeper u 0x4100 (BitVec.ofNat 64 (op + at_ set 8 11 + at_ way 24 4)) s

/-- CM_CLEAN_SET_WAY (R332). -/
def execCmCleanSetWay (u : BitVec 16) (set : BitVec 11) (way : BitVec 4) (s : State) : Host.Outcome State Fault Refusal :=
  cmOp u.toNat 1 set.toNat way.toNat s
/-- CM_INV_SET_WAY (R332). -/
def execCmInvSetWay (u : BitVec 16) (set : BitVec 11) (way : BitVec 4) (s : State) : Host.Outcome State Fault Refusal :=
  cmOp u.toNat 2 set.toNat way.toNat s
/-- CM_FLUSH_SET_WAY (R332). -/
def execCmFlushSetWay (u : BitVec 16) (set : BitVec 11) (way : BitVec 4) (s : State) : Host.Outcome State Fault Refusal :=
  cmOp u.toNat 3 set.toNat way.toNat s
/-- CM_FLUSH_ALL (R332). -/
def execCmFlushAll (u : BitVec 16) (s : State) : Host.Outcome State Fault Refusal := cmOp u.toNat 4 0 0 s
/-- CM_CLEAN_ALL (R332). -/
def execCmCleanAll (u : BitVec 16) (s : State) : Host.Outcome State Fault Refusal := cmOp u.toNat 5 0 0 s

/-- CM_OP_DONE (R332): the operation in progress completes; `failed`: a write-back met an error response. -/
def execCmOpDone (u : BitVec 16) (failed : Bool) (s : State) : Host.Outcome State Fault Refusal :=
  onDev (fun d =>
    if isCache u.toNat ∧ d.flag u.toNat 0x4108 0 then
      let d1 := (d.setFlag u.toNat 0x4108 0 false).setFlag u.toNat 0x4108 1 true
      if failed then d1.setFlag u.toNat 0x4108 2 true else d1
    else d) s

end Sys2Proof.Machine
end

