-- ==== Sys2Proof/Machine/Services.lean ====
section
/-!
DEFINITION. Keeper services (R419-R421, R426): finding the call, the parameter block and the results; the services of
Table 9-3 (R337, R614-R616, R657-R659, R692, R716, R726).
-/
namespace Sys2Proof.Machine

/-! A call. -/

/-- A call that waits in a keeper mailbox: the mailbox, the service number with bits [15:12], the address of the parameter
block, the caller's logical core and partition. -/
structure Call where
  mbox : Nat
  code : Nat
  pa : Nat
  lcore : Nat
  part : Nat

/-- The call that waits in keeper mailbox 256 + `m`; `none` where there is none or its sender is no partition.
DEDUCED and DESIGN CHOICE, log entry 77. -/
def Dev.callIn (d : Dev) (m : Nat) : Option Call :=
  let b := 256 + m; let v := d.reg mbxU (mbxOff b 0); let l := d.fld mbxU (mbxOff b 8) 8 8
  if d.flag mbxU (mbxOff b 8) 0 = false ∨ d.flag mbxU (mbxOff b 8) 16 then none
  else (d.lcorePart l).map (fun p => ⟨b, bits v 0 16, bits v 16 48, l, p⟩)

/-- Acknowledge a call with a code of Table 9-4. -/
def Dev.ackCall (d : Dev) (c : Call) (code : Nat) : Dev := (d.mbxAck c.mbox (BitVec.ofNat 64 (code + 2 ^ 32))).1

/-- The replicas that a keeper access of the caller's memory concerns: 0 alone in a single-tier partition, the live ones
otherwise (R426). -/
def Dev.svcReps (d : Dev) (p : Nat) : List Nat :=
  match d.recOf p with
  | some r => if r.tier = 0 then [0] else d.liveReps p
  | none => [0]

/-- The physical core on which a logical core of a replica runs. DEDUCED, log entry 40. -/
def Dev.coreOfRep (d : Dev) (l ix : Nat) : Option CoreId := (d.coresOf l).find? (fun c => repIx (d.core c).rep == ix)

/-- A window of a core that holds all of [pa, pa + n) and grants the rights named. -/
def Dev.winGrants (d : Dev) (c : CoreId) (pa n : Nat) (w : Bool) : Option Nat :=
  firstUpto 16 (fun i =>
    let z := d.winLog c.val i; let b := d.winBase c.val i / 2 ^ z
    d.flag (coreUid c) (offWin i) 0 && pa / 2 ^ z == b && (pa + n - 1) / 2 ^ z == b &&
      (if w then d.flag (coreUid c) (offWin i + 8) 9 else d.flag (coreUid c) (offWin i + 8) 8))

/-- Where an extent of the caller lies for a replica (R301, R302); `none` where no window grants the right. -/
def Dev.callerAt (d : Dev) (c : Call) (ix pa n : Nat) (w : Bool) : Option Nat :=
  match d.coreOfRep c.lcore ix with
  | none => none
  | some k => (d.winGrants k pa n w).map (fun i => d.relocate k.val i pa)

/-- The first replica that is read for a call. -/
def Dev.readRep (d : Dev) (c : Call) : Nat := (d.svcReps c.part).headD 0

/-- Read an extent of the caller, at the lowest-lettered live replica; `none` where a window or an error response refuses. -/
def Dev.callRead (d : Dev) (c : Call) (pa n : Nat) : Dev × Option (List Byte) :=
  let ix := d.readRep c
  match d.callerAt c ix pa n false with
  | none => (d, none)
  | some a => let (d1, bs, ok) := d.repRead c.part ix a n; (d1, if ok then some bs else none)

/-- Write results at an extent of the caller, in every live replica (R426). -/
def Dev.callWrite (d : Dev) (c : Call) (pa : Nat) (bs : List Byte) : Dev :=
  forAll (d.svcReps c.part) (fun ix d =>
    match d.callerAt c ix pa bs.length true with
    | none => d
    | some a => ((d.repWrite c.part ix a bs).1).noteWrite c.part
        (match d.recOf c.part with | some r => repAt r.tier ix | none => .none) a) d

/-- Serve a call of service `code` (R419, R420): the body gets the parameter block, and answers with the code of the
acknowledge, or with none while the operation goes on. DEDUCED and DESIGN CHOICE, log entry 77. -/
def Dev.service (d : Dev) (m code : Nat) (results : Bool) (body : Dev → Call → List Byte → Dev × Option Nat) : Dev :=
  match d.callIn m with
  | none => d
  | some c =>
    if c.code ≠ code then d
    else if c.pa % 64 ≠ 0 ∨ (results && (d.callerAt c (d.readRep c) c.pa 64 true).isNone) then d.ackCall c 3
    else match d.callRead c c.pa 64 with
    | (d1, none) => d1.ackCall c 3
    | (d1, some b) => match body d1 c b with
      | (d2, some x) => d2.ackCall c x
      | (d2, none) => d2

/-- Bytes [lo, hi) of a block are 0. -/
def blank (b : List Byte) (lo hi : Nat) : Bool := ((b.drop lo).take (hi - lo)).all (· == 0)

/-- A result area of 1,024 bytes: 64-byte aligned, in a window of the caller with the W right. -/
def Dev.areaOk (d : Dev) (c : Call) (pa : Nat) : Bool :=
  pa % 64 == 0 && (d.callerAt c (d.readRep c) pa 1024 true).isSome

/-! INFO, NOTICE_READ, LOG_READ, LOST_CLEAR, PART_RESET, MEAS_READ. -/

/-- SVC_INFO (R420): the block is written. Its layout is not stated: 64 free bytes. -/
def execSvcInfo (m : Fin 4) (s : State) : Host.Outcome State Fault Refusal :=
  onDev (fun d => d.service m 0x001 true (fun d c _ =>
    let (x, d1) := d.draw
    (d1.callWrite c c.pa (natLe 64 x), some 0))) s

/-- SVC_NOTICE_READ (R415, R420): the caller's oldest unread notice, 0x8 where there is none. -/
def execSvcNoticeRead (m : Fin 4) (s : State) : Host.Outcome State Fault Refusal :=
  onDev (fun d => d.service m 0x002 true (fun d c _ =>
    match d.kp.notices.find? (fun n => n.1 == c.part) with
    | none => (d, some 8)
    | some n => (({ d with kp := { d.kp with notices := d.kp.notices.erase n } }).callWrite c c.pa n.2, some 0))) s

/-- The entries of the log, oldest first. -/
def Dev.logEntries (d : Dev) : List (List Byte) :=
  let head := d.fld hbUid 0xC000 16 11
  let ix := if d.flag hbUid 0xC000 27 then (List.range 2048).map (fun i => (head + i) % 2048) else List.range head
  (ix.map (fun i => SMap.get (fun _ => []) d.elog i)).filter (fun e => e != [])

/-- The entries that a caller is given, from a sequence number on: its partition's, and those of severity device (R726). -/
def Dev.logFor (d : Dev) (p first : Nat) : List (List Byte) :=
  d.logEntries.filter (fun e =>
    decide ((iLe e 14 2 + 65536 - first) % 65536 < 32768) && (iLe e 11 1 == p || iLe e 10 1 % 128 == 4))

/-- SVC_LOG_READ (R726). -/
def execSvcLogRead (m : Fin 4) (s : State) : Host.Outcome State Fault Refusal :=
  onDev (fun d => d.service m 0x003 false (fun d c b =>
    let first := iLe b 0 2; let n := iLe b 2 1; let area := iLe b 8 8
    if n = 0 ∨ 31 < n ∨ d.areaOk c area = false then (d, some 4)
    else
      let es := d.logFor c.part first
      let out := es.take n
      let nxt := match es.drop n with | e :: _ => iLe e 14 2 | [] => d.elogSeq % 65536
      let d1 := d.callWrite c area (natLe 2 out.length ++ natLe 2 nxt)
      (d1.callWrite c (area + 32) out.flatten, some (if out = [] then 8 else 0)))) s

/-- SVC_LOST_CLEAR (R337): bytes 0-7 of the block are the address. -/
def execSvcLostClear (m : Fin 4) (s : State) : Host.Outcome State Fault Refusal :=
  onDev (fun d => d.service m 0x010 false (fun d c b =>
    match d.xrOf (iLe b 0 8) with
    | none => (d, some 4)
    | some n =>
      if (d.callerAt c (d.readRep c) (iLe b 0 8) 1 true).isNone then (d, some 2)
      else (d.setHubs (0x5008 + 16 * n) (setBit (d.reg (hubUid 0) (0x5008 + 16 * n)) 25 false), some 0))) s

/-- SVC_PART_RESET (R420): acknowledged first, then the calling single-tier partition is reset. -/
def execSvcPartReset (m : Fin 4) (s : State) : Host.Outcome State Fault Refusal :=
  onDev (fun d => d.service m 0x030 false (fun d c _ =>
    match d.recOf c.part with
    | some r => if r.tier = 0 then ((d.ackCall c 0).partitionReset c.part, none) else (d, some 2)
    | none => (d, some 2))) s

/-- SVC_MEAS_READ (R679, R692): measurements and a signed quote; while the keys are locked the signature bytes are 0. -/
def execSvcMeasRead (m : Fin 4) (s : State) : Host.Outcome State Fault Refusal :=
  onDev (fun d => d.service m 0x050 false (fun d c b =>
    let area := iLe b 32 8
    if d.areaOk c area = false then (d, some 4)
    else
      let body := (List.range 16).flatMap (fun n => d.measBytes n) ++ b.take 32 ++ natLe 8 Config.serial.toNat ++
        natLe 8 (d.reg bootUid 0x4808).toNat ++ natLe 8 (d.reg bootUid 0x4000).toNat
      let locked := d.flag bootUid 0x4000 9
      let sig : List Byte := if locked then List.replicate 96 0 else (Config.quoteSign (Config.sha384 body) ++ List.replicate 96 (0 : Byte)).take 96
      let (x, d1) := d.draw
      (d1.callWrite c area ((body ++ sig ++ natLe 96 x).take 1016 ++ natLe 8 0), some (if locked then 7 else 0)))) s

/-! RESTRUCTURE (R614-R618). -/

/-- A RESTRUCTURE block whose fields are not as Table 14-5 has them for an operation. -/
def restructBad (op : Nat) (b : List Byte) : Bool :=
  let o := iLe b 0 1
  decide (o ≠ op) || !blank b 1 2 || !blank b 4 8 || !blank b 9 16 || !blank b 22 24 || !blank b 32 64 ||
    (decide (o ≠ 1 ∧ o ≠ 2) && !blank b 8 9) || (decide (o ≠ 3) && !blank b 16 22) || (decide (o ≠ 4) && !blank b 24 32)

/-- A RESTRUCTURE call: permitted by the record, its fields as Table 14-5 has them, and no operation of another caller
running. DEDUCED, log entry 81. -/
def Dev.restructure (d : Dev) (m op : Nat) (body : Dev → Call → List Byte → Dev × Option Nat) : Dev :=
  match d.callIn m with
  | none => d
  | some c0 => match d.callRead c0 c0.pa 64 with
    | (_, none) => d.service m 0x020 false (fun d _ _ => (d, some 3))
    | (_, some b0) =>
      if 1 ≤ iLe b0 0 1 ∧ iLe b0 0 1 ≤ 4 ∧ iLe b0 0 1 ≠ op then d
      else d.service m 0x020 false (fun d c b =>
        if d.granted c.part 5 = false then (d, some 2)
        else if restructBad op b then (d, some 4)
        else if d.kp.op ≠ 0 ∧ (d.kp.op ≠ c.part + 1 ∨ iLe b 0 1 < 3) then (d, some 5)
        else body d c b)

/-- RESTRUCTURE_GROW (R615). -/
def execRestructureGrow (m : Fin 4) (s : State) : Host.Outcome State Fault Refusal :=
  onDev (fun d => d.restructure m 1 (fun d c b => d.resizeWin c.part (iLe b 2 2) (iLe b 8 1) false)) s

/-- RESTRUCTURE_SHRINK (R615). -/
def execRestructureShrink (m : Fin 4) (s : State) : Host.Outcome State Fault Refusal :=
  onDev (fun d => d.restructure m 2 (fun d c b => d.resizeWin c.part (iLe b 2 2) (iLe b 8 1) true)) s

/-- RESTRUCTURE_MOVE (R614, R615): a call of a partition, or the keeper's own move of a logical core (`m` none). -/
def execRestructureMove (m : Option (Fin 4)) (p l : Fin 256) (a b c : BitVec 16) (s : State) : Host.Outcome State Fault Refusal :=
  onDev (fun d =>
    match m with
    | some x => d.restructure x 3 (fun d c b => d.moveOp c.part (iLe b 2 2) [iLe b 16 2, iLe b 18 2, iLe b 20 2])
    | none => if d.kp.op ≠ 0 ∧ d.kp.op ≠ p.val + 1 then d else (d.moveOp p l [a.toNat, b.toNat, c.toNat]).1) s

/-- RESTRUCTURE_CHANGE_TIER (R614-R617). -/
def execRestructureChangeTier (m : Fin 4) (s : State) : Host.Outcome State Fault Refusal :=
  onDev (fun d => d.restructure m 4 (fun d c b =>
    let pa := iLe b 24 8
    match d.callRead c pa 64 with
    | (d1, none) => (d1, some 4)
    | (d1, some h) =>
      let len := 64 + 8 * iLe h 4 1 + 32 * iLe h 2 2 + 32 * iLe h 5 1 + 4 * iLe h 6 1 + 4 * iLe h 7 1
      match d1.callRead c pa len with
      | (d2, none) => (d2, some 4)
      | (d2, some bs) =>
        let r := parseRec bs
        if r.tier ≠ iLe b 2 2 ∨ 2 < r.tier then (d2, some 4) else d2.tierOp c.part r)) s

/-! HAREBELL (R716). -/

/-- A HAREBELL block whose fields are not as Table 17-6 has them for an operation. -/
def harebellBad (op : Nat) (b : List Byte) : Bool :=
  let o := iLe b 0 1
  decide (o ≠ op) || !blank b 2 8 || (decide (o ≠ 3) && !blank b 8 16) || !blank b 16 64

/-- A HAREBELL call: the record grants the service, and the fields are as Table 17-6 has them. -/
def Dev.harebellCall (d : Dev) (m op : Nat) (body : Dev → Nat → Word → Dev × Option Nat) : Dev :=
  match d.callIn m with
  | none => d
  | some c0 => match d.callRead c0 c0.pa 64 with
    | (_, none) => d.service m 0x040 false (fun d _ _ => (d, some 3))
    | (_, some b0) =>
      if 1 ≤ iLe b0 0 1 ∧ iLe b0 0 1 ≤ 3 ∧ iLe b0 0 1 ≠ op then d
      else d.service m 0x040 false (fun d c b =>
        if d.granted c.part 4 = false then (d, some 2)
        else if harebellBad op b then (d, some 4)
        else body d (iLe b 1 1) (BitVec.ofNat 64 (iLe b 8 8)))

/-- HAREBELL_START (R716). -/
def execHarebellStart (m : Fin 4) (s : State) : Host.Outcome State Fault Refusal :=
  onDev (fun d => d.harebellCall m 1 (fun d k _ =>
    match d.hb.msgs[k]? with
    | none => (d, some 4)
    | some x =>
      if x.samples = [] ∨ 16 ≤ k then (d, some 4)
      else (({ d with hb := { d.hb with msg6 := k } }).trigSet 6, some 0))) s

/-- HAREBELL_STOP (R716). -/
def execHarebellStop (m : Fin 4) (s : State) : Host.Outcome State Fault Refusal :=
  onDev (fun d => d.harebellCall m 2 (fun d k _ => if 6 < k then (d, some 4) else (d.trigClear k, some 0))) s

/-- Offset of the Harebell setting that byte 1 names. -/
def hbSetting (k : Nat) : Option Nat :=
  if k ≤ 6 then some (0xB100 + 8 * k) else if 8 ≤ k ∧ k ≤ 11 then some (0xB200 + 8 * (k - 8))
  else match k with | 12 => some 0xB300 | 13 => some 0xB308 | 14 => some 0xB310 | _ => none

/-- HAREBELL_WRITE_SETTING (R715, R716): the setting is written and journalled. -/
def execHarebellWriteSetting (m : Fin 4) (s : State) : Host.Outcome State Fault Refusal :=
  onDev (fun d => d.harebellCall m 3 (fun d k v =>
    match (hbSetting k).bind (fun o => regAt hbUid o) with
    | none => (d, some 4)
    | some (r, i) =>
      if (writeFields r.fields (d.reg hbUid (r.off + r.stride * i)) v).2 then (d, some 4)
      else ((d.regStore hbUid r i v).journal 4, some 0))) s

/-! POWER (R657-R659). -/

/-- A POWER block whose fields are not as R657 has them for an operation. -/
def powerBad (op : Nat) (b : List Byte) : Bool :=
  let o := iLe b 0 1
  decide (o ≠ op) || !blank b 1 2 || !blank b 5 8 || !blank b 12 16 || !blank b 18 64 ||
    (decide (o ≠ 1) && (!blank b 2 4 || !blank b 8 12)) || (decide (o ≠ 1 ∧ o ≠ 3) && !blank b 4 5) ||
    (decide (o ≠ 4) && !blank b 16 18) || decide (1 < iLe b 4 1)

/-- A POWER call whose operation is `op`; an operation not listed, or a nonzero value in a field shown as 0, is answered
with 0x4 (R657). -/
def Dev.powerCall (d : Dev) (m op : Nat) (body : Dev → Call → List Byte → Dev × Option Nat) : Dev :=
  match d.callIn m with
  | none => d
  | some c0 => match d.callRead c0 c0.pa 64 with
    | (_, none) => d.service m 0x060 false (fun d _ _ => (d, some 3))
    | (_, some b0) =>
      if 1 ≤ iLe b0 0 1 ∧ iLe b0 0 1 ≤ 4 ∧ iLe b0 0 1 ≠ op then d
      else d.service m 0x060 false (fun d c b => if powerBad op b then (d, some 4) else body d c b)

/-- POWER_NAP_SETTING (R657): CORE_PWR of a logical core of the caller. -/
def execPowerNapSetting (m : Fin 4) (s : State) : Host.Outcome State Fault Refusal :=
  onDev (fun d => d.powerCall m 1 (fun d c b =>
    let l := iLe b 2 2; let us := iLe b 8 4
    if d.granted c.part 6 = false then (d, some 2)
    else if d.lcorePart l ≠ some c.part ∨ us < 8 ∨ 4000 < us then (d, some 4)
    else (forAll (d.coresOf l) (fun (k : CoreId) d =>
      (d.setFlag (coreUid k) 0x4480 0 (iLe b 4 1 == 1)).setFld (coreUid k) 0x4480 4 12 us) d, some 0))) s

/-- POWER_HOLD (R658): a request to hold the clusters of the caller's cores is recorded. -/
def execPowerHold (m : Fin 4) (s : State) : Host.Outcome State Fault Refusal :=
  onDev (fun d => d.powerCall m 2 (fun d c _ =>
    match d.recOf c.part with
    | none => (d, some 2)
    | some r =>
      if d.granted c.part 6 = false then (d, some 2)
      else if r.tier ≠ 0 then (d, some 4)
      else ({ d with pw := { d.pw with holdAsked := c.part :: d.pw.holdAsked.filter (fun x => x != c.part) } }, some 0))) s

/-- POWER_DEEP_VOTE (R631, R657): the vote is cast or withdrawn; with the last one Deep entry begins. -/
def execPowerDeepVote (m : Fin 4) (s : State) : Host.Outcome State Fault Refusal :=
  onDev (fun d => d.powerCall m 3 (fun d c b =>
    if d.granted c.part 6 = false then (d, some 2)
    else
      let rest := d.pw.votes.filter (fun x => x != c.part)
      let d1 := { d with pw := { d.pw with votes := if iLe b 4 1 = 1 then c.part :: rest else rest } }
      if iLe b 4 1 = 1 ∧ d1.kp.released.all (fun p => d1.pw.votes.contains p) then ((d1.ackCall c 0).deepBegin, none)
      else (d1, some 0))) s

/-- The groups that a caller may release (R659): 0 and 1 when its record grants POWER, 2-7 when it owns the TDM group or
management port. -/
def Dev.mayRelease (d : Dev) (p g : Nat) : Bool :=
  let owns (u : Nat) : Bool := d.fld u 0x10 8 2 == 1 && d.fld u 0x10 0 8 == p
  if g < 2 then d.granted p 6 else if g < 6 then owns (tdmUid (g - 2)) else if g < 8 then owns (mgtUid (g - 6)) else false

/-- POWER_PAD_RELEASE (R659). -/
def execPowerPadRelease (m : Fin 4) (s : State) : Host.Outcome State Fault Refusal :=
  onDev (fun d => d.powerCall m 4 (fun d c b =>
    let mask := iLe b 16 2
    if 256 ≤ mask then (d, some 4)
    else if (List.range 8).any (fun g => mask / 2 ^ g % 2 == 1 && !d.mayRelease c.part g) then (d, some 2)
    else (d.padRelease mask, some 0))) s

/-- The services of Table 9-3. -/
def knownServices : List Nat := [0x001, 0x002, 0x003, 0x010, 0x020, 0x030, 0x040, 0x050, 0x060]

/-- SVC_UNKNOWN (R421): a reserved service, or nonzero bits [15:12]. -/
def execSvcUnknown (m : Fin 4) (s : State) : Host.Outcome State Fault Refusal :=
  onDev (fun d =>
    match d.callIn m with
    | none => d
    | some c => if knownServices.contains c.code then d else d.ackCall c 1) s

end Sys2Proof.Machine
end

