-- ==== Sys2Proof/Machine/Translate.lean ====
section
/-!
DEFINITION. Translation of a core's addresses (R260-R302): the walk, the TLBs, the page and window checks in the order of R285,
the A and D update, and the split of an access into parts of one granule.
-/
namespace Sys2Proof.Machine

/-- A synchronous cause: code, S_CAUSE.INFO and S_FADDR. -/
structure Cause where
  code : Nat
  info : Nat
  faddr : Nat
  deriving DecidableEq, Repr

/-- The kinds of access of Table 6-4. -/
inductive AKind where
  | fetch | load | store | atomic
  deriving DecidableEq, Repr

/-- Cause code of a translation fault of a kind. -/
def AKind.code : AKind → Nat
  | .fetch => 0x0A | .load => 0x0B | .store | .atomic => 0x0C
/-- Whether a kind is store-kind (it sets D). -/
def AKind.storeKind : AKind → Bool
  | .store | .atomic => true
  | _ => false
/-- The rights that a kind needs. -/
def AKind.rights : AKind → Rights
  | .fetch => ⟨false, false, true⟩ | .load => ⟨true, false, false⟩ | .store => ⟨false, true, false⟩ | .atomic => ⟨true, true, false⟩

/-! Table entries (R263-R265). -/

/-- Index of a virtual address at a level. -/
def vaIndex (va level : Nat) : Nat := va / 2 ^ (39 - 9 * level) % 512
/-- Bytes that a leaf maps at a level. -/
def pageSize (level : Nat) : Nat := 2 ^ (39 - 9 * level)
/-- The address in FRAME. -/
def frameOf (e : Word) : Nat := bits e 14 36 * 4096
/-- Whether an entry with V = 1 is malformed at a level (R265). -/
def malformed (e : Word) (level : Nat) : Bool :=
  if bit e 1 then level == 3
  else level == 0 || (bit e 3 && !bit e 2) || decide (5 ≤ bits e 9 3) || (level == 1 && bits e 14 18 != 0) ||
    (level == 2 && bits e 14 9 != 0)

/-- A leaf: the address of its entry (before relocation), the entry and its level. -/
structure Leaf where
  ea : Nat
  e : Word
  level : Nat
  deriving DecidableEq, Repr

/-- The TLB entry of a leaf (R287). -/
def leafEntry (va asid : Nat) (l : Leaf) : TlbEntry :=
  ⟨va / pageSize l.level * pageSize l.level, l.level, asid, bit l.e 6, bit l.e 2, bit l.e 3, bit l.e 4, bit l.e 5, bits l.e 9 3,
    bit l.e 12, bit l.e 13, bit l.e 8, frameOf l.e⟩

/-! The walk (R271-R275). -/

/-- The window through which the walker reads an entry address, when it is acceptable (R272, R297). -/
def Dev.tableWin (d : Dev) (c : CoreId) (ea : Nat) : Option Nat :=
  match d.winCheck c ea ⟨true, false, false⟩ .wb false with
  | .error _ => none
  | .ok n => if (d.rangeOf (d.relocate c n ea)).isSome then some n else none

/-- Read one table entry: from the walk cache, else 8 bytes through L2 (R271). -/
def Dev.readEntry (d : Dev) (c : CoreId) (n ea : Nat) : Dev × Except Nat Word :=
  match (d.core c).walkCache.find? (fun x => x.1 == ea) with
  | some x => (d, .ok x.2)
  | none =>
    let pa := d.relocate c n ea
    match d.l2Get (d.rqOf c) pa 0 false false with
    | (d1, .error e) => (d1, .error e)
    | (d1, .ok s) => (d1, .ok (s.extractLsb' (8 * (pa % 64)) 64))

/-- Keep a table pointer in the walk cache, of 64 entries (R275). DESIGN CHOICE, log entry 13. -/
def Core.keepPointer (k : Core) (ea : Nat) (e : Word) : Core :=
  if k.walkCache.any (fun x => x.1 == ea) then k else { k with walkCache := ((ea, e) :: k.walkCache).take 64 }

/-- The walk from a level on, `fuel` levels deep. DEDUCED, log entry 12. -/
def Dev.walkFrom (d : Dev) (c : CoreId) (va code : Nat) : Nat → Nat → Nat → Dev × Except Cause Leaf
  | 0, level, base => (d, .error ⟨code, 1 + 16 * level, base⟩)
  | fuel + 1, level, base =>
    let ea := base + 8 * vaIndex va level
    match d.tableWin c ea with
    | none => (d, .error ⟨0x0F, level, ea⟩)
    | some n => match d.readEntry c n ea with
      | (d1, .error _) => (d1, .error ⟨0x0E, level, ea⟩)
      | (d1, .ok e) =>
        if bit e 0 = false then (d1, .error ⟨code, 16 * level, va⟩)
        else if malformed e level then (d1, .error ⟨code, 1 + 16 * level, va⟩)
        else if bit e 1 then (d1.modCore c (fun k => k.keepPointer ea e)).walkFrom c va code fuel (level + 1) (frameOf e)
        else (d1, .ok ⟨ea, e, level⟩)

/-- A walk from L0. -/
def Dev.walk (d : Dev) (c : CoreId) (va code : Nat) : Dev × Except Cause Leaf :=
  d.walkFrom c va code 4 0 (bits (d.core c).sTbase 12 36 * 4096)

/-! The TLBs (R287-R292). -/

/-- Whether a cached leaf maps an address under an ASID. -/
def TlbEntry.covers (t : TlbEntry) (va asid : Nat) : Bool :=
  va / pageSize t.level == t.va / pageSize t.level && (t.g || t.asid == asid)

/-- The cached leaf of the smallest page that maps an address (R292). -/
def Core.tlbFind (k : Core) (va asid : Nat) : Option TlbEntry :=
  let m := k.tlb.filter (fun t => t.covers va asid)
  (m.find? (fun t => t.level == 3)).orElse (fun _ => (m.find? (fun t => t.level == 2)).orElse (fun _ => m.head?))

/-- Cache a leaf; the TLBs hold 2,048, latest first. DESIGN CHOICE, log entry 13. -/
def Core.tlbPut (k : Core) (t : TlbEntry) : Core :=
  { k with tlb := (t :: k.tlb.filter (fun x => !(x.va == t.va && x.level == t.level && x.g == t.g && (t.g || x.asid == t.asid)))).take 2048 }

/-- Whether a leaf lacks A, or D for a store-kind access. -/
def needsUpdate (e : Word) (storeKind : Bool) : Bool := !bit e 7 || (storeKind && !bit e 8)

/-- What an access still has to write into its leaf (R276, R277): the entry's address, the value read, the value to write,
its level, and the window that holds it. -/
structure Upd where
  ea : Nat
  seen : Word
  new : Word
  level : Nat
  win : Nat
  ent : TlbEntry
  deriving DecidableEq, Repr

/-- A translation: page base, level, rights, type, hints, and the update that it waits for. -/
structure Page where
  base : Nat
  size : Nat
  level : Nat
  r : Bool
  w : Bool
  x : Bool
  u : Bool
  mt : MemType
  ph : Bool
  st : Bool
  upd : Option Upd
  deriving DecidableEq, Repr

/-- The page that a cached leaf gives. -/
def TlbEntry.page (t : TlbEntry) (upd : Option Upd) : Page :=
  ⟨t.frame, pageSize t.level, t.level, t.r, t.w, t.x, t.u, (mtOf t.mt).getD .wb, t.ph, t.st, upd⟩

/-- The translation of an address while S_TBASE.EN is 0 (R261). -/
def Dev.flatPage (d : Dev) (c : CoreId) (va : Nat) : Page :=
  let mt := if inSelf va then MemType.wb else match d.winOf c va with
    | some n => (mtOf (d.fld (coreUid c) (offWin n + 8) 24 3)).getD .wb
    | none => .wb
  ⟨0, 2 ^ 48, 0, true, true, true, true, mt, false, false, none⟩

/-- Translate an address: directly, from the TLBs, or by a walk. A walk's leaf is cached when it needs no update; a leaf
whose update is due is cached with it. -/
def Dev.pageOf (d : Dev) (c : CoreId) (va : Nat) (kind : AKind) : Dev × Except Cause Page :=
  let k := d.core c
  if bit k.sTbase 0 = false then (d, .ok (d.flatPage c va))
  else
    let asid := bits k.sAsid 0 12
    let hit := match k.tlbFind va asid with
      | some t => if kind.storeKind && !t.d then none else some t
      | none => none
    match hit with
    | some t => (d, .ok (t.page none))
    | none => match (d.countEvt c 0x0A 1).walk c va kind.code with
      | (d1, .error x) => (d1, .error x)
      | (d1, .ok l) =>
        let t := leafEntry va asid l
        if needsUpdate l.e kind.storeKind then
          let new := setBit (if kind.storeKind then setBit l.e 8 true else l.e) 7 true
          (d1, .ok (t.page (some ⟨l.ea, l.e, new, l.level, (d1.winOf c l.ea).getD 0, leafEntry va asid ⟨l.ea, new, l.level⟩⟩)))
        else (d1.modCore c (fun k => k.tlbPut t), .ok (t.page none))

/-! The checks (R285). -/

/-- The page check of Table 6-4: the reason it fails for. Without translation no fetch is refused as a supervisor's fetch of
a user page (the leaf of R261 has U set). DEDUCED, log entry 12. -/
def pageCheck (kind : AKind) (user en : Bool) (p : Page) : Option Nat :=
  let need := kind.rights
  if (need.r && !p.r) || (need.w && !p.w) || (need.x && !p.x) then some 3
  else if user && !p.u then some 4
  else match kind with
    | .fetch => if en && !user && p.u then some 5 else if devType p.mt then some 6 else none
    | _ => none

/-- A checked part of an access: virtual address, physical address before and after relocation, length, type and hints,
whether it lies in the self slot, and the update due in its leaf. DEDUCED, log entry 25. -/
structure Part where
  va : Nat
  pa : Nat
  rpa : Nat
  n : Nat
  mt : MemType
  ph : Bool
  st : Bool
  self : Bool
  upd : Option Upd
  deriving DecidableEq, Repr

/-- Whether an atomic or ordered access of `n` bytes may be made (R132). -/
def atomicOk (va pa n : Nat) (mt : MemType) : Bool :=
  va % n == 0 && (inSelf pa || ((mt == .wb || mt == .wt) && decide (pa < 0x40000000000)))

/-- The checks of one part of an access of which `aligned` says whether it is naturally aligned; `strict` marks the accesses
of R132, of `size` bytes. -/
def Dev.checkPart (d : Dev) (c : CoreId) (kind : AKind) (strict : Option Nat) (aligned : Bool) (va n : Nat) : Dev × Except Cause Part :=
  if 2 ^ 48 ≤ va then (d, .error ⟨kind.code, 2, va⟩)
  else match d.pageOf c va kind with
  | (d1, .error x) => (d1, .error x)
  | (d1, .ok p) =>
    let k := d1.core c; let user := k.priv == .u
    let pa := p.base + va % p.size
    match pageCheck kind user (bit k.sTbase 0) p with
    | some reason => (d1, .error ⟨kind.code, reason + 16 * p.level, va⟩)
    | none =>
      let bad := match strict with | some size => !atomicOk va pa size p.mt | none => false
      if devType p.mt && !aligned then (d1, .error ⟨0x08, 0, va⟩)
      else if bad then (d1, .error ⟨0x09, 0, va⟩)
      else
        let win : Except Nat (Option Nat) :=
          if inSelf pa then (if devType p.mt then .error 2 else .ok none)
          else match d1.winCheck c pa kind.rights p.mt user with
            | .ok w => .ok (some w)
            | .error i => .error i
        match win with
        | .error info => (d1, .error ⟨0x0D, info, pa⟩)
        | .ok w =>
          match p.upd with
          | some u =>
            if d1.flag (coreUid c) (offWin u.win + 8) 9 = false then (d1, .error ⟨kind.code, 7 + 16 * p.level, va⟩)
            else (d1, .ok ⟨va, pa, match w with | some x => d1.relocate c x pa | none => pa, n, p.mt, p.ph, p.st, inSelf pa, p.upd⟩)
          | none => (d1, .ok ⟨va, pa, match w with | some x => d1.relocate c x pa | none => pa, n, p.mt, p.ph, p.st, inSelf pa, none⟩)

/-! Parts and items. -/

/-- An item of an access: address, length, and the size of its elements. A scalar is one item of one element, a contiguous
vector one item of several, a strided vector one item for each element. -/
structure Item where
  va : Nat
  n : Nat
  elem : Nat
  deriving DecidableEq, Repr

/-- Whether an item's elements are naturally aligned; a 12-byte element is when its address is a multiple of 4 (R201). -/
def Item.aligned (i : Item) : Bool := i.va % (if i.elem = 12 then 4 else i.elem) == 0

/-- The parts of `n` bytes from an address, one for each 64-byte granule (R124). -/
def splitFrom : Nat → Nat → Nat → List (Nat × Nat)
  | 0, _, _ => []
  | fuel + 1, va, n =>
    if n = 0 then [] else (va, min n (64 - va % 64)) :: splitFrom fuel ((va + min n (64 - va % 64)) % 2 ^ 64) (n - min n (64 - va % 64))

/-- The parts of an item: at most five, for an item of at most 256 bytes. DEDUCED, log entry 25. -/
def Item.split (i : Item) : List (Nat × Nat) := splitFrom 5 i.va i.n

/-- Check the parts of an item. -/
def Dev.checkSplit (d : Dev) (c : CoreId) (kind : AKind) (strict : Option Nat) (aligned : Bool) :
    List (Nat × Nat) → Dev × List (Except Cause Part)
  | [] => (d, [])
  | (va, n) :: ps =>
    let (d1, r) := d.checkPart c kind strict aligned va n
    let (d2, rs) := d1.checkSplit c kind strict aligned ps
    (d2, r :: rs)

/-- The first cause of a list of checks. -/
def firstCause : List (Except Cause Part) → Option Cause
  | [] => none
  | .error x :: _ => some x
  | .ok _ :: rs => firstCause rs

/-- The cause that an item's checks give: that of the first part at fault; where the first two parts hold one element and
both are at fault, the lower code (R148, R200, R285). -/
def itemCause (i : Item) (rs : List (Except Cause Part)) : Option Cause :=
  match rs with
  | .error a :: .error b :: _ => if 64 - i.va % 64 < i.elem ∧ b.code < a.code then some b else some a
  | _ => firstCause rs

/-- The parts that passed. -/
def goodParts (rs : List (Except Cause Part)) : List Part :=
  rs.filterMap (fun r => match r with | .ok p => some p | .error _ => none)

/-- Check every part of every item, in order, stopping after the first item at fault. -/
def Dev.checkItems (d : Dev) (c : CoreId) (kind : AKind) (strict : Option Nat) : List Item → Dev × Except Cause (List Part)
  | [] => (d, .ok [])
  | i :: is =>
    let (d1, rs) := d.checkSplit c kind strict i.aligned i.split
    match itemCause i rs with
    | some x => (d1, .error x)
    | none => match d1.checkItems c kind strict is with
      | (d2, .error x) => (d2, .error x)
      | (d2, .ok ps) => (d2, .ok (goodParts rs ++ ps))

/-! The A and D update (R276-R282). -/

/-- Perform one update at the home of the entry's line: whether it was written, or the cause of an error response. -/
def Dev.adWrite (d : Dev) (c : CoreId) (u : Upd) : Dev × Except Cause Bool :=
  match d.atomicAt c (d.relocate c u.win u.ea) 8 false (fun old => if old = u.seen.toNat then some u.new.toNat else none) with
  | (d1, .error _) => (d1, .error ⟨0x0E, u.level, u.ea⟩)
  | (d1, .ok old) =>
    if old = u.seen.toNat then (d1.modCore c (fun k => k.tlbPut u.ent), .ok true) else (d1.countEvt c 0x0B 1, .ok false)

/-- Perform the updates of the parts of an access, each entry once; `false`: an entry has changed and the walk restarts. -/
def Dev.adUpdates (d : Dev) (c : CoreId) (done : List Nat) : List Part → Dev × Except Cause Bool
  | [] => (d, .ok true)
  | p :: ps => match p.upd with
    | none => d.adUpdates c done ps
    | some u =>
      if done.contains u.ea then d.adUpdates c done ps
      else match d.adWrite c u with
        | (d1, .ok true) => d1.adUpdates c (u.ea :: done) ps
        | r => r

/-! Invalidation (R294). -/

/-- Keep the cached leaves that pass a test; every form of TLBI empties the walk cache. -/
def Core.tlbKeep (k : Core) (keep : TlbEntry → Bool) : Core := { k with tlb := k.tlb.filter keep, walkCache := [] }

end Sys2Proof.Machine
end

