-- ==== Sys2Proof/Machine/CoreMem.lean ====
section
/-!
DEFINITION. Memory accesses of a core, past translation: reads and writes of parts, the store buffer and forwarding (R217, R236-R238),
device accesses (R202, R348-R350), the traffic held by an epoch (R603), and the fetch (R239, R249, R250).
-/
namespace Sys2Proof.Machine

/-- The self slot. -/
def selfBase : Nat := 0xE0001FF00000

/-- A part with its virtual and physical addresses advanced by `o`, of `n` bytes. -/
def Part.slice (p : Part) (o n : Nat) : Part := { p with va := p.va + o, pa := p.pa + o, rpa := p.rpa + o, n := n }

/-- A virtual address, modulo 2^64. -/
def Word.plus (a : Word) (o : Int) : Nat := unsignedOf 64 (a.toNat + o)

/-! The mesh. -/

/-- The request that a core makes for a part. -/
def Dev.partReq (d : Dev) (c : CoreId) (p : Part) (w : Option (List Byte)) : Req :=
  ⟨.core c, (d.core c).priv, (d.core c).part, (d.core c).rep, p.rpa, p.n, p.mt, false, w⟩

/-- Make a request: served under the present values of its receiver, or under its old ones (R607). -/
def Dev.meshDo (d : Dev) (q : Req) : Dev × Answer :=
  if d.serveHow q = 1 then
    let d1 := d.underOld ((receiverOf q).getD 0) (fun d => let (x, a) := d.serve q; x.answer a)
    (d1, d1.resp)
  else d.serve q

/-! Traffic held (R603, R607-R609). -/

/-- Whether a core holds traffic of the strict mode posted: it has acknowledged the quiesce phase, or apply is in force.
DEDUCED, log entry 27. -/
def Dev.quiesced (d : Dev) (c : CoreId) : Bool :=
  d.epStrict && !d.ep.complete && ((d.epPhase == 1 && !d.epPend.contains (coreUid c)) || d.epPhase == 2)

/-- Whether an access is of the kind that the mode posted holds (Table 14-1). -/
def Dev.modeHolds (d : Dev) (c : CoreId) (pa : Nat) (mt : MemType) : Bool :=
  let here := d.epConcerns (d.core c).part
  match bits d.epReg 32 8 with
  | 0x02 => here
  | 0x03 => here && cacheable pa && (mt == .wb || mt == .wt)
  | 0x05 | 0x06 => decide (pa < 0x40000000000)
  | 0x08 => inControl pa
  | 0x0D => inRemote pa
  | 0x0E => inControl pa && unitKind (ctlUnit pa) == some .mbx
  | _ => false

/-- Whether a part has to wait: held by the core, or met by "epoch retry" or a hold at its receiver. -/
def Dev.partWaits (d : Dev) (c : CoreId) (p : Part) (w : Bool) : Bool :=
  (d.quiesced c && d.modeHolds c p.rpa p.mt) || decide (2 ≤ d.serveHow (d.partReq c p (if w then some [] else none)))

/-- Whether a translation has to wait because its walk would read memory. -/
def Dev.walkWaits (d : Dev) (c : CoreId) (kind : AKind) (is : List Item) : Bool :=
  let k := d.core c
  let root := bits k.sTbase 12 36 * 4096
  bit k.sTbase 0 && d.quiesced c && d.modeHolds c root .wb && (is.flatMap Item.split).any (fun v =>
    match k.tlbFind v.1 (bits k.sAsid 0 12) with
    | some t => kind.storeKind && !t.d
    | none => true)

/-! Performing. -/

/-- Read a part: the local store; L2 for WB and WT; the home, or the addressed unit, otherwise. `old` marks a fill that is
inserted as old (LDNT). -/
def Dev.readPart (d : Dev) (c : CoreId) (p : Part) (old : Bool) : Dev × Except Nat (List Byte) :=
  if p.self then d.lsRead c (p.rpa - selfBase) p.n
  else if cacheable p.rpa && (p.mt == .wb || p.mt == .wt) then
    let rq := d.rqOf c; let miss := d.l2Miss rq p.rpa; let wt := p.mt == .wt
    match d.l2Get rq p.rpa (if old || p.st then 3 else 0) p.ph wt with
    | (d1, .error e) => (d1, .error e)
    | (d1, .ok s) =>
      (if miss then (d1.countEvt c 0x09 1).prefetch rq p.rpa p.ph wt p.st else d1, .ok (secBytes s (p.rpa % 64) p.n))
  else match d.meshDo (d.partReq c p none) with
    | (d1, .data bs) => (d1, .ok bs)
    | (d1, .err e) => (d1, .error e)

/-- A write by a core into its own fetch window: what it fetched is discarded (R239). -/
def Dev.dropFetched (d : Dev) (c : CoreId) (pa n : Nat) : Dev :=
  d.modCore c (fun k => match k.fetchBuf with
    | some (g, _) => if pa / 64 ≤ g ∧ g ≤ (pa + n - 1) / 64 then { k with fetchBuf := none } else k
    | none => k)

/-- The store-buffer entry of a part. -/
def Part.entry (p : Part) (bs : List Byte) : SbEntry := ⟨p.rpa, bs, p.mt, p.ph, p.st, p.va⟩

/-- Write a part now; the error response, if any. -/
def Dev.writePart (d : Dev) (c : CoreId) (p : Part) (bs : List Byte) : Dev × Option Nat :=
  let d0 := d.dropFetched c p.rpa p.n
  if p.self || cacheable p.rpa then d0.storePerform c (p.entry bs)
  else match d0.meshDo (d0.partReq c p (some bs)) with
    | (d1, .data _) => (d1, none)
    | (d1, .err e) => (d1, some e)

/-! The store buffer. -/

/-- Whether a store-buffer entry overlaps a physical range. -/
def SbEntry.overlaps (e : SbEntry) (pa n : Nat) : Bool := decide (e.pa < pa + n) && decide (pa < e.pa + e.data.length)

/-- How many entries, from the oldest, reach up to the youngest one that overlaps a range. -/
def sbThrough (sb : List SbEntry) (pa n : Nat) : Nat :=
  (sb.foldl (fun (a : Nat × Nat) e => (a.1 + 1, if e.overlaps pa n then a.1 + 1 else a.2)) (0, 0)).2

/-- Drain the store buffer through the youngest entry that overlaps a range. DEDUCED, log entry 28. -/
def Dev.sbDrainOver (d : Dev) (c : CoreId) (pa n : Nat) : Dev := d.sbDrain c (sbThrough (d.core c).sb pa n)

/-- The youngest entry that overlaps a range. -/
def sbYoungest (sb : List SbEntry) (pa n : Nat) : Option SbEntry := sb.reverse.find? (fun e => e.overlaps pa n)

/-- Whether an entry may forward to a part (R236). -/
def forwards (e : SbEntry) (p : Part) : Bool :=
  decide (e.pa ≤ p.rpa) && decide (p.rpa + p.n ≤ e.pa + e.data.length) &&
    ((p.self && inSelf e.pa) || (!p.self && !inSelf e.pa && (p.mt == .wb || p.mt == .wt) && (e.mt == .wb || e.mt == .wt)))

/-- Put a retired store into the store buffer, whose oldest entry is performed first when all 32 are in use (R216, R217). -/
def Dev.sbPush (d : Dev) (c : CoreId) (e : SbEntry) : Dev :=
  let d1 := if 32 ≤ (d.core c).sb.length then d.sbDrain c 1 else d
  d1.modCore c (fun k => { k with sb := k.sb ++ [e] })

/-- The store buffer as a part's access finds it: empty before a DS access (R349), drained over the range otherwise. -/
def Dev.sbBefore (d : Dev) (c : CoreId) (p : Part) : Dev :=
  if p.mt = .dS then d.sbFlush c else d.sbDrainOver c p.rpa p.n

/-- Read a part for a load: by forwarding where R236 permits, else after every overlapping older store (R237). -/
def Dev.loadPart (d : Dev) (c : CoreId) (p : Part) (old fwd : Bool) : Dev × Except Nat (List Byte) :=
  match sbYoungest (d.core c).sb p.rpa p.n with
  | some e => if fwd && forwards e p then (d, .ok ((e.data.drop (p.rpa - e.pa)).take p.n)) else (d.sbBefore c p).readPart c p old
  | none => (d.sbBefore c p).readPart c p old

/-- Read parts in order; an error response raises cause 0x11 (R130). -/
def Dev.loadParts (d : Dev) (c : CoreId) (old fwd : Bool) : List Part → Dev × Except Cause (List Byte)
  | [] => (d, .ok [])
  | p :: ps => match d.loadPart c p old fwd with
    | (d1, .error e) => (d1, .error ⟨0x11, e, p.va⟩)
    | (d1, .ok bs) => match d1.loadParts c old fwd ps with
      | (d2, .error x) => (d2, .error x)
      | (d2, .ok cs) => (d2, .ok (bs ++ cs))

/-- Whether the local-store words that a part writes only in part are good (R817). -/
def Dev.lsPartial (d : Dev) (c : CoreId) (p : Part) : Dev × Bool :=
  let off := p.rpa - selfBase
  d.lsCheckAll c ((wordsOf off p.n).filter (fun w => !(decide (off ≤ 8 * w) && decide (8 * w + 8 ≤ off + p.n))))

/-- Perform one part of a store. To WB, WT and NC memory and to the local store it retires at once: into the store buffer in
normal mode, performed in deterministic mode; an error response is deferred (R129), but for one of the local store (R817). To
DO and DS memory it waits for its response (R128). `direct` is a VSTS, which takes no store-buffer entry (R218). -/
def Dev.storePart (d : Dev) (c : CoreId) (p : Part) (direct : Bool) (bs : List Byte) : Dev × Option Cause :=
  if p.self then
    if 2 ^ 17 < p.rpa - selfBase + p.n then (d, some ⟨0x12, errNoTarget, p.va⟩)
    else
      let d0 := d.sbDrainOver c (p.rpa / 8 * 8) ((p.rpa + p.n + 7) / 8 * 8 - p.rpa / 8 * 8)
      match d0.lsPartial c p with
      | (d1, false) => (d1, some ⟨0x12, errUncorrectable, p.va⟩)
      | (d1, true) =>
        if (d1.core c).dmode || direct then ((d1.writePart c p bs).1, none)
        else ((d1.dropFetched c p.rpa p.n).sbPush c (p.entry bs), none)
  else if devType p.mt then
    match (d.sbBefore c p).writePart c p bs with
    | (d1, some e) => (d1, some ⟨0x12, e, p.va⟩)
    | (d1, none) => (d1, none)
  else if (d.core c).dmode || direct then
    match (d.sbBefore c p).writePart c p bs with
    | (d1, some e) => (d1.modCore c (fun k => { k with deferred := k.deferred.orElse (fun _ => some (p.va, e)) }), none)
    | (d1, none) => (d1, none)
  else ((d.dropFetched c p.rpa p.n).sbPush c (p.entry bs), none)

/-- Store bytes to parts in order, stopping at the first cause. -/
def Dev.storeParts (d : Dev) (c : CoreId) (direct : Bool) : List Part → List Byte → Dev × Option Cause
  | [], _ => (d, none)
  | p :: ps, bs => match d.storePart c p direct (bs.take p.n) with
    | (d1, some x) => (d1, some x)
    | (d1, none) => d1.storeParts c direct ps (bs.drop p.n)

/-- The accesses as which a part of a vector access to DO or DS memory is made: its elements, a 12-byte one as three of 4
bytes that carry the element's address (R202, R350). -/
def deviceChunks (i : Item) (p : Part) : List Part :=
  if devType p.mt then
    let w := if i.elem = 12 then 4 else i.elem
    (List.range (p.n / w)).map (fun j =>
      { p.slice (w * j) w with va := (i.va + (p.va + w * j + 2 ^ 64 - i.va) % 2 ^ 64 / i.elem * i.elem) % 2 ^ 64 })
  else [p]

/-! Atomic and ordered accesses (R131-R137). -/

/-- The address that a reservation records: that of the home (R133, R301). DEDUCED, log entry 20. -/
def resvAddr (c : CoreId) (p : Part) : Nat := if p.self then lsAddr c (p.rpa - selfBase) else p.rpa

/-- An atomic operation on a part of `n` bytes: at its home, or in the local store. -/
def Dev.atomicPart (d : Dev) (c : CoreId) (p : Part) (f : Nat → Option Nat) : Dev × Except Nat Nat :=
  if p.self then
    match d.lsRead c (p.rpa - selfBase) p.n with
    | (d1, .error e) => (d1, .error e)
    | (d1, .ok bs) => match f (leNat bs) with
      | none => (d1, .ok (leNat bs))
      | some x => match (d1.dropFetched c p.rpa p.n).lsWrite c (p.rpa - selfBase) (natLe p.n x) with
        | (d2, .error e) => (d2, .error e)
        | (d2, .ok ()) => (d2, .ok (leNat bs))
  else (d.dropFetched c p.rpa p.n).atomicAt c p.rpa p.n (p.mt == .wt) f

/-! The whole access. -/

/-- How the checks of an access end: it waits, it raises a cause, or its parts may be performed. -/
inductive Checked where
  | wait (d : Dev)
  | cause (d : Dev) (x : Cause)
  | ok (d : Dev) (ps : List Part)

/-- Check every item of an access, then make its A and D updates (R124, R200, R276). An access that an epoch holds, or whose
table entry has changed under it, waits and is made again. -/
def Dev.access (d : Dev) (c : CoreId) (kind : AKind) (strict : Option Nat) (is : List Item) : Checked :=
  if d.walkWaits c kind is then .wait d
  else match d.checkItems c kind strict is with
  | (d1, .error x) => .cause d1 x
  | (d1, .ok ps) =>
    if ps.any (fun p => d1.partWaits c p kind.storeKind) then .wait d1
    else match d1.adUpdates c [] ps with
    | (d2, .error x) => .cause d2 x
    | (d2, .ok true) => .ok d2 ps
    | (d2, .ok false) => .wait d2

/-- Whether every part lies in the local store, so that the access takes port steps only. -/
def allSelf (ps : List Part) : Bool := ps.all (fun p => p.self)

/-! Fetch. -/

/-- How a fetch ends: it waits, it raises a cause, or the instruction is there, after so many port steps, or from outside the
local store. -/
inductive Fetched where
  | wait (d : Dev)
  | cause (d : Dev) (x : Cause)
  | ok (d : Dev) (steps : Nat) (far : Bool)

/-- Fetch the instruction at an address: translation and rights of the instruction, then its granule unless the fetch buffer
holds it. -/
def Dev.fetch (d : Dev) (c : CoreId) (pc : Word) : Fetched :=
  match d.access c .fetch none [⟨pc.toNat, 4, 4⟩] with
  | .wait d1 => .wait d1
  | .cause d1 x => .cause d1 x
  | .ok d1 ps => match ps with
    | [] => .wait d1
    | p :: _ =>
      let g := p.rpa / 64
      let held := match (d1.core c).fetchBuf with | some (h, _) => h == g | none => false
      if held then .ok d1 0 false
      else
        let q : Part := { p with pa := p.pa / 64 * 64, rpa := 64 * g, n := 64 }
        match (d1.sbDrainOver c (64 * g) 64).readPart c q false with
        | (d2, .error e) => .cause d2 ⟨0x10, e, 0⟩
        | (d2, .ok bs) => .ok (d2.modCore c (fun k => { k with fetchBuf := some (g, bs) })) (if p.self then 1 else 0) (!p.self)

end Sys2Proof.Machine
end

