-- ==== Sys2Proof/Machine/CoreExec.lean ====
section
/-!
DEFINITION. How a core executes: registers, taking a cause or an event (R144-R148), the boundary before an instruction and its
fetch, and retirement (R112, R117, R135, R154, R161, R222-R225, R251, R757).
-/
namespace Sys2Proof.Machine

/-! Registers. -/

/-- Read w[r]; w0 reads as 0 (R97). -/
def Core.rd (k : Core) (r : RIx) : Word := if r.val = 0 then 0 else k.w[r]
/-- Write w[r]; a write to w0 is discarded (R97). -/
def Core.wr (k : Core) (r : RIx) (v : Word) : Core := if r.val = 0 then k else { k with w := k.w.set r v r.2 }
/-- Read v[r]. -/
def Core.vrd (k : Core) (r : RIx) : BitVec 512 := k.v[r]
/-- Write v[r]; v0 is an ordinary register (R165). -/
def Core.vwr (k : Core) (r : RIx) (v : BitVec 512) : Core := { k with v := k.v.set r v r.2 }
/-- Read q[r]. -/
def Core.qrd (k : Core) (r : QIx) : BitVec 1536 := k.q[r]
/-- Write q[r]. -/
def Core.qwr (k : Core) (r : QIx) (v : BitVec 1536) : Core := { k with q := k.q.set r v r.2 }

/-! Taking a cause or an event. -/

/-- Whether a cause writes S_FADDR (R144). -/
def causeAddr (code : Nat) : Bool := [0x08, 0x09, 0x0A, 0x0B, 0x0C, 0x0D, 0x0E, 0x0F, 0x11, 0x12, 0x13].contains code

/-- The registers of a core after an entry (R144): code, vector, priority, whether staged writes were applied, INFO, S_FADDR
and S_EPC. -/
def Core.entered (k : Core) (code vec pri : Nat) (staged : Bool) (info faddr : Nat) (epc : Word) : Core :=
  let s := k.sStatus
  let s1 := setBits (setBit (setBits s 2 2 (bits s 0 2)) 5 (bit s 4)) 12 4 (bits s 8 4)
  let s2 := setBit (setBits s1 0 2 1) 4 false
  { k with
    sEpc := epc
    sCause := BitVec.ofNat 64 (at_ code 0 8 + at_ vec 8 8 + at_ pri 16 4 + at_ staged.toNat 20 1 + at_ info 32 32)
    sFaddr := if causeAddr code then BitVec.ofNat 64 faddr else k.sFaddr
    sStatus := if code = 0x20 then setBits s2 8 4 pri else s2
    pc := if code = 0x20 then k.sEvbase + 0x200 else k.sEvbase }

/-- Steps of an entry (Table 5-7). -/
def entrySteps : Nat := 6

/-- The fetch at the entry address: when it raises a cause the core stops, with record 0x0102 of severity contained (R147).
DEDUCED, log entry 35. -/
def Dev.entryFetch (d : Dev) (c : CoreId) : Dev :=
  match d.fetch c (d.core c).pc with
  | .wait d1 => d1
  | .ok d1 n _ => if (d1.core c).dmode then d1.countSteps c n 0 else d1
  | .cause d1 _ =>
    (d1.modCore c (fun k => { k with run := .stopped })).raise (coreUid c)
      ⟨0x0102, 2, ((d1.core c).sEvbase).toNat, 0xFFFF, if (d1.core c).placed then some (d1.core c).part else none⟩

/-- A reservation that is lost before an SCOM: cleared, and counted (R135; counter event 0x0D). -/
def Dev.loseOwn (d : Dev) (c : CoreId) : Dev :=
  match SMap.get (fun _ => none) d.resv c with
  | some _ => (d.countEvt c 0x0D 1).dropResv c
  | none => d

/-- Take a synchronous cause or an asynchronous event (R144). DEDUCED, log entry 35. -/
def Dev.enter (d : Dev) (c : CoreId) (code vec pri info faddr : Nat) (epc : Word) : Dev :=
  let staged := decide (code ≠ 0x20) && !(d.core c).staged.isEmpty
  let d1 := if staged then (d.countEvt c 0x12 1).stagedAll c else d
  let d2 := (d1.loseOwn c).countEvt c 0x0E 1
  let d3 := d2.modCore c (fun k => k.entered code vec pri staged info faddr epc)
  let d4 := if (d3.core c).dmode then d3.countSteps c entrySteps 0 else d3
  (d4.traceFlow c (d4.core c).pc 5).entryFetch c

/-- Take a synchronous cause, with S_EPC at `epc`. A step in progress ends with the entry (R751). -/
def Dev.takeCause (d : Dev) (c : CoreId) (x : Cause) (epc : Word) : Dev :=
  let d1 := d.enter c x.code 0 0 x.info x.faddr epc
  if SMap.get (fun _ => 0) d.db.stepping c = 1 ∧ (d1.core c).run = .run then d1.haltNow c 2 0 else d1

/-- The event of a core's inbox that may be taken at this boundary (R144, R155, R138, R751): its vector and priority. Replicas
take none. -/
def Dev.eligible (d : Dev) (c : CoreId) : Option (Nat × Nat) :=
  let k := d.core c
  if k.placed && k.rep == .none && bit k.sStatus 4 && k.staged.isEmpty &&
      (SMap.get (fun _ => 0) d.db.stepping c == 0 || d.flag (coreUid c) 0xF008 1) then
    match d.inboxNext c with
    | some (v, p) => if bits k.sStatus 8 4 < p then some (v, p) else none
    | none => none
  else none

/-- Take the event that is eligible, its vector leaving the inbox (R406). -/
def Dev.takeEvent (d : Dev) (c : CoreId) (v p : Nat) : Dev :=
  (d.inboxClear c v).enter c 0x20 v p 0 0 (d.core c).pc

/-! Comparators (R757, R758). -/

/-- Whether comparator `n` hits an address with one of the kinds given. -/
def Dev.cmpHit (d : Dev) (c : CoreId) (n va : Nat) (kinds : List Nat) : Bool :=
  let u := coreUid c; let a := d.reg u (0xF108 + 16 * n)
  bit a 0 && kinds.contains (bits a 1 2) && va / 2 ^ bits a 4 5 == d.fld u (0xF100 + 16 * n) 0 48 / 2 ^ bits a 4 5 &&
    (!bit a 9 || bits a 10 12 == bits (d.core c).sAsid 0 12)

/-- The comparators that hit any of a list of accesses, as a mask: those that halt, and whether one that triggers trace does. -/
def Dev.cmpHits (d : Dev) (c : CoreId) (xs : List (Nat × List Nat)) : Nat × Bool :=
  (List.range 4).foldl (fun (r : Nat × Bool) n =>
    if xs.any (fun x => d.cmpHit c n x.1 x.2) then
      (if d.flag (coreUid c) (0xF108 + 16 * n) 3 then (r.1, true) else (r.1 + 2 ^ n, r.2))
    else r) (0, false)

/-! The boundary before an instruction. -/

/-- Whether a core takes instructions: released, running, not halted, in Run, not fenced. -/
def Dev.canRun (d : Dev) (c : CoreId) : Bool :=
  (d.core c).run == .run && !d.halted c && d.power (coreUid c) == 0 && !d.fenced (coreUid c)

/-- What stands before an instruction: something else is done in its place, or it has been fetched, with the port steps of the
fetch and whether the fetch left the local store. -/
inductive Gate where
  | stop (d : Dev)
  | go (d : Dev) (steps : Nat) (far : Bool)

/-- The execute comparators, then the fetch. DEDUCED, log entry 24. -/
def Dev.gateFetch (d : Dev) (c : CoreId) : Gate :=
  let k := d.core c
  let hits := if d.db.skipCmp.contains c.val then (0, false) else d.cmpHits c [(k.pc.toNat, [0])]
  if hits.1 ≠ 0 then .stop (d.haltNow c 6 hits.1)
  else
    let d1 := if hits.2 then d.traceCompare c else d
    match d1.fetch c k.pc with
    | .wait d2 => .stop d2
    | .cause d2 x => .stop (d2.takeCause c x k.pc)
    | .ok d2 n far => .go d2 n far

/-- The boundary: staged writes that are due (R154), a deferred store error (R129), a halt that was asked for (R749), an
eligible event, and only then the instruction. DESIGN CHOICE, log entry 6. DEDUCED, log entry 24. -/
def Dev.gate (d0 : Dev) (c : CoreId) : Gate :=
  if d0.canRun c = false then .stop d0
  else
    let d := d0.stagedDue c
    let k := d.core c
    match k.deferred with
    | some (va, e) => .stop ((d.modCore c (fun k => { k with deferred := none })).takeCause c ⟨0x13, e, va⟩ k.pc)
    | none =>
      if d.flag (coreUid c) 0xF010 1 && k.staged.isEmpty then .stop (d.haltTaken c false)
      else match d.eligible c with
        | some (v, p) => .stop (d.takeEvent c v p)
        | none => d.gateFetch c

/-! Retirement. -/

/-- What an instruction leaves to its retirement: the next PC, its steps, whether it waited outside the local store, the flags
it sets, the kind of branch or jump that it is (R121: 0 conditional, 1 direct, 2 call, 3 return, 4 indirect; 6: ERET) and whether it was
taken, its accesses (address, log2 of size, store), and whether it is an SCOM that succeeded. -/
structure Ret where
  next : Word
  steps : Nat
  far : Bool
  dz : Bool
  ov : Bool
  branch : Option (Nat × Bool)
  acc : List (Nat × Nat × Bool)
  scom : Bool

/-- An instruction of some steps that goes on at the next address. -/
def Ret.plain (k : Core) (steps : Nat) : Ret := ⟨k.pc + 4, steps, false, false, false, none, [], false⟩

/-- A count that the spec leaves open is added (R211, R215, R233): steps, wrong-path fills, misses and full queues in normal
mode, waits in deterministic mode. DEDUCED, log entry 21. -/
def Dev.countOpen (d : Dev) (c : CoreId) : Dev :=
  let (s, d1) := d.draw
  if (d.core c).dmode then d1.countSteps c s 0
  else
    let (w, d2) := d1.draw
    let d3 := if bit (d2.core c).ctrCfg 16 then d2 else d2.modCore c (fun k => { k with wpfCnt := (count48 k.wpfCnt w).1 })
    let d4 := d3.countSteps c s 0
    forAll [0x07, 0x08, 0x10, 0x11] (fun e d => let (n, x) := d.draw; x.countEvt c e n) d4

/-- Steps and retirement of an instruction (R161, R251): counted from the tables in deterministic mode, open in normal mode.
DEDUCED, log entry 21. -/
def Dev.countRetire (d : Dev) (c : CoreId) (steps : Nat) (far : Bool) : Dev :=
  if (d.core c).dmode then
    let d1 := d.countSteps c steps 1
    if far then d1.countOpen c else d1
  else (d.countSteps c 0 1).countOpen c

/-- The counter event of a misprediction of a kind (Table 3-11). -/
def missEvent (kind : Nat) : Nat := match kind with | 0 => 0x03 | 4 => 0x04 | 3 => 0x05 | _ => 0x06

/-- Whether the core predicts branches (Table 5-1, R225, R226). DEDUCED, log entry 22. -/
def Dev.predicts (d : Dev) (c : CoreId) : Bool :=
  !(d.core c).dmode && !(d.core c).bpOff && !d.flag (coreUid c) 0x4000 2

/-- The return stack after a branch or jump that was predicted (R224). DEDUCED, log entry 22. -/
def Core.rasAfter (k : Core) (kind : Nat) (link : Word) : List Word :=
  match kind with
  | 2 => (link :: k.ras).take 32
  | 3 => k.ras.drop 1
  | _ => k.ras

/-- Prediction of a branch or jump at an address (R222-R225): which one is mispredicted is open while the predictor is on;
while it is off, a conditional branch is when it is taken. -/
def Dev.predict (d : Dev) (c : CoreId) (pc : Word) (kind : Nat) (taken : Bool) : Dev :=
  let k := d.core c
  if k.dmode then d
  else if d.predicts c then
    let (x, d1) := d.draw
    let unknown := kind == 3 && k.ras.isEmpty
    let d2 := if x % 2 = 1 && !unknown then d1.countEvt c (missEvent kind) 1 else d1
    d2.modCore c (fun k => { k with ras := k.rasAfter kind (pc + 4) })
  else if kind = 0 ∧ taken then d.countEvt c 0x03 1 else d

/-- The effect of retirement on counts of retirements: staged writes (R154), the reservation (R135). -/
def Dev.countDown (d : Dev) (c : CoreId) : Dev :=
  let d1 := d.modCore c (fun k => { k with staged := k.staged.map (fun s => { s with left := s.left - 1 }) })
  match SMap.get (fun _ => none) d1.resv c with
  | none => d1
  | some r => if r.left ≤ 1 then d1.loseOwn c
              else { d1 with resv := SMap.set (fun _ => none) d1.resv c (some { r with left := r.left - 1 }) }

/-- Writes of the "after SYNC.C" class may take effect at any time (R158): how many do now is open. DEDUCED, log entry 23. -/
def Dev.someAfterSync (d : Dev) (c : CoreId) : Dev :=
  if (d.core c).afterSync = [] then d
  else let (x, d1) := d.draw; d1.afterSyncSome c (x % ((d.core c).afterSync.length + 1))

/-- The first `n` whole bits of a size: log2. -/
def log2Size (n : Nat) : Nat := Nat.log2 n

/-- Trace of a retired instruction (Table 18-6): a flow packet for a branch taken or a jump, a data packet for an access. -/
def Dev.traceRetire (d : Dev) (c : CoreId) (r : Ret) : Dev :=
  let d1 := match r.branch with
    | some (kind, true) => d.traceFlow c r.next kind
    | some (_, false) => d.traceSkip c
    | none => d
  forAll r.acc (fun a d => d.traceData c a.1 a.2.1 a.2.2) d1

/-- The load and store comparators, and the end of a step or step-region (R751, R757), as the device `was` at the retirement asks
for them, after a trap that it raised. -/
def Dev.afterRetire (d was : Dev) (c : CoreId) (r : Ret) : Dev :=
  let hits := was.cmpHits c (r.acc.map (fun a => (a.1, if a.2.2 then [2, 3] else [1, 3])))
  let d1 := if hits.2 then d.traceCompare c else d
  let st := SMap.get (fun _ => 0) was.db.stepping c
  let n := was.fld (coreUid c) 0xF010 8 7 + 1
  let d2 := if st = 2 then d1.setFld (coreUid c) 0xF010 8 7 n else d1
  if hits.1 ≠ 0 then d2.haltNow c 6 hits.1
  else if st = 1 then d2.haltNow c 2 0
  else if st = 2 ∧ r.scom then d2.haltNow c 3 0
  else if st = 2 ∧ 64 ≤ n then d2.haltNow c 4 0
  else d2

/-- The trap that an instruction's flags ask for (R117). -/
def trapOf (astat : Word) (r : Ret) : Option Nat :=
  if r.dz && bit astat 8 then some 0x05 else if r.ov && bit astat 9 then some 0x06 else none

/-- Retirement of an instruction at `pc`. -/
def Dev.retire (d : Dev) (c : CoreId) (steps : Nat) (far : Bool) (r : Ret) : Dev :=
  let pc := (d.core c).pc
  let d1 := d.modCore c (fun k => { k with
    pc := r.next
    lastPc := pc
    abandoned := k.abandoned.filter (fun x => x != pc)
    astat := k.astat ||| BitVec.ofNat 64 (r.dz.toNat + 2 * r.ov.toNat) })
  let d2 := (d1.countRetire c (r.steps + steps) (far || r.far)).countDown c
  let d3 := match r.branch with | some (kind, taken) => if kind ≤ 4 then d2.predict c pc kind taken else d2 | none => d2
  let d4 := ({ d3 with db := { d3.db with skipCmp := d3.db.skipCmp.filter (fun x => x != c.val) } }).traceRetire c r
  let d5 := d4.someAfterSync c
  let d6 := match trapOf (d5.core c).astat r with
    | some code => (d5.stagedDue c).enter c code 0 0 0 0 r.next
    | none => d5
  d6.afterRetire d5 c r

/-! An instruction. -/

/-- What an instruction does once it is fetched: it waits, it raises a cause, it halts the core, it puts the core to wait, or
it retires. -/
inductive Out where
  | wait (d : Dev)
  | cause (d : Dev) (x : Cause)
  | halt (d : Dev) (reason : Nat)
  | sleep (d : Dev)
  | done (d : Dev) (r : Ret)

/-- How an instruction ends. DEDUCED, log entry 49. -/
def Dev.settle (c : CoreId) (pc : Word) (steps : Nat) (far : Bool) : Out → Dev
  | .wait d => d
  | .cause d x => d.takeCause c x pc
  | .halt d reason => d.haltNow c reason 0
  | .sleep d => d
  | .done d r => d.retire c steps far r

/-- Execute an instruction at a boundary of core `c`: `body` is what it does, past its fetch. DESIGN CHOICE, log entry 6. -/
def Dev.instr (d : Dev) (c : CoreId) (body : Dev → Out) : Dev :=
  match d.gate c with
  | .stop d1 => d1
  | .go d1 n far => Dev.settle c (d1.core c).pc n far (body d1)

/-- The illegal-instruction cause (R108). -/
def illegal (d : Dev) : Out := .cause d ⟨0x01, 0, 0⟩

/-- An instruction whose fields must satisfy a condition, else it is illegal (R108, R179). -/
def Dev.instrIf (d : Dev) (c : CoreId) (ok : Bool) (body : Dev → Out) : Dev :=
  d.instr c (fun d => if ok then body d else illegal d)

/-- An instruction that only changes registers of its core and goes on, in `steps` steps. -/
def regOut (c : CoreId) (steps : Nat) (f : Core → Core) (d : Dev) : Out :=
  .done (d.modCore c f) (Ret.plain (d.core c) steps)

end Sys2Proof.Machine
end

