-- ==== Sys2Proof/Machine/Operands.lean ====
section
/-!
DEFINITION. Operand forms: immediates and offsets (R106), 32-bit forms (R109), the lanes of vector registers and accumulators
(R165, R166).
-/
namespace Sys2Proof.Machine

/-! Immediates. -/

/-- imm16, sign-extended. -/
def simm (i : BitVec 16) : Word := i.signExtend 64
/-- imm16, zero-extended: ANDI, ORI and XORI. -/
def zimm (i : BitVec 16) : Word := i.setWidth 64
/-- imm21 of LUI and AUIPC: sign-extended and shifted left by 12. -/
def uimm (i : BitVec 21) : Word := i.signExtend 64 <<< 12
/-- off21 of a conditional branch: sign-extended, times 4. -/
def boff (o : BitVec 21) : Word := o.signExtend 64 <<< 2
/-- off26 of J and JAL: sign-extended, times 4. -/
def joff (o : BitVec 26) : Word := o.signExtend 64 <<< 2

/-- The low 32 bits of a word. -/
def low32 (v : Word) : BitVec 32 := v.setWidth 32
/-- A 32-bit result, sign-extended from bit 31. -/
def sextW (v : BitVec 32) : Word := v.signExtend 64
/-- A truth value in a register. -/
def truth (b : Bool) : Word := if b then 1 else 0
/-- A branch target has bits [1:0] clear (R98). -/
def align4 (v : Word) : Word := v &&& ~~~3#64

/-! Lanes of a vector register (R165). -/

/-- Lane `i` of a view of `w`-bit lanes, as a number. -/
def laneU (v : BitVec 512) (w i : Nat) : Nat := bits v (w * i) w
/-- Lane `i` as a two's complement value. -/
def laneS (v : BitVec 512) (w i : Nat) : Int := signedOf w (laneU v w i)
/-- The register of `n` lanes of `w` bits whose lane `i` holds `f i`. -/
def fromLanes (w n : Nat) (f : Nat → Int) : BitVec 512 :=
  (List.range n).foldl (fun (v : BitVec 512) i => setBits v (w * i) w (unsignedOf w (f i))) 0
/-- Replace lane `i`. -/
def setLane (v : BitVec 512) (w i : Nat) (x : Int) : BitVec 512 := setBits v (w * i) w (unsignedOf w x)

/-! Lanes of an accumulator (R166). -/

/-- Lane `i` of an accumulator. -/
def accLane (q : BitVec 1536) (i : Nat) : Int := signedOf 96 (bits q (96 * i) 96)
/-- The accumulator whose lane `i` holds `f i`. -/
def fromAcc (f : Nat → Int) : BitVec 1536 :=
  (List.range 16).foldl (fun (q : BitVec 1536) i => setBits q (96 * i) 96 (unsignedOf 96 (f i))) 0

/-! Number formats (Tables 4-1 and 4-2). -/

/-- Lane width of a format. -/
def fmtW (f : Nat) : Nat := if fmtHalf f then 16 else 32
/-- Narrowing base shift b(F). -/
def fmtShift (f : Nat) : Nat := match f with | 0 => 31 | 1 => 33 | 2 => 47 | _ => 0

/-- Alignment shift s of a product type. -/
def prodShift (t : Nat) : Nat := match t with | 1 => 2 | 2 => 32 | 3 => 18 | _ => 0

/-- Lane `i` of a multiply or widening operand: of the half that H selects when the operand has 16-bit lanes. -/
def operandLane (v : BitVec 512) (half : Bool) (hi : Bool) (i : Nat) : Int :=
  if half then laneS v 16 (i + if hi then 16 else 0) else laneS v 32 i

end Sys2Proof.Machine
end

