-- ==== Sys2Proof/Machine/Flags.lean ====
section
/-!
DEFINITION. Flag computations: overflow of the checked integer forms (R109, R113), the divide (R115), and the saturation, narrowing
and accumulator flags of VSTAT (R171, R176, R181, R188).
-/
namespace Sys2Proof.Machine

/-- Whether an integer lies outside the range of a `w`-bit two's complement number. -/
def beyond (w : Nat) (x : Int) : Bool := decide (x < -(2 ^ (w - 1))) || decide (2 ^ (w - 1) ≤ x)

/-- OV of ADDV and ADDVW. -/
def addOv {w : Nat} (a b : BitVec w) : Bool := beyond w (a.toInt + b.toInt)
/-- OV of SUBV and SUBVW. -/
def subOv {w : Nat} (a b : BitVec w) : Bool := beyond w (a.toInt - b.toInt)
/-- OV of MULV and MULVW. -/
def mulOv {w : Nat} (a b : BitVec w) : Bool := beyond w (a.toInt * b.toInt)

/-- A divide (R115): quotient, remainder, DZ and OV. -/
structure DivRes (w : Nat) where
  q : BitVec w
  r : BitVec w
  dz : Bool
  ov : Bool

/-- The divide of R115, signed. -/
def divS {w : Nat} (a b : BitVec w) : DivRes w :=
  if b = 0 then ⟨0, a, true, false⟩
  else if a.toInt = -(2 ^ (w - 1)) ∧ b.toInt = -1 then ⟨a, 0, false, true⟩
  else ⟨BitVec.ofInt w (Int.tdiv a.toInt b.toInt), BitVec.ofInt w (Int.tmod a.toInt b.toInt), false, false⟩

/-- The divide of R115, unsigned. -/
def divU {w : Nat} (a b : BitVec w) : DivRes w :=
  if b = 0 then ⟨0, a, true, false⟩
  else ⟨BitVec.ofNat w (a.toNat / b.toNat), BitVec.ofNat w (a.toNat % b.toNat), false, false⟩

/-! VSTAT. -/

/-- The flags that an instruction sets in VSTAT. -/
structure VFlags where
  sat : Bool
  inx : Bool
  zrn : Bool
  asat : Bool
  deriving DecidableEq, Repr

/-- No flag. -/
def VFlags.none : VFlags := ⟨false, false, false, false⟩

/-- The VSTAT bits of flags. -/
def VFlags.bits (f : VFlags) : BitVec 4 := BitVec.ofNat 4 (f.sat.toNat + 2 * f.inx.toNat + 4 * f.zrn.toNat + 8 * f.asat.toNat)

/-- Flags are sticky (R171). -/
def Core.flag (k : Core) (f : VFlags) : Core := { k with vstat := k.vstat ||| f.bits }

/-- Some lane below `n` meets a condition. -/
def anyLane (n : Nat) (p : Nat → Bool) : Bool := (List.range n).any p

/-- SAT of a lane-wise operation with exact results `f`. -/
def satFlag (w n : Nat) (f : Nat → Int) : VFlags := ⟨anyLane n (fun i => beyond w (f i)), false, false, false⟩

/-- ASAT of an accumulation with exact results `f` (R176). -/
def asatFlag (f : Nat → Int) : VFlags := ⟨false, false, false, anyLane 16 (fun i => beyond 96 (f i))⟩

/-- The rounded value before it is limited (R188): `r` is the shift, `rm` 0 RNE, 1 RHU, 2 TRN. -/
def rounded (x : Int) (r : Int) (rm : Nat) : Int :=
  if r ≤ 0 then x * 2 ^ (-r).toNat
  else
    let m : Int := 2 ^ r.toNat
    let n := x / m
    let rem := x % m
    let half : Int := 2 ^ (r.toNat - 1)
    if rm = 1 ∧ half ≤ rem then n + 1
    else if rm = 0 ∧ (half < rem ∨ (rem = half ∧ n % 2 = 1)) then n + 1
    else n

/-- Whether the shift discards nonzero bits. -/
def discards (x : Int) (r : Int) : Bool := decide (0 < r) && x % 2 ^ r.toNat != 0

/-- narrow_lane of R188: the result of one lane. -/
def narrowLane (x : Int) (fmt : Nat) (sh : Int) (rm : Nat) : Int :=
  clampS (fmtW fmt) (rounded x ((fmtShift fmt : Int) + sh) rm)

/-- The flags that one lane's narrowing sets. -/
def narrowFlags (x : Int) (fmt : Nat) (sh : Int) (rm : Nat) : VFlags :=
  let r : Int := (fmtShift fmt : Int) + sh
  ⟨beyond (fmtW fmt) (rounded x r rm), discards x r, x != 0 && narrowLane x fmt sh rm == 0, false⟩

/-- The flags of 16 lanes narrowed. -/
def narrowAll (f : Nat → Int) (fmt : Nat) (sh : Int) (rm : Nat) : VFlags :=
  ⟨anyLane 16 (fun i => (narrowFlags (f i) fmt sh rm).sat), anyLane 16 (fun i => (narrowFlags (f i) fmt sh rm).inx),
   anyLane 16 (fun i => (narrowFlags (f i) fmt sh rm).zrn), false⟩

end Sys2Proof.Machine
end

