-- ==== Sys2Proof/Machine/Alu.lean ====
section
/-!
DEFINITION. The ALU, immediate, shift and select instructions (R109-R112, R118).
-/
namespace Sys2Proof.Machine

/-- An instruction whose result depends on two registers. -/
def alu2 (c : CoreId) (rd ra rb : RIx) (f : Word → Word → Word) (s : State) : Host.Outcome State Fault Refusal :=
  onDev (fun d => d.instr c (regOut c 1 (fun k => k.wr rd (f (k.rd ra) (k.rd rb))))) s

/-- An instruction whose result depends on one register. -/
def alu1 (c : CoreId) (rd ra : RIx) (f : Word → Word) (s : State) : Host.Outcome State Fault Refusal :=
  onDev (fun d => d.instr c (regOut c 1 (fun k => k.wr rd (f (k.rd ra))))) s

/-- A two-register instruction that may set ASTAT.OV. -/
def aluV (c : CoreId) (rd ra rb : RIx) (f : Word → Word → Word) (ov : Word → Word → Bool) (s : State) :
    Host.Outcome State Fault Refusal :=
  onDev (fun d => d.instr c (fun d =>
    let k := d.core c
    .done (d.modCore c (fun k => k.wr rd (f (k.rd ra) (k.rd rb))))
      { Ret.plain k 1 with ov := ov (k.rd ra) (k.rd rb) })) s

/-- ADD (R109). -/
def execAdd (c : CoreId) (rd ra rb : RIx) (s : State) : Host.Outcome State Fault Refusal := alu2 c rd ra rb (fun a b => a + b) s
/-- SUB (R109). -/
def execSub (c : CoreId) (rd ra rb : RIx) (s : State) : Host.Outcome State Fault Refusal := alu2 c rd ra rb (fun a b => a - b) s
/-- AND (R109). -/
def execAnd (c : CoreId) (rd ra rb : RIx) (s : State) : Host.Outcome State Fault Refusal := alu2 c rd ra rb (fun a b => a &&& b) s
/-- OR (R109). -/
def execOr (c : CoreId) (rd ra rb : RIx) (s : State) : Host.Outcome State Fault Refusal := alu2 c rd ra rb (fun a b => a ||| b) s
/-- XOR (R109). -/
def execXor (c : CoreId) (rd ra rb : RIx) (s : State) : Host.Outcome State Fault Refusal := alu2 c rd ra rb (fun a b => a ^^^ b) s
/-- ANDN (R109). -/
def execAndn (c : CoreId) (rd ra rb : RIx) (s : State) : Host.Outcome State Fault Refusal := alu2 c rd ra rb (fun a b => a &&& ~~~b) s

/-- The shift amount of a 64-bit shift: bits [5:0]. -/
def sh6 (b : Word) : Nat := bits b 0 6
/-- The shift amount of a 32-bit shift: bits [4:0]. -/
def sh5 (b : Word) : Nat := bits b 0 5

/-- SLL (R109). -/
def execSll (c : CoreId) (rd ra rb : RIx) (s : State) : Host.Outcome State Fault Refusal := alu2 c rd ra rb (fun a b => a <<< sh6 b) s
/-- SRL (R109). -/
def execSrl (c : CoreId) (rd ra rb : RIx) (s : State) : Host.Outcome State Fault Refusal := alu2 c rd ra rb (fun a b => a >>> sh6 b) s
/-- SRA (R109). -/
def execSra (c : CoreId) (rd ra rb : RIx) (s : State) : Host.Outcome State Fault Refusal := alu2 c rd ra rb (fun a b => a.sshiftRight (sh6 b)) s
/-- ROR (R109). -/
def execRor (c : CoreId) (rd ra rb : RIx) (s : State) : Host.Outcome State Fault Refusal := alu2 c rd ra rb (fun a b => a.rotateRight (sh6 b)) s

/-- SEQ (R109). -/
def execSeq (c : CoreId) (rd ra rb : RIx) (s : State) : Host.Outcome State Fault Refusal := alu2 c rd ra rb (fun a b => truth (a == b)) s
/-- SNE (R109). -/
def execSne (c : CoreId) (rd ra rb : RIx) (s : State) : Host.Outcome State Fault Refusal := alu2 c rd ra rb (fun a b => truth (a != b)) s
/-- SLT (R109). -/
def execSlt (c : CoreId) (rd ra rb : RIx) (s : State) : Host.Outcome State Fault Refusal := alu2 c rd ra rb (fun a b => truth (a.slt b)) s
/-- SLTU (R109). -/
def execSltu (c : CoreId) (rd ra rb : RIx) (s : State) : Host.Outcome State Fault Refusal := alu2 c rd ra rb (fun a b => truth (a.ult b)) s
/-- SLE (R109). -/
def execSle (c : CoreId) (rd ra rb : RIx) (s : State) : Host.Outcome State Fault Refusal := alu2 c rd ra rb (fun a b => truth (a.sle b)) s
/-- SLEU (R109). -/
def execSleu (c : CoreId) (rd ra rb : RIx) (s : State) : Host.Outcome State Fault Refusal := alu2 c rd ra rb (fun a b => truth (a.ule b)) s
/-- MIN (R109): signed. -/
def execMin (c : CoreId) (rd ra rb : RIx) (s : State) : Host.Outcome State Fault Refusal := alu2 c rd ra rb (fun a b => if a.slt b then a else b) s
/-- MAX (R109): signed. -/
def execMax (c : CoreId) (rd ra rb : RIx) (s : State) : Host.Outcome State Fault Refusal := alu2 c rd ra rb (fun a b => if a.slt b then b else a) s
/-- MINU (R109). -/
def execMinu (c : CoreId) (rd ra rb : RIx) (s : State) : Host.Outcome State Fault Refusal := alu2 c rd ra rb (fun a b => if a.ult b then a else b) s
/-- MAXU (R109). -/
def execMaxu (c : CoreId) (rd ra rb : RIx) (s : State) : Host.Outcome State Fault Refusal := alu2 c rd ra rb (fun a b => if a.ult b then b else a) s

/-- ADDV (R109, R112, R117). -/
def execAddv (c : CoreId) (rd ra rb : RIx) (s : State) : Host.Outcome State Fault Refusal := aluV c rd ra rb (fun a b => a + b) addOv s
/-- SUBV (R109, R112, R117). -/
def execSubv (c : CoreId) (rd ra rb : RIx) (s : State) : Host.Outcome State Fault Refusal := aluV c rd ra rb (fun a b => a - b) subOv s

/-- Leading zeros of a word, 0-64. -/
def clz (v : Word) : Nat := ((List.range 64).find? (fun i => bit v (63 - i))).getD 64
/-- Trailing zeros of a word, 0-64. -/
def ctz (v : Word) : Nat := ((List.range 64).find? (fun i => bit v i)).getD 64
/-- One bits of a word. -/
def popc (v : Word) : Nat := ((List.range 64).filter (fun i => bit v i)).length
/-- The bytes of a word in reverse order. -/
def rev8 (v : Word) : Word := BitVec.ofNat 64 (beNat (natLe 8 v.toNat))

/-- CLZ (R109). -/
def execClz (c : CoreId) (rd ra : RIx) (s : State) : Host.Outcome State Fault Refusal := alu1 c rd ra (fun a => BitVec.ofNat 64 (clz a)) s
/-- CTZ (R109). -/
def execCtz (c : CoreId) (rd ra : RIx) (s : State) : Host.Outcome State Fault Refusal := alu1 c rd ra (fun a => BitVec.ofNat 64 (ctz a)) s
/-- POPC (R109). -/
def execPopc (c : CoreId) (rd ra : RIx) (s : State) : Host.Outcome State Fault Refusal := alu1 c rd ra (fun a => BitVec.ofNat 64 (popc a)) s
/-- REV8 (R109). -/
def execRev8 (c : CoreId) (rd ra : RIx) (s : State) : Host.Outcome State Fault Refusal := alu1 c rd ra rev8 s

/-- ADDW (R109). -/
def execAddw (c : CoreId) (rd ra rb : RIx) (s : State) : Host.Outcome State Fault Refusal := alu2 c rd ra rb (fun a b => sextW (low32 a + low32 b)) s
/-- SUBW (R109). -/
def execSubw (c : CoreId) (rd ra rb : RIx) (s : State) : Host.Outcome State Fault Refusal := alu2 c rd ra rb (fun a b => sextW (low32 a - low32 b)) s
/-- SLLW (R109). -/
def execSllw (c : CoreId) (rd ra rb : RIx) (s : State) : Host.Outcome State Fault Refusal := alu2 c rd ra rb (fun a b => sextW (low32 a <<< sh5 b)) s
/-- SRLW (R109). -/
def execSrlw (c : CoreId) (rd ra rb : RIx) (s : State) : Host.Outcome State Fault Refusal := alu2 c rd ra rb (fun a b => sextW (low32 a >>> sh5 b)) s
/-- SRAW (R109). -/
def execSraw (c : CoreId) (rd ra rb : RIx) (s : State) : Host.Outcome State Fault Refusal :=
  alu2 c rd ra rb (fun a b => sextW ((low32 a).sshiftRight (sh5 b))) s
/-- ADDVW (R109, R112, R117). -/
def execAddvw (c : CoreId) (rd ra rb : RIx) (s : State) : Host.Outcome State Fault Refusal :=
  aluV c rd ra rb (fun a b => sextW (low32 a + low32 b)) (fun a b => addOv (low32 a) (low32 b)) s
/-- SUBVW (R109, R112, R117). -/
def execSubvw (c : CoreId) (rd ra rb : RIx) (s : State) : Host.Outcome State Fault Refusal :=
  aluV c rd ra rb (fun a b => sextW (low32 a - low32 b)) (fun a b => subOv (low32 a) (low32 b)) s

/-- ADDI (R110). -/
def execAddi (c : CoreId) (rd ra : RIx) (imm : BitVec 16) (s : State) : Host.Outcome State Fault Refusal := alu1 c rd ra (fun a => a + simm imm) s
/-- ADDIW (R110). -/
def execAddiw (c : CoreId) (rd ra : RIx) (imm : BitVec 16) (s : State) : Host.Outcome State Fault Refusal :=
  alu1 c rd ra (fun a => sextW (low32 (a + simm imm))) s
/-- ANDI (R110). -/
def execAndi (c : CoreId) (rd ra : RIx) (imm : BitVec 16) (s : State) : Host.Outcome State Fault Refusal := alu1 c rd ra (fun a => a &&& zimm imm) s
/-- ORI (R110). -/
def execOri (c : CoreId) (rd ra : RIx) (imm : BitVec 16) (s : State) : Host.Outcome State Fault Refusal := alu1 c rd ra (fun a => a ||| zimm imm) s
/-- XORI (R110). -/
def execXori (c : CoreId) (rd ra : RIx) (imm : BitVec 16) (s : State) : Host.Outcome State Fault Refusal := alu1 c rd ra (fun a => a ^^^ zimm imm) s
/-- SLTI (R110). -/
def execSlti (c : CoreId) (rd ra : RIx) (imm : BitVec 16) (s : State) : Host.Outcome State Fault Refusal :=
  alu1 c rd ra (fun a => truth (a.slt (simm imm))) s
/-- SLTIU (R110). -/
def execSltiu (c : CoreId) (rd ra : RIx) (imm : BitVec 16) (s : State) : Host.Outcome State Fault Refusal :=
  alu1 c rd ra (fun a => truth (a.ult (simm imm))) s

/-- A shift by an immediate (R111): with W = 1 it acts on the low 32 bits, and bit 5 of the amount must be 0. -/
def shiftImm (c : CoreId) (rd ra : RIx) (wide : Bool) (sh : BitVec 6) (f : Word → Nat → Word) (g : BitVec 32 → Nat → BitVec 32)
    (s : State) : Host.Outcome State Fault Refusal :=
  onDev (fun d => d.instrIf c (shiftOk wide sh)
    (regOut c 1 (fun k => k.wr rd (if wide then sextW (g (low32 (k.rd ra)) sh.toNat) else f (k.rd ra) sh.toNat)))) s

/-- SLLI (R111); `wide` is W. -/
def execSlli (c : CoreId) (rd ra : RIx) (wide : Bool) (sh : BitVec 6) (s : State) : Host.Outcome State Fault Refusal :=
  shiftImm c rd ra wide sh (fun a n => a <<< n) (fun a n => a <<< n) s
/-- SRLI (R111). -/
def execSrli (c : CoreId) (rd ra : RIx) (wide : Bool) (sh : BitVec 6) (s : State) : Host.Outcome State Fault Refusal :=
  shiftImm c rd ra wide sh (fun a n => a >>> n) (fun a n => a >>> n) s
/-- SRAI (R111). -/
def execSrai (c : CoreId) (rd ra : RIx) (wide : Bool) (sh : BitVec 6) (s : State) : Host.Outcome State Fault Refusal :=
  shiftImm c rd ra wide sh (fun a n => a.sshiftRight n) (fun a n => a.sshiftRight n) s
/-- RORI (R111): 64 bits only. -/
def execRori (c : CoreId) (rd ra : RIx) (sh : BitVec 6) (s : State) : Host.Outcome State Fault Refusal :=
  alu1 c rd ra (fun a => a.rotateRight sh.toNat) s

/-- LUI (R110). -/
def execLui (c : CoreId) (rd : RIx) (imm : BitVec 21) (s : State) : Host.Outcome State Fault Refusal :=
  onDev (fun d => d.instr c (regOut c 1 (fun k => k.wr rd (uimm imm)))) s
/-- AUIPC (R110). -/
def execAuipc (c : CoreId) (rd : RIx) (imm : BitVec 21) (s : State) : Host.Outcome State Fault Refusal :=
  onDev (fun d => d.instr c (regOut c 1 (fun k => k.wr rd (k.pc + uimm imm)))) s

/-- SEL (R118). -/
def execSel (c : CoreId) (rd ra rb rc : RIx) (s : State) : Host.Outcome State Fault Refusal :=
  onDev (fun d => d.instr c (regOut c 1 (fun k => k.wr rd (if k.rd rc ≠ 0 then k.rd ra else k.rd rb)))) s

end Sys2Proof.Machine
end

