-- ==== Sys2Proof/Machine/MulDiv.lean ====
section
/-!
DEFINITION. Multiply and divide (R113-R117).
-/
namespace Sys2Proof.Machine

/-- MUL (R113). -/
def execMul (c : CoreId) (rd ra rb : RIx) (s : State) : Host.Outcome State Fault Refusal := alu2 c rd ra rb (fun a b => a * b) s
/-- MULH (R113): the high half of the signed product. -/
def execMulh (c : CoreId) (rd ra rb : RIx) (s : State) : Host.Outcome State Fault Refusal :=
  alu2 c rd ra rb (fun a b => BitVec.ofInt 64 (a.toInt * b.toInt / 2 ^ 64)) s
/-- MULHU (R113). -/
def execMulhu (c : CoreId) (rd ra rb : RIx) (s : State) : Host.Outcome State Fault Refusal :=
  alu2 c rd ra rb (fun a b => BitVec.ofNat 64 (a.toNat * b.toNat / 2 ^ 64)) s
/-- MULV (R113, R117). -/
def execMulv (c : CoreId) (rd ra rb : RIx) (s : State) : Host.Outcome State Fault Refusal := aluV c rd ra rb (fun a b => a * b) mulOv s
/-- MULW (R113). -/
def execMulw (c : CoreId) (rd ra rb : RIx) (s : State) : Host.Outcome State Fault Refusal := alu2 c rd ra rb (fun a b => sextW (low32 a * low32 b)) s
/-- MULVW (R113, R117). -/
def execMulvw (c : CoreId) (rd ra rb : RIx) (s : State) : Host.Outcome State Fault Refusal :=
  aluV c rd ra rb (fun a b => sextW (low32 a * low32 b)) (fun a b => mulOv (low32 a) (low32 b)) s

/-- A 64-bit divide: 66 steps. `pick` takes the quotient or the remainder. -/
def div64 (c : CoreId) (rd ra rb : RIx) (f : Word → Word → DivRes 64) (pick : DivRes 64 → Word) (s : State) :
    Host.Outcome State Fault Refusal :=
  onDev (fun d => d.instr c (fun d =>
    let k := d.core c
    let x := f (k.rd ra) (k.rd rb)
    .done (d.modCore c (fun k => k.wr rd (pick x))) { Ret.plain k 66 with dz := x.dz, ov := x.ov })) s

/-- A 32-bit divide: 34 steps, its result sign-extended from bit 31. -/
def div32 (c : CoreId) (rd ra rb : RIx) (f : BitVec 32 → BitVec 32 → DivRes 32) (pick : DivRes 32 → BitVec 32) (s : State) :
    Host.Outcome State Fault Refusal :=
  onDev (fun d => d.instr c (fun d =>
    let k := d.core c
    let x := f (low32 (k.rd ra)) (low32 (k.rd rb))
    .done (d.modCore c (fun k => k.wr rd (sextW (pick x)))) { Ret.plain k 34 with dz := x.dz, ov := x.ov })) s

/-- DIV (R113, R115). -/
def execDiv (c : CoreId) (rd ra rb : RIx) (s : State) : Host.Outcome State Fault Refusal := div64 c rd ra rb divS (·.q) s
/-- DIVU (R113, R115). -/
def execDivu (c : CoreId) (rd ra rb : RIx) (s : State) : Host.Outcome State Fault Refusal := div64 c rd ra rb divU (·.q) s
/-- REM (R113, R115). -/
def execRem (c : CoreId) (rd ra rb : RIx) (s : State) : Host.Outcome State Fault Refusal := div64 c rd ra rb divS (·.r) s
/-- REMU (R113, R115). -/
def execRemu (c : CoreId) (rd ra rb : RIx) (s : State) : Host.Outcome State Fault Refusal := div64 c rd ra rb divU (·.r) s
/-- DIVW (R113, R115). -/
def execDivw (c : CoreId) (rd ra rb : RIx) (s : State) : Host.Outcome State Fault Refusal := div32 c rd ra rb divS (·.q) s
/-- DIVUW (R113, R115). -/
def execDivuw (c : CoreId) (rd ra rb : RIx) (s : State) : Host.Outcome State Fault Refusal := div32 c rd ra rb divU (·.q) s
/-- REMW (R113, R115). -/
def execRemw (c : CoreId) (rd ra rb : RIx) (s : State) : Host.Outcome State Fault Refusal := div32 c rd ra rb divS (·.r) s
/-- REMUW (R113, R115). -/
def execRemuw (c : CoreId) (rd ra rb : RIx) (s : State) : Host.Outcome State Fault Refusal := div32 c rd ra rb divU (·.r) s

end Sys2Proof.Machine
end

