-- ==== Sys2Proof/Machine/Branch.lean ====
section
/-!
DEFINITION. Branches and jumps (R119-R121).
-/
namespace Sys2Proof.Machine

/-- What retires a branch or jump: the target when it is taken, in 2 steps, or the next address in 1 (Table 5-7). -/
def Ret.jump (k : Core) (target : Word) (kind : Nat) (taken : Bool) : Ret :=
  { Ret.plain k (if taken then 2 else 1) with next := if taken then align4 target else k.pc + 4, branch := some (kind, taken) }

/-- A conditional branch on the value of w[ra] (R119). -/
def condBranch (c : CoreId) (ra : RIx) (off : BitVec 21) (test : Word → Bool) (s : State) : Host.Outcome State Fault Refusal :=
  onDev (fun d => d.instr c (fun d => let k := d.core c; .done d (Ret.jump k (k.pc + boff off) 0 (test (k.rd ra))))) s

/-- BEZ (R119). -/
def execBez (c : CoreId) (ra : RIx) (off : BitVec 21) (s : State) : Host.Outcome State Fault Refusal := condBranch c ra off (fun v => v == 0) s
/-- BNZ (R119). -/
def execBnz (c : CoreId) (ra : RIx) (off : BitVec 21) (s : State) : Host.Outcome State Fault Refusal := condBranch c ra off (fun v => v != 0) s
/-- BLTZ (R119). -/
def execBltz (c : CoreId) (ra : RIx) (off : BitVec 21) (s : State) : Host.Outcome State Fault Refusal := condBranch c ra off (fun v => v.slt 0) s
/-- BGEZ (R119). -/
def execBgez (c : CoreId) (ra : RIx) (off : BitVec 21) (s : State) : Host.Outcome State Fault Refusal := condBranch c ra off (fun v => !v.slt 0) s

/-- J (R120). -/
def execJ (c : CoreId) (off : BitVec 26) (s : State) : Host.Outcome State Fault Refusal :=
  onDev (fun d => d.instr c (fun d => let k := d.core c; .done d (Ret.jump k (k.pc + joff off) 1 true))) s

/-- JAL (R120): PC + 4 goes to w31. -/
def execJal (c : CoreId) (off : BitVec 26) (s : State) : Host.Outcome State Fault Refusal :=
  onDev (fun d => d.instr c (fun d =>
    let k := d.core c
    .done (d.modCore c (fun k => k.wr 31 (k.pc + 4))) (Ret.jump k (k.pc + joff off) 2 true))) s

/-- The kind of a JALR (R121). -/
def jalrKind (rd ra : RIx) (imm : BitVec 16) : Nat :=
  if rd = 31 then 2 else if rd = 0 ∧ ra = 31 ∧ imm = 0 then 3 else 4

/-- JALR (R120): w[ra] is read before w[rd] is written. -/
def execJalr (c : CoreId) (rd ra : RIx) (imm : BitVec 16) (s : State) : Host.Outcome State Fault Refusal :=
  onDev (fun d => d.instr c (fun d =>
    let k := d.core c
    .done (d.modCore c (fun k => k.wr rd (k.pc + 4))) (Ret.jump k (k.rd ra + simm imm) (jalrKind rd ra imm) true))) s

end Sys2Proof.Machine
end

