-- ==== Sys2Proof/Machine/LoadStore.lean ====
section
/-!
DEFINITION. Loads and stores (R122-R130), the store buffer's drain and deferred store errors (R129, R217).
-/
namespace Sys2Proof.Machine

/-- The item of a scalar access. -/
def scalar (va : Word) (n : Nat) : Item := ⟨va.toNat, n, n⟩

/-- The steps of an access: to the local store `near`, otherwise 2 and a wait (Table 5-7). -/
def accSteps (ps : List Part) (near : Nat) : Nat := if allSelf ps then near else 2

/-- What retires an access that goes on at the next address. -/
def Ret.access (k : Core) (ps : List Part) (near : Nat) (acc : List (Nat × Nat × Bool)) : Ret :=
  { Ret.plain k (accSteps ps near) with far := !allSelf ps, acc := acc }

/-- Make an access: its checks, then `act` on its parts. -/
def Dev.withAccess (d : Dev) (c : CoreId) (kind : AKind) (strict : Option Nat) (is : List Item) (act : Dev → List Part → Out) : Out :=
  match d.access c kind strict is with
  | .wait d1 => .wait d1
  | .cause d1 x => .cause d1 x
  | .ok d1 ps => act d1 ps

/-- A load of `n` bytes at w[ra] + imm, its value made of them by `ext` (R122-R127). -/
def loadInstr (c : CoreId) (rd ra : RIx) (imm : BitVec 16) (n : Nat) (ext : Nat → Word) (s : State) : Host.Outcome State Fault Refusal :=
  onDev (fun d => d.instr c (fun d =>
    let k := d.core c
    let va := k.rd ra + simm imm
    d.withAccess c .load none [scalar va n] (fun d ps =>
      match d.loadParts c false true ps with
      | (d1, .error x) => .cause d1 x
      | (d1, .ok bs) => .done (d1.modCore c (fun k => k.wr rd (ext (leNat bs))))
          (Ret.access k ps (1 + ps.length) [(va.toNat, log2Size n, false)])))) s

/-- The sign extension of an `n`-bit load. -/
def sextN (n x : Nat) : Word := BitVec.ofInt 64 (signedOf n x)
/-- The zero extension of a load. -/
def zextN (x : Nat) : Word := BitVec.ofNat 64 x

/-- LD8 (R122). -/
def execLd8 (c : CoreId) (rd ra : RIx) (imm : BitVec 16) (s : State) : Host.Outcome State Fault Refusal := loadInstr c rd ra imm 1 (sextN 8) s
/-- LD8U (R122). -/
def execLd8u (c : CoreId) (rd ra : RIx) (imm : BitVec 16) (s : State) : Host.Outcome State Fault Refusal := loadInstr c rd ra imm 1 zextN s
/-- LD16 (R122). -/
def execLd16 (c : CoreId) (rd ra : RIx) (imm : BitVec 16) (s : State) : Host.Outcome State Fault Refusal := loadInstr c rd ra imm 2 (sextN 16) s
/-- LD16U (R122). -/
def execLd16u (c : CoreId) (rd ra : RIx) (imm : BitVec 16) (s : State) : Host.Outcome State Fault Refusal := loadInstr c rd ra imm 2 zextN s
/-- LD32 (R122). -/
def execLd32 (c : CoreId) (rd ra : RIx) (imm : BitVec 16) (s : State) : Host.Outcome State Fault Refusal := loadInstr c rd ra imm 4 (sextN 32) s
/-- LD32U (R122). -/
def execLd32u (c : CoreId) (rd ra : RIx) (imm : BitVec 16) (s : State) : Host.Outcome State Fault Refusal := loadInstr c rd ra imm 4 zextN s
/-- LD64 (R122). -/
def execLd64 (c : CoreId) (rd ra : RIx) (imm : BitVec 16) (s : State) : Host.Outcome State Fault Refusal := loadInstr c rd ra imm 8 zextN s

/-- A store of the low `n` bytes of w[rs] at w[ra] + imm. -/
def storeInstr (c : CoreId) (rs ra : RIx) (imm : BitVec 16) (n : Nat) (s : State) : Host.Outcome State Fault Refusal :=
  onDev (fun d => d.instr c (fun d =>
    let k := d.core c
    let va := k.rd ra + simm imm
    d.withAccess c .store none [scalar va n] (fun d ps =>
      match d.storeParts c false ps (natLe n (k.rd rs).toNat) with
      | (d1, some x) => .cause d1 x
      | (d1, none) => .done d1 (Ret.access k ps (1 + ps.length) [(va.toNat, log2Size n, true)])))) s

/-- ST8 (R122). -/
def execSt8 (c : CoreId) (rs ra : RIx) (imm : BitVec 16) (s : State) : Host.Outcome State Fault Refusal := storeInstr c rs ra imm 1 s
/-- ST16 (R122). -/
def execSt16 (c : CoreId) (rs ra : RIx) (imm : BitVec 16) (s : State) : Host.Outcome State Fault Refusal := storeInstr c rs ra imm 2 s
/-- ST32 (R122). -/
def execSt32 (c : CoreId) (rs ra : RIx) (imm : BitVec 16) (s : State) : Host.Outcome State Fault Refusal := storeInstr c rs ra imm 4 s
/-- ST64 (R122). -/
def execSt64 (c : CoreId) (rs ra : RIx) (imm : BitVec 16) (s : State) : Host.Outcome State Fault Refusal := storeInstr c rs ra imm 8 s

/-- STORE_BUFFER_DRAIN (R217): entry `i` of the store buffer, counted from the oldest, is performed and freed. Stores to
different bytes may be performed in any order (R342-R344), but no entry before an older one that it overlaps. -/
def execStoreBufferDrain (c : CoreId) (i : Fin 32) (s : State) : Host.Outcome State Fault Refusal :=
  onDev (fun d =>
    let sb := (d.core c).sb
    match sb[i.val]? with
    | none => d
    | some e =>
      if (sb.take i.val).any (fun o => o.overlaps e.pa e.data.length) then d
      else (d.modCore c (fun k => { k with sb := sb.eraseIdx i.val })).storeLate c e) s

/-- DEFERRED_STORE_ERROR (R129): an error response has reached a retired store, and cause 0x13 is taken at the boundary at
which the core stands, whatever EE. -/
def execDeferredStoreError (c : CoreId) (s : State) : Host.Outcome State Fault Refusal :=
  onDev (fun d =>
    if d.canRun c then
      let d1 := d.stagedDue c
      match (d1.core c).deferred with
      | some (va, e) =>
        (d1.modCore c (fun k => { k with deferred := none })).takeCause c ⟨0x13, e, va⟩ (d1.core c).pc
      | none => d
    else d) s

end Sys2Proof.Machine
end

