-- ==== Sys2Proof/Machine/Atomic.lean ====
section
/-!
DEFINITION. Reserve, commit, atomic and ordered accesses, and the fence (R131-R139, R816).
-/
namespace Sys2Proof.Machine

/-- The store buffer before an access of MEMX: empty before a release, which follows every older access (R346).
DEDUCED, log entry 49. -/
def Dev.release (d : Dev) (c : CoreId) (rel : Bool) : Dev := if rel then d.sbFlush c else d

/-- Whether an ordering field asks for a release: .RL or .AR. -/
def isRelease (ord : BitVec 2) : Bool := ord.getLsbD 1

/-- An ordered load of `n` bytes at w[ra]: LRES (which reserves), LDA and LDNT. -/
def orderedLoad (c : CoreId) (rd ra : RIx) (n : Nat) (strict rel reserve old : Bool) (ext : Nat → Word) (s : State) :
    Host.Outcome State Fault Refusal :=
  onDev (fun d => d.instr c (fun d =>
    let k := d.core c
    let va := k.rd ra
    d.withAccess c .load (if strict then some n else none) [scalar va n] (fun d ps =>
      match (d.release c rel).loadParts c old (old && !strict) ps with
      | (d1, .error x) => .cause d1 x
      | (d1, .ok bs) =>
        let d2 := if reserve then
            { d1 with resv := SMap.set (fun _ => none) d1.resv c (ps.head?.map (fun p => ⟨resvAddr c p, n, 129⟩)) } else d1
        .done (d2.modCore c (fun k => k.wr rd (ext (leNat bs)))) (Ret.access k ps 2 [(va.toNat, log2Size n, false)])))) s

/-- LRES (R133). -/
def execLres (c : CoreId) (rd ra : RIx) (ord : BitVec 2) (s : State) : Host.Outcome State Fault Refusal :=
  orderedLoad c rd ra 8 true (isRelease ord) true false zextN s
/-- LRESW (R133). -/
def execLresw (c : CoreId) (rd ra : RIx) (ord : BitVec 2) (s : State) : Host.Outcome State Fault Refusal :=
  orderedLoad c rd ra 4 true (isRelease ord) true false (sextN 32) s
/-- LDA (R131): acquire. -/
def execLda (c : CoreId) (rd ra : RIx) (s : State) : Host.Outcome State Fault Refusal := orderedLoad c rd ra 8 true false false false zextN s
/-- LDAW (R131). -/
def execLdaw (c : CoreId) (rd ra : RIx) (s : State) : Host.Outcome State Fault Refusal := orderedLoad c rd ra 4 true false false false (sextN 32) s
/-- LDNT (R131): its fill is inserted as old; any alignment. -/
def execLdnt (c : CoreId) (rd ra : RIx) (s : State) : Host.Outcome State Fault Refusal := orderedLoad c rd ra 8 false false false true zextN s

/-- Whether the reservation of a core lets an SCOM of `n` bytes to a part succeed (R134). -/
def Dev.resvHolds (d : Dev) (c : CoreId) (p : Part) (n : Nat) : Bool :=
  match SMap.get (fun _ => none) d.resv c with
  | some r => r.addr == resvAddr c p && r.size == n
  | none => false

/-- SCOM and SCOMW (R134, R816): the outcome is decided at the home, which a failing one reaches too. -/
def commitStore (c : CoreId) (rd ra rb : RIx) (n : Nat) (rel : Bool) (s : State) : Host.Outcome State Fault Refusal :=
  onDev (fun d => d.instr c (fun d =>
    let k := d.core c
    let va := k.rd ra
    d.withAccess c .store (some n) [scalar va n] (fun d ps =>
      match ps with
      | [] => .wait d
      | p :: _ =>
        let d0 := (d.release c rel).sbBefore c p
        let won := d0.resvHolds c p n
        match (d0.dropResv c).atomicPart c p (fun _ => if won then some ((k.rd rb).toNat % 2 ^ (8 * n)) else none) with
        | (d1, .error e) => .cause d1 ⟨0x12, e, va.toNat⟩
        | (d1, .ok _) =>
          let d2 := if won then d1 else d1.countEvt c 0x0C 1
          .done (d2.modCore c (fun k => k.wr rd (truth (!won))))
            { Ret.access k ps 2 (if won then [(va.toNat, log2Size n, true)] else []) with scom := won }))) s

/-- SCOM (R134). -/
def execScom (c : CoreId) (rd ra rb : RIx) (ord : BitVec 2) (s : State) : Host.Outcome State Fault Refusal :=
  commitStore c rd ra rb 8 (isRelease ord) s
/-- SCOMW (R134). -/
def execScomw (c : CoreId) (rd ra rb : RIx) (ord : BitVec 2) (s : State) : Host.Outcome State Fault Refusal :=
  commitStore c rd ra rb 4 (isRelease ord) s

/-- An atomic operation of `n` bytes at w[ra] (R137, R816): `f` makes the new value of the old one. -/
def atomicInstr (c : CoreId) (rd ra : RIx) (n : Nat) (rel : Bool) (f : Core → Nat → Option Nat) (ext : Nat → Word) (s : State) :
    Host.Outcome State Fault Refusal :=
  onDev (fun d => d.instr c (fun d =>
    let k := d.core c
    let va := k.rd ra
    d.withAccess c .atomic (some n) [scalar va n] (fun d ps =>
      match ps with
      | [] => .wait d
      | p :: _ =>
        match ((d.release c rel).sbBefore c p).atomicPart c p (f k) with
        | (d1, .error e) => .cause d1 ⟨0x12, e, va.toNat⟩
        | (d1, .ok old) =>
          .done (d1.modCore c (fun k => k.wr rd (ext old)))
            (Ret.access k ps 3 [(va.toNat, log2Size n, false), (va.toNat, log2Size n, true)])))) s

/-- AADD (R131, R137). -/
def execAadd (c : CoreId) (rd ra rb : RIx) (ord : BitVec 2) (s : State) : Host.Outcome State Fault Refusal :=
  atomicInstr c rd ra 8 (isRelease ord) (fun k => atomicFn 0 8 (k.rd rb) 0) zextN s
/-- AADDW (R131, R137). -/
def execAaddw (c : CoreId) (rd ra rb : RIx) (ord : BitVec 2) (s : State) : Host.Outcome State Fault Refusal :=
  atomicInstr c rd ra 4 (isRelease ord) (fun k => atomicFn 0 4 (k.rd rb) 0) (sextN 32) s
/-- ASWP (R131, R137). -/
def execAswp (c : CoreId) (rd ra rb : RIx) (ord : BitVec 2) (s : State) : Host.Outcome State Fault Refusal :=
  atomicInstr c rd ra 8 (isRelease ord) (fun k => atomicFn 1 8 (k.rd rb) 0) zextN s
/-- ASWPW (R131, R137). -/
def execAswpw (c : CoreId) (rd ra rb : RIx) (ord : BitVec 2) (s : State) : Host.Outcome State Fault Refusal :=
  atomicInstr c rd ra 4 (isRelease ord) (fun k => atomicFn 1 4 (k.rd rb) 0) (sextN 32) s
/-- ACAS (R131, R137): w[rb] is compared, w[rc] stored. -/
def execAcas (c : CoreId) (rd ra rb rc : RIx) (ord : BitVec 2) (s : State) : Host.Outcome State Fault Refusal :=
  atomicInstr c rd ra 8 (isRelease ord) (fun k => atomicFn 2 8 (k.rd rb) (k.rd rc)) zextN s
/-- ACASW (R131, R137). -/
def execAcasw (c : CoreId) (rd ra rb rc : RIx) (ord : BitVec 2) (s : State) : Host.Outcome State Fault Refusal :=
  atomicInstr c rd ra 4 (isRelease ord) (fun k => atomicFn 2 4 (k.rd rb) (k.rd rc)) (sextN 32) s

/-- An ordered store of `n` bytes at w[ra] (R131, R816): a release, which retires after its response. -/
def orderedStore (c : CoreId) (ra rb : RIx) (n : Nat) (s : State) : Host.Outcome State Fault Refusal :=
  onDev (fun d => d.instr c (fun d =>
    let k := d.core c
    let va := k.rd ra
    d.withAccess c .store (some n) [scalar va n] (fun d ps =>
      match ps with
      | [] => .wait d
      | p :: _ =>
        match (d.sbFlush c).writePart c p (natLe n (k.rd rb).toNat) with
        | (d1, some e) => .cause d1 ⟨0x12, e, va.toNat⟩
        | (d1, none) => .done d1 (Ret.access k ps 2 [(va.toNat, log2Size n, true)])))) s

/-- STL (R131). -/
def execStl (c : CoreId) (ra rb : RIx) (s : State) : Host.Outcome State Fault Refusal := orderedStore c ra rb 8 s
/-- STLW (R131). -/
def execStlw (c : CoreId) (ra rb : RIx) (s : State) : Host.Outcome State Fault Refusal := orderedStore c ra rb 4 s

/-- FENCE (R139, R347): with PW every earlier store is performed. The accesses of a core are otherwise made in program order
here. A value of 0 in the four set bits is undefined. -/
def execFence (c : CoreId) (sets : BitVec 5) (s : State) : Host.Outcome State Fault Refusal :=
  onDev (fun d => d.instrIf c (fenceOk sets) (fun d =>
    let k := d.core c
    .done (if sets.getLsbD 2 then d.sbFlush c else d) (Ret.plain k 1))) s

end Sys2Proof.Machine
end

