-- ==== Sys2Proof/Machine/Cmo.lean ====
section
/-!
DEFINITION. Maintenance by line: ZLINE, CLEAN, INV, FLUSH, PREF and PREFW (R140, R270, R329-R331).
-/
namespace Sys2Proof.Machine

/-- The part of a CMO: the byte that its address names stands for the line. -/
def cmoItem (va : Word) : Item := ⟨va.toNat, 1, 1⟩

/-- The 256-byte line of a part, as one part. -/
def Part.line (p : Part) : Part := { p with pa := p.pa / 256 * 256, rpa := p.rpa / 256 * 256, n := 256 }

/-- A CMO error that reaches WB, WT or NC memory is a deferred store error (R129, R347).
DEDUCED, log entry 19. -/
def cmoLate (c : CoreId) (p : Part) (r : Dev × Except Nat Unit) : Dev :=
  match r with
  | (d1, .ok ()) => d1
  | (d1, .error e) => d1.modCore c (fun k => { k with deferred := k.deferred.orElse (fun _ => some (p.va, e)) })

/-- What retires a CMO. -/
def cmoRet (k : Core) (steps : Nat) (far : Bool) : Ret := { Ret.plain k steps with far := far }

/-- Zero a line of DO or DS memory as 32 stores of 8 bytes in ascending order (R330). -/
def Dev.zeroWords (d : Dev) (c : CoreId) (l : Part) : Nat → Dev × Option Nat
  | 0 => (d, none)
  | n + 1 => match d.writePart c (l.slice (8 * (31 - n)) 8) (List.replicate 8 0) with
    | (d1, some e) => (d1, some e)
    | (d1, none) => d1.zeroWords c l n

/-- Zero the four sectors of a line of WT or NC memory (R306, R330). -/
def Dev.zeroSectors (d : Dev) (c : CoreId) (l : Part) : Nat → Dev × Except Nat Unit
  | 0 => (d, .ok ())
  | n + 1 => match d.writePart c (l.slice (64 * (3 - n)) 64) (List.replicate 64 0) with
    | (d1, some e) => (d1, .error e)
    | (d1, none) => d1.zeroSectors c l n

/-- ZLINE past its checks. -/
def Dev.zline (d : Dev) (c : CoreId) (k : Core) (p : Part) : Out :=
  let l := p.line
  let d0 := (if p.mt = .dS then d.sbFlush c else d.sbDrainOver c l.rpa 256).dropFetched c l.rpa 256
  if p.self then
    match d0.lsWrite c (l.rpa - selfBase) (List.replicate 256 0) with
    | (d1, .error e) => .cause d1 ⟨0x12, e, p.va⟩
    | (d1, .ok ()) => .done d1 (cmoRet k 5 false)
  else if devType p.mt then
    match d0.zeroWords c l 32 with
    | (d1, some e) => .cause d1 ⟨0x12, e, p.va⟩
    | (d1, none) => .done d1 (cmoRet k 2 true)
  else if p.mt = .wb ∧ cacheable l.rpa then
    let d1 := cmoLate c p (d0.lineZero (d0.rqOf c) l.rpa p.ph p.st)
    .done ((d1.loseResv l.rpa 256 (some c.val)).noteWrite k.part k.rep l.rpa) (cmoRet k 2 true)
  else .done (cmoLate c p (d0.zeroSectors c l 4)) (cmoRet k 2 true)

/-- ZLINE (R140, R329, R330). -/
def execZline (c : CoreId) (ra : RIx) (imm : BitVec 16) (s : State) : Host.Outcome State Fault Refusal :=
  onDev (fun d => d.instr c (fun d =>
    let k := d.core c
    d.withAccess c .store none [cmoItem (k.rd ra + simm imm)] (fun d ps =>
      match ps with
      | [] => .wait d
      | p :: _ => d.zline c k p))) s

/-- CLEAN, INV and FLUSH: `op` on the line, whatever the type of the page; the local store and other addresses hold no line
(R329, R330). -/
def lineInstr (c : CoreId) (ra : RIx) (imm : BitVec 16) (kind : AKind) (super : Bool) (op : Dev → Rq → Nat → Dev × Except Nat Unit)
    (s : State) : Host.Outcome State Fault Refusal :=
  onDev (fun d => d.instr c (fun d =>
    let k := d.core c
    if super && k.priv == .u then .cause d ⟨0x02, 0, 0⟩
    else d.withAccess c kind none [cmoItem (k.rd ra + simm imm)] (fun d ps =>
      match ps with
      | [] => .wait d
      | p :: _ =>
        if p.self || !cacheable p.rpa then .done d (cmoRet k 2 true)
        else
          let d0 := d.sbDrainOver c (p.rpa / 256 * 256) 256
          .done (cmoLate c p (op d0 (d0.rqOf c) p.rpa)) (cmoRet k 2 true)))) s

/-- CLEAN (R140, R329). -/
def execClean (c : CoreId) (ra : RIx) (imm : BitVec 16) (s : State) : Host.Outcome State Fault Refusal :=
  lineInstr c ra imm .load false (fun d rq pa => d.lineClean rq pa) s
/-- INV (R140, R329): S only. -/
def execInv (c : CoreId) (ra : RIx) (imm : BitVec 16) (s : State) : Host.Outcome State Fault Refusal :=
  lineInstr c ra imm .store true (fun d rq pa => d.lineInv rq pa) s
/-- FLUSH (R140, R329). -/
def execFlush (c : CoreId) (ra : RIx) (imm : BitVec 16) (s : State) : Host.Outcome State Fault Refusal :=
  lineInstr c ra imm .load false (fun d rq pa => d.lineFlush rq pa) s

/-- A prefetch hint: it does nothing where its translation would fault, would need an A or D update, or would have to wait, and
never faults (R270). -/
def prefInstr (c : CoreId) (ra : RIx) (imm : BitVec 16) (kind : AKind) (fill : Dev → Rq → Part → Dev) (s : State) :
    Host.Outcome State Fault Refusal :=
  onDev (fun d => d.instr c (fun d =>
    let k := d.core c
    let is := [cmoItem (k.rd ra + simm imm)]
    let go (d1 : Dev) : Out := .done d1 (cmoRet k 2 true)
    if d.walkWaits c kind is then go d
    else match d.checkItems c kind none is with
    | (d1, .ok (p :: _)) =>
      if p.upd.isNone && !p.self && cacheable p.rpa && (p.mt == .wb || p.mt == .wt) && !d1.partWaits c p false then go (fill d1 (d1.rqOf c) p)
      else go d1
    | (d1, _) => go d1)) s

/-- PREF (R140, R329): as a demand read of the sector. DEDUCED, log entry 26. -/
def execPref (c : CoreId) (ra : RIx) (imm : BitVec 16) (s : State) : Host.Outcome State Fault Refusal :=
  prefInstr c ra imm .load (fun d rq p => (d.l2Get rq p.rpa (if p.st then 3 else 0) p.ph (p.mt == .wt)).1) s
/-- PREFW (R140, R306, R329): as a read-exclusive request for the sector; a WT sector is held clean and shared only.
DEDUCED, log entry 26. -/
def execPrefw (c : CoreId) (ra : RIx) (imm : BitVec 16) (s : State) : Host.Outcome State Fault Refusal :=
  prefInstr c ra imm .store (fun d rq p =>
    if p.mt = .wt then (d.l2Get rq p.rpa (if p.st then 3 else 0) p.ph true).1
    else (d.l2Own rq p.rpa (if p.st then 3 else 0) p.ph).1) s

end Sys2Proof.Machine
end

