-- ==== Sys2Proof/Machine/Sys.lean ====
section
/-!
DEFINITION. System instructions and the events of a core (R141-R160): control registers, SVC and BRK, ERET, waits, SYNC.C, IFENCE,
TLBI, event entry, staged writes, clearing walks, walks and A or D updates on their own.
-/
namespace Sys2Proof.Machine

/-- The cause code that an access to a control register raises (R103, R104, R153). -/
def Dev.ctrlCause (d : Dev) (c : CoreId) (i : Nat) (read write : Bool) : Option Nat :=
  if ctrlListed i = false then some 0x01
  else if (read && !(d.core c).ctrlMay i false) || (write && !(d.core c).ctrlMay i true) then some 0x02
  else none

/-- An access to a control register, when it is permitted. -/
def ctrlInstr (c : CoreId) (idx : BitVec 12) (read write : Bool) (steps : Nat) (act : Dev → Dev) (s : State) :
    Host.Outcome State Fault Refusal :=
  onDev (fun d => d.instr c (fun d =>
    match d.ctrlCause c idx.toNat read write with
    | some code => .cause d ⟨code, 0, 0⟩
    | none => .done (act d) (Ret.plain (d.core c) steps))) s

/-- MFC (R141). -/
def execMfc (c : CoreId) (rd : RIx) (idx : BitVec 12) (s : State) : Host.Outcome State Fault Refusal :=
  ctrlInstr c idx true false 1 (fun d => d.modCore c (fun k => k.wr rd (d.ctrlRead c idx.toNat false))) s

/-- MTC (R141, R154, R158, R159). -/
def execMtc (c : CoreId) (ra : RIx) (idx : BitVec 12) (s : State) : Host.Outcome State Fault Refusal :=
  ctrlInstr c idx false true 1 (fun d => d.ctrlWrite c idx.toNat ((d.core c).rd ra)) s

/-- CSET (R141). -/
def execCset (c : CoreId) (rd ra : RIx) (idx : BitVec 12) (s : State) : Host.Outcome State Fault Refusal :=
  ctrlInstr c idx true true 2 (fun d =>
    let old := d.ctrlRead c idx.toNat false
    (d.ctrlWrite c idx.toNat (old ||| (d.core c).rd ra)).modCore c (fun k => k.wr rd old)) s

/-- CCLR (R141). -/
def execCclr (c : CoreId) (rd ra : RIx) (idx : BitVec 12) (s : State) : Host.Outcome State Fault Refusal :=
  ctrlInstr c idx true true 2 (fun d =>
    let old := d.ctrlRead c idx.toNat false
    (d.ctrlWrite c idx.toNat (old &&& ~~~((d.core c).rd ra))).modCore c (fun k => k.wr rd old)) s

/-- SVC (R141): cause 0x03. -/
def execSvc (c : CoreId) (idx : BitVec 12) (s : State) : Host.Outcome State Fault Refusal :=
  onDev (fun d => d.instr c (fun d => .cause d ⟨0x03, idx.toNat, 0⟩)) s

/-- BRK (R141, R150, R759): cause 0x04, or a halt while the debugger claims breakpoints. -/
def execBrk (c : CoreId) (idx : BitVec 12) (s : State) : Host.Outcome State Fault Refusal :=
  onDev (fun d => d.instr c (fun d => if d.flag (coreUid c) 0xF008 0 then .halt d 5 else .cause d ⟨0x04, idx.toNat, 0⟩)) s

/-- S_STATUS after ERET (R152). -/
def eretStatus (s : Word) : Word := setBits (setBit (setBits s 0 2 (bits s 2 2)) 4 (bit s 5)) 8 4 (bits s 12 4)

/-- ERET (R152): S only. -/
def execEret (c : CoreId) (s : State) : Host.Outcome State Fault Refusal :=
  onDev (fun d => d.instr c (fun d =>
    let k := d.core c
    if k.priv = .u then .cause d ⟨0x02, 0, 0⟩
    else .done (d.modCore c (fun k => { k with sStatus := eretStatus k.sStatus }))
      { Ret.plain k 3 with next := align4 k.sEpc, branch := some (6, true) })) s

/-! Waits. -/

/-- What retires a wait. -/
def waitRet (k : Core) : Ret := { Ret.plain k 2 with far := true }

/-- The core begins to doze, with nothing in progress (R622). DEDUCED, log entry 29. -/
def Dev.doze (d : Dev) (c : CoreId) (how : RunState) : Dev :=
  ((d.setPower (coreUid c) 1).modCore c (fun k => { k with run := how, dozeAt := d.dt })).tracePower c 1

/-- The core stops dozing and retires its wait; it stands at the next instruction. -/
def Dev.wakeUp (d : Dev) (c : CoreId) : Dev :=
  let d1 := ((d.setPower (coreUid c) 0).modCore c (fun k => { k with run := .run })).tracePower c 0
  d1.retire c 0 false (waitRet (d1.core c))

/-- An event stands in the inbox above IPL, whatever EE. -/
def Dev.eventAbove (d : Dev) (c : CoreId) : Bool :=
  match d.inboxNext c with
  | some (_, p) => decide (bits (d.core c).sStatus 8 4 < p)
  | none => false

/-- WAITE (R142): dozes until an event above IPL is pending; one that is pending already refuses the Doze (R637), and execution
goes on. Illegal in a replica. DEDUCED, log entry 29. -/
def execWaite (c : CoreId) (s : State) : Host.Outcome State Fault Refusal :=
  onDev (fun d => d.instrIf c (!(d.core c).replica) (fun d =>
    if d.eventAbove c then .done (d.pwrRefuse (coreUid c) 0x4500 1 (coreUid c)) (waitRet (d.core c))
    else .sleep ((d.sbFlush c).doze c .waite))) s

/-- WAITE_WAKE (R142): an event above IPL has arrived for a core that dozes in WAITE. -/
def execWaiteWake (c : CoreId) (s : State) : Host.Outcome State Fault Refusal :=
  onDev (fun d =>
    if (d.core c).run = .waite ∧ d.power (coreUid c) ≤ 1 ∧ d.halted c.val = false ∧ d.eventAbove c then d.wakeUp c else d) s

/-- The block that a WAITB on a cadence awaits, when its event has occurred and no final delta holds the core (R143, R501). -/
def Dev.waitbReady (d : Dev) (k : Core) (cad : Nat) : Option Nat :=
  let b := SMap.get (fun _ => 0) k.lastBlk cad
  match opt d.au.done cad with
  | some n => if b ≤ n ∧ d.deltaHolds k = false then some b else none
  | none => none

/-- WAITB returns block `b` of a cadence in w[rd] (R143, R475). DESIGN CHOICE, log entry 11. -/
def Core.gotBlock (k : Core) (cad : Nat) (rd : RIx) (b : Nat) : Core :=
  let k1 := k.wr rd (BitVec.ofNat 64 (b % 2 ^ 48))
  { k1 with lastBlk := SMap.set (fun _ => 0) (SMap.set (fun _ => 0) k1.lastBlk cad (b + 1)) (256 + cad) (b + 1), lastCad := some cad }

/-- WAITB (R143, R476): every earlier store is performed, the block that the previous WAITB on the cadence returned is
complete, and the core waits for the next one. Without a grant for the cadence it is illegal. -/
def execWaitb (c : CoreId) (rd : RIx) (cad : BitVec 4) (s : State) : Host.Outcome State Fault Refusal :=
  onDev (fun d => d.instr c (fun d =>
    let k := d.core c
    if SMap.get (fun _ => 0) d.kp.cads k.part / 2 ^ cad.toNat % 2 = 0 then .cause d ⟨0x01, cad.toNat, 0⟩
    else
      let d1 := d.sbFlush c
      let prev := SMap.get (fun _ => 0) k.lastBlk (256 + cad.toNat)
      let d2 := if prev ≠ 0 ∧ d1.takesPart k cad.toNat then d1.signalBlock k cad.toNat (prev - 1) else d1
      match d2.waitbReady (d2.core c) cad.toNat with
      | some b => .done (d2.modCore c (fun k => k.gotBlock cad.toNat rd b)) (waitRet k)
      | none => .sleep (d2.doze c (.waitb cad.toNat rd)))) s

/-- WAITB_RETURN (R143): the event of the awaited block has occurred for a core that dozes in WAITB. -/
def execWaitbReturn (c : CoreId) (s : State) : Host.Outcome State Fault Refusal :=
  onDev (fun d =>
    match (d.core c).run with
    | .waitb cad rd =>
      if d.power (coreUid c) ≤ 1 ∧ d.halted c.val = false then
        match d.waitbReady (d.core c) cad with
        | some b => (d.modCore c (fun k => k.gotBlock cad rd b)).wakeUp c
        | none => d
      else d
    | _ => d) s

/-! Synchronisation. -/

/-- SYNC.C (R158): every earlier write of its class has taken effect; staged writes are not advanced. -/
def execSyncC (c : CoreId) (s : State) : Host.Outcome State Fault Refusal :=
  onDev (fun d => d.instr c (fun d => .done (d.afterSyncSome c (d.core c).afterSync.length) (Ret.plain (d.core c) 2))) s

/-- IFENCE (R141, R241). -/
def execIfence (c : CoreId) (s : State) : Host.Outcome State Fault Refusal :=
  onDev (fun d => d.instr c (regOut c 2 (fun k => { k with fetchBuf := none }))) s

/-- A TLBI (R294, R295): S only. Older stores are visible to the walker first; what is not kept goes, with the whole walk cache
and every instruction fetched. -/
def tlbiInstr (c : CoreId) (keep : Core → TlbEntry → Bool) (s : State) : Host.Outcome State Fault Refusal :=
  onDev (fun d => d.instr c (fun d =>
    let k := d.core c
    if k.priv = .u then .cause d ⟨0x02, 0, 0⟩
    else .done ((d.sbFlush c).modCore c (fun x => { x.tlbKeep (keep k) with fetchBuf := none })) (Ret.plain k 3))) s

/-- Whether a cached leaf maps an address, whatever its ASID. -/
def TlbEntry.maps (t : TlbEntry) (va : Word) : Bool := va.toNat / pageSize t.level == t.va / pageSize t.level

/-- TLBI form 0 (R294). -/
def execTlbiAll (c : CoreId) (s : State) : Host.Outcome State Fault Refusal := tlbiInstr c (fun _ _ => false) s
/-- TLBI form 1 (R294). -/
def execTlbiAsid (c : CoreId) (ra : RIx) (s : State) : Host.Outcome State Fault Refusal :=
  tlbiInstr c (fun k t => t.g || t.asid != bits (k.rd ra) 0 12) s
/-- TLBI form 2 (R294). -/
def execTlbiVaAsid (c : CoreId) (rd ra : RIx) (s : State) : Host.Outcome State Fault Refusal :=
  tlbiInstr c (fun k t => !(t.maps (k.rd ra) && (t.g || t.asid == bits (k.rd rd) 0 12))) s
/-- TLBI form 3 (R294). -/
def execTlbiVa (c : CoreId) (ra : RIx) (s : State) : Host.Outcome State Fault Refusal :=
  tlbiInstr c (fun k t => !t.maps (k.rd ra)) s

/-! Events of a core. -/

/-- EVENT_ENTRY (R144, R242-R244): the eligible event of highest priority is taken at this boundary. With `inDivide` the core
is in the middle of the divide at PC, which is abandoned, unless an earlier execution of it was. DEDUCED, log entry 32. -/
def execEventEntry (c : CoreId) (inDivide : Bool) (s : State) : Host.Outcome State Fault Refusal :=
  onDev (fun d =>
    if d.canRun c then
      let d1 := d.stagedDue c
      let k := d1.core c
      match d1.eligible c with
      | none => d
      | some (v, p) =>
        if k.deferred.isSome then d
        else if inDivide then
          if k.pc ∈ k.abandoned then d
          else ((d1.countEvt c 0x0F 1).modCore c (fun k => { k with abandoned := k.pc :: k.abandoned })).takeEvent c v p
        else d1.takeEvent c v p
    else d) s

/-- STAGED_WRITE_APPLY (R154, R213): at the eighth boundary after the writing instruction. -/
def execStagedWriteApply (c : CoreId) (s : State) : Host.Outcome State Fault Refusal :=
  onDev (fun d => if d.canRun c then d.stagedDue c else d) s

/-- PREDICTOR_INIT_DONE (R226): the predictor's clearing walk ends. -/
def execPredictorInitDone (c : CoreId) (s : State) : Host.Outcome State Fault Refusal :=
  onDev (fun d => (d.setFlag (coreUid c) 0x4000 2 false).modCore c (fun k => { k with ras := [] })) s

/-- LS_INIT_DONE (R257): the local store's clearing walk ends; every word is zero with valid check bits. -/
def execLsInitDone (c : CoreId) (s : State) : Host.Outcome State Fault Refusal :=
  onDev (fun d => if d.flag (coreUid c) 0x4000 3 then (d.clearLocal c).setFlag (coreUid c) 0x4000 3 false else d) s

/-- PAGE_WALK (R230, R231, R271, R288): a walk for an address. For the oldest instruction it raises what it meets as a cause; for
one that may yet be squashed it raises nothing, is not made while NOSPEC_WALK is 1, and never happens in deterministic mode. A
leaf that needs no A or D update is cached. DEDUCED, log entry 33. -/
def execPageWalk (c : CoreId) (va : BitVec 48) (store oldest : Bool) (s : State) : Host.Outcome State Fault Refusal :=
  onDev (fun d =>
    let k := d.core c
    let kind : AKind := if store then .store else .load
    if d.canRun c = false ∨ bit k.sTbase 0 = false ∨ d.walkWaits c kind [⟨va.toNat, 1, 1⟩] ∨
        (oldest = false ∧ (k.dmode ∨ d.flag (coreUid c) 0x4008 1)) then d
    else match d.pageOf c va.toNat kind with
      | (d1, .ok _) => d1
      | (d1, .error x) => if oldest then d1.takeCause c x k.pc else d1) s

/-- AD_UPDATE (R276-R279): the compare-and-write of the leaf of an address, which the walk read as `seen`; a leaf that has changed
since is left, and the restart is counted. It is made only for an access that passes its checks. DEDUCED, log entry 33. -/
def execAdUpdate (c : CoreId) (va : BitVec 48) (store : Bool) (seen : Word) (s : State) : Host.Outcome State Fault Refusal :=
  onDev (fun d =>
    let kind : AKind := if store then .store else .load
    if d.canRun c = false ∨ d.walkWaits c kind [⟨va.toNat, 1, 1⟩] then d
    else match d.checkItems c kind none [⟨va.toNat, 1, 1⟩] with
    | (_, .error _) => d
    | (d1, .ok ps) => match ps.head?.bind (fun p => p.upd) with
      | none => d
      | some u =>
        if u.seen = seen then
          match d1.adWrite c u with
          | (d2, .ok _) => d2
          | (d2, .error x) => d2.takeCause c x (d2.core c).pc
        else d1.countEvt c 0x0B 1) s

end Sys2Proof.Machine
end

