-- ==== Sys2Proof/Machine/VecAlu.lean ====
section
/-!
DEFINITION. Element-wise vector operations, lane moves and status access (R180-R182, R198).
-/
namespace Sys2Proof.Machine

/-- A one-step instruction on two vector registers. -/
def vec2 (c : CoreId) (vd va vb : RIx) (f : BitVec 512 → BitVec 512 → BitVec 512) (s : State) : Host.Outcome State Fault Refusal :=
  onDev (fun d => d.instr c (regOut c 1 (fun k => k.vwr vd (f (k.vrd va) (k.vrd vb))))) s

/-- Lane by lane: the exact result `f`, modulo the lane width. -/
def lanes2 (half : Bool) (f : Int → Int → Int) (a b : BitVec 512) : BitVec 512 :=
  fromLanes (laneW half) (laneN half) (fun i => f (laneS a (laneW half) i) (laneS b (laneW half) i))

/-- Lane by lane: the exact result `f`, saturated to the lane range, which sets SAT (R181). -/
def vecSat (c : CoreId) (vd va vb : RIx) (half : Bool) (f : Int → Int → Int) (s : State) : Host.Outcome State Fault Refusal :=
  onDev (fun d => d.instr c (regOut c 1 (fun k =>
    let g (i : Nat) : Int := f (laneS (k.vrd va) (laneW half) i) (laneS (k.vrd vb) (laneW half) i)
    (k.vwr vd (fromLanes (laneW half) (laneN half) (fun i => clampS (laneW half) (g i)))).flag
      (satFlag (laneW half) (laneN half) g)))) s

/-- VADD (R180). -/
def execVadd (c : CoreId) (vd va vb : RIx) (half : Bool) (s : State) : Host.Outcome State Fault Refusal :=
  vec2 c vd va vb (lanes2 half (fun a b => a + b)) s
/-- VSUB (R180). -/
def execVsub (c : CoreId) (vd va vb : RIx) (half : Bool) (s : State) : Host.Outcome State Fault Refusal :=
  vec2 c vd va vb (lanes2 half (fun a b => a - b)) s
/-- VADDS (R180, R181). -/
def execVadds (c : CoreId) (vd va vb : RIx) (half : Bool) (s : State) : Host.Outcome State Fault Refusal :=
  vecSat c vd va vb half (fun a b => a + b) s
/-- VSUBS (R180, R181). -/
def execVsubs (c : CoreId) (vd va vb : RIx) (half : Bool) (s : State) : Host.Outcome State Fault Refusal :=
  vecSat c vd va vb half (fun a b => a - b) s
/-- VMIN (R180). -/
def execVmin (c : CoreId) (vd va vb : RIx) (half : Bool) (s : State) : Host.Outcome State Fault Refusal :=
  vec2 c vd va vb (lanes2 half (fun a b => if a < b then a else b)) s
/-- VMAX (R180). -/
def execVmax (c : CoreId) (vd va vb : RIx) (half : Bool) (s : State) : Host.Outcome State Fault Refusal :=
  vec2 c vd va vb (lanes2 half (fun a b => if a < b then b else a)) s
/-- VABS (R180, R181). -/
def execVabs (c : CoreId) (vd va : RIx) (half : Bool) (s : State) : Host.Outcome State Fault Refusal :=
  vecSat c vd va va half (fun a _ => if a < 0 then -a else a) s
/-- VNEG (R180, R181). -/
def execVneg (c : CoreId) (vd va : RIx) (half : Bool) (s : State) : Host.Outcome State Fault Refusal :=
  vecSat c vd va va half (fun a _ => -a) s
/-- VAND (R180). The result is the same for either lane width. -/
def execVand (c : CoreId) (vd va vb : RIx) (_half : Bool) (s : State) : Host.Outcome State Fault Refusal :=
  vec2 c vd va vb (fun a b => a &&& b) s
/-- VOR (R180). -/
def execVor (c : CoreId) (vd va vb : RIx) (_half : Bool) (s : State) : Host.Outcome State Fault Refusal :=
  vec2 c vd va vb (fun a b => a ||| b) s
/-- VXOR (R180). -/
def execVxor (c : CoreId) (vd va vb : RIx) (_half : Bool) (s : State) : Host.Outcome State Fault Refusal :=
  vec2 c vd va vb (fun a b => a ^^^ b) s

/-- A shift by an immediate below the lane width. -/
def vecShift (c : CoreId) (vd va : RIx) (n : BitVec 5) (half : Bool) (f : Nat → Nat → Int) (s : State) : Host.Outcome State Fault Refusal :=
  onDev (fun d => d.instrIf c (laneShiftOk n half) (regOut c 1 (fun k =>
    k.vwr vd (fromLanes (laneW half) (laneN half) (fun i => f (laneU (k.vrd va) (laneW half) i) n.toNat))))) s

/-- VSLLI (R180). -/
def execVslli (c : CoreId) (vd va : RIx) (n : BitVec 5) (half : Bool) (s : State) : Host.Outcome State Fault Refusal :=
  vecShift c vd va n half (fun a n => a * 2 ^ n) s
/-- VSRLI (R180). -/
def execVsrli (c : CoreId) (vd va : RIx) (n : BitVec 5) (half : Bool) (s : State) : Host.Outcome State Fault Refusal :=
  vecShift c vd va n half (fun a n => a / 2 ^ n) s
/-- VSRAI (R180). -/
def execVsrai (c : CoreId) (vd va : RIx) (n : BitVec 5) (half : Bool) (s : State) : Host.Outcome State Fault Refusal :=
  vecShift c vd va n half (fun a n => signedOf (laneW half) a / 2 ^ n) s
/-- VSLSI (R180, R181). -/
def execVslsi (c : CoreId) (vd va : RIx) (n : BitVec 5) (half : Bool) (s : State) : Host.Outcome State Fault Refusal :=
  onDev (fun d => d.instrIf c (laneShiftOk n half) (regOut c 1 (fun k =>
    let g (i : Nat) : Int := laneS (k.vrd va) (laneW half) i * 2 ^ n.toNat
    (k.vwr vd (fromLanes (laneW half) (laneN half) (fun i => clampS (laneW half) (g i)))).flag
      (satFlag (laneW half) (laneN half) g)))) s

/-- Leading sign count of a `w`-bit value (R182): the bits directly below the sign bit that equal it. -/
def signCount (w : Nat) (x : Int) : Nat :=
  let y := if x < 0 then (-x - 1).toNat else x.toNat
  w - 1 - (if y = 0 then 0 else Nat.log2 y + 1)

/-- VNORM (R180, R182). -/
def execVnorm (c : CoreId) (vd va : RIx) (half : Bool) (s : State) : Host.Outcome State Fault Refusal :=
  vec2 c vd va va (lanes2 half (fun a _ => (signCount (laneW half) a : Int))) s

/-- Lanes picked from two registers: `f i` names the register (the second when true) and the lane. -/
def pickLanes (half : Bool) (f : Nat → Bool × Nat) (a b : BitVec 512) : BitVec 512 :=
  fromLanes (laneW half) (laneN half) (fun i => laneS (if (f i).1 then b else a) (laneW half) (f i).2)

/-- VZIPL (R180). -/
def execVzipl (c : CoreId) (vd va vb : RIx) (half : Bool) (s : State) : Host.Outcome State Fault Refusal :=
  vec2 c vd va vb (pickLanes half (fun i => (i % 2 == 1, i / 2))) s
/-- VZIPH (R180). -/
def execVziph (c : CoreId) (vd va vb : RIx) (half : Bool) (s : State) : Host.Outcome State Fault Refusal :=
  vec2 c vd va vb (pickLanes half (fun i => (i % 2 == 1, laneN half / 2 + i / 2))) s
/-- VUZPE (R180). -/
def execVuzpe (c : CoreId) (vd va vb : RIx) (half : Bool) (s : State) : Host.Outcome State Fault Refusal :=
  vec2 c vd va vb (pickLanes half (fun i => (decide (laneN half / 2 ≤ i), 2 * (i % (laneN half / 2))))) s
/-- VUZPO (R180). -/
def execVuzpo (c : CoreId) (vd va vb : RIx) (half : Bool) (s : State) : Host.Outcome State Fault Refusal :=
  vec2 c vd va vb (pickLanes half (fun i => (decide (laneN half / 2 ≤ i), 2 * (i % (laneN half / 2)) + 1))) s

/-! Lane moves (R198). -/

/-- VSPLAT (R198). -/
def execVsplat (c : CoreId) (vd wa : RIx) (half : Bool) (s : State) : Host.Outcome State Fault Refusal :=
  onDev (fun d => d.instr c (regOut c 1 (fun k =>
    k.vwr vd (fromLanes (laneW half) (laneN half) (fun _ => ((k.rd wa).toNat : Int)))))) s
/-- VMVLW (R198): the lane index must be below the number of lanes. -/
def execVmvlw (c : CoreId) (wd va : RIx) (k : BitVec 5) (half : Bool) (s : State) : Host.Outcome State Fault Refusal :=
  onDev (fun d => d.instrIf c (laneIxOk k half) (regOut c 1 (fun x =>
    x.wr wd (BitVec.ofInt 64 (laneS (x.vrd va) (laneW half) k.toNat))))) s
/-- VINSW (R198). -/
def execVinsw (c : CoreId) (vd wa : RIx) (k : BitVec 5) (half : Bool) (s : State) : Host.Outcome State Fault Refusal :=
  onDev (fun d => d.instrIf c (laneIxOk k half) (regOut c 1 (fun x =>
    x.vwr vd (setLane (x.vrd vd) (laneW half) k.toNat ((x.rd wa).toNat : Int))))) s

/-! Status (R172, R198). -/

/-- VRSTAT (R198). -/
def execVrstat (c : CoreId) (wd : RIx) (s : State) : Host.Outcome State Fault Refusal :=
  onDev (fun d => d.instr c (regOut c 1 (fun k => k.wr wd (k.vstat.setWidth 64)))) s
/-- VWSTAT (R198). -/
def execVwstat (c : CoreId) (wa : RIx) (s : State) : Host.Outcome State Fault Refusal :=
  onDev (fun d => d.instr c (regOut c 1 (fun k => { k with vstat := (k.rd wa).setWidth 4 }))) s
/-- VCSTAT (R198). -/
def execVcstat (c : CoreId) (wd : RIx) (s : State) : Host.Outcome State Fault Refusal :=
  onDev (fun d => d.instr c (regOut c 1 (fun k => { k.wr wd (k.vstat.setWidth 64) with vstat := 0 }))) s

end Sys2Proof.Machine
end

