-- ==== Sys2Proof/Machine/VecMul.lean ====
section
/-!
DEFINITION. Vector multiply, accumulate, narrowing, biquad and gain ramp (R174-R176, R183-R197).
-/
namespace Sys2Proof.Machine

/-- sat96 (R176). -/
def sat96 (x : Int) : Int := clampS 96 x

/-- The product of lane `i` of va and lane `j` of vb (R175, R183). -/
def Core.prod (k : Core) (va vb : RIx) (ty : BitVec 3) (hi : Bool) (i j : Nat) : Int :=
  operandLane (k.vrd va) (prodHalfA ty.toNat) hi i * operandLane (k.vrd vb) (prodHalfB ty.toNat) hi j * 2 ^ prodShift ty.toNat

/-- An accumulator takes the exact values `f`, saturated to 96 bits, which sets ASAT. -/
def Core.accum (k : Core) (qd : QIx) (f : Nat → Int) : Core := (k.qwr qd (fromAcc (fun i => sat96 (f i)))).flag (asatFlag f)

/-- A multiply of two steps: `f` gives the exact new value of lane `i`. -/
def mulInstr (c : CoreId) (qd : QIx) (ty : BitVec 3) (hi : Bool) (f : Core → Nat → Int) (s : State) : Host.Outcome State Fault Refusal :=
  onDev (fun d => d.instrIf c (mulOk ty hi) (regOut c 2 (fun k => k.accum qd (f k)))) s

/-- VMUL (R183). Every product fits a lane. -/
def execVmul (c : CoreId) (qd : QIx) (va vb : RIx) (ty : BitVec 3) (hi : Bool) (s : State) : Host.Outcome State Fault Refusal :=
  mulInstr c qd ty hi (fun k i => k.prod va vb ty hi i i) s
/-- VMAC (R183). -/
def execVmac (c : CoreId) (qd : QIx) (va vb : RIx) (ty : BitVec 3) (hi : Bool) (s : State) : Host.Outcome State Fault Refusal :=
  mulInstr c qd ty hi (fun k i => accLane (k.qrd qd) i + k.prod va vb ty hi i i) s
/-- VMSU (R183). -/
def execVmsu (c : CoreId) (qd : QIx) (va vb : RIx) (ty : BitVec 3) (hi : Bool) (s : State) : Host.Outcome State Fault Refusal :=
  mulInstr c qd ty hi (fun k i => accLane (k.qrd qd) i - k.prod va vb ty hi i i) s
/-- VMACX (R183). -/
def execVmacx (c : CoreId) (qd : QIx) (va vb : RIx) (ty : BitVec 3) (hi : Bool) (n : BitVec 4) (s : State) : Host.Outcome State Fault Refusal :=
  mulInstr c qd ty hi (fun k i => accLane (k.qrd qd) i + k.prod va vb ty hi i n.toNat) s
/-- VMSUX (R183). -/
def execVmsux (c : CoreId) (qd : QIx) (va vb : RIx) (ty : BitVec 3) (hi : Bool) (n : BitVec 4) (s : State) : Host.Outcome State Fault Refusal :=
  mulInstr c qd ty hi (fun k i => accLane (k.qrd qd) i - k.prod va vb ty hi i n.toNat) s

/-- The exact sum of the 16 products (R184). -/
def Core.dot (k : Core) (va vb : RIx) (ty : BitVec 3) (hi : Bool) : Int :=
  (List.range 16).foldl (fun (a : Int) i => a + k.prod va vb ty hi i i) 0

/-- A dot product of three steps into lane `n`; `sign` is 1 or −1. -/
def dotInstr (c : CoreId) (qd : QIx) (va vb : RIx) (ty : BitVec 3) (hi : Bool) (n : BitVec 4) (sign : Int) (s : State) :
    Host.Outcome State Fault Refusal :=
  onDev (fun d => d.instrIf c (mulOk ty hi) (regOut c 3 (fun k =>
    k.accum qd (fun i => if i = n.toNat then accLane (k.qrd qd) i + sign * k.dot va vb ty hi else accLane (k.qrd qd) i)))) s

/-- VDOT (R183, R184). -/
def execVdot (c : CoreId) (qd : QIx) (va vb : RIx) (ty : BitVec 3) (hi : Bool) (n : BitVec 4) (s : State) : Host.Outcome State Fault Refusal :=
  dotInstr c qd va vb ty hi n 1 s
/-- VDOTN (R183, R184). -/
def execVdotn (c : CoreId) (qd : QIx) (va vb : RIx) (ty : BitVec 3) (hi : Bool) (n : BitVec 4) (s : State) : Host.Outcome State Fault Refusal :=
  dotInstr c qd va vb ty hi n (-1) s

/-! Accumulators (R186). -/

/-- VQCLR (R186). -/
def execVqclr (c : CoreId) (qd : QIx) (s : State) : Host.Outcome State Fault Refusal :=
  onDev (fun d => d.instr c (regOut c 1 (fun k => k.qwr qd 0))) s
/-- VQMOV (R186). -/
def execVqmov (c : CoreId) (qd qa : QIx) (s : State) : Host.Outcome State Fault Refusal :=
  onDev (fun d => d.instr c (regOut c 1 (fun k => k.qwr qd (k.qrd qa)))) s
/-- VQADD (R186). -/
def execVqadd (c : CoreId) (qd qa : QIx) (s : State) : Host.Outcome State Fault Refusal :=
  onDev (fun d => d.instr c (regOut c 1 (fun k => k.accum qd (fun i => accLane (k.qrd qd) i + accLane (k.qrd qa) i)))) s
/-- VQSUB (R186). -/
def execVqsub (c : CoreId) (qd qa : QIx) (s : State) : Host.Outcome State Fault Refusal :=
  onDev (fun d => d.instr c (regOut c 1 (fun k => k.accum qd (fun i => accLane (k.qrd qd) i - accLane (k.qrd qa) i)))) s

/-- widen(va_i, F) (R186). -/
def Core.widen (k : Core) (va : RIx) (fmt : BitVec 3) (hi : Bool) (i : Nat) : Int :=
  operandLane (k.vrd va) (fmtHalf fmt.toNat) hi i * 2 ^ fmtShift fmt.toNat

/-- VQWID (R186). -/
def execVqwid (c : CoreId) (qd : QIx) (va : RIx) (fmt : BitVec 3) (hi : Bool) (s : State) : Host.Outcome State Fault Refusal :=
  onDev (fun d => d.instrIf c (fmtHiOk fmt hi) (regOut c 1 (fun k => k.qwr qd (fromAcc (k.widen va fmt hi))))) s
/-- VQACC (R186). -/
def execVqacc (c : CoreId) (qd : QIx) (va : RIx) (fmt : BitVec 3) (hi : Bool) (s : State) : Host.Outcome State Fault Refusal :=
  onDev (fun d => d.instrIf c (fmtHiOk fmt hi) (regOut c 1 (fun k =>
    k.accum qd (fun i => accLane (k.qrd qd) i + k.widen va fmt hi i)))) s

/-- VNORMQ (R186): the minimum of the leading sign counts of the lanes. -/
def execVnormq (c : CoreId) (rd : RIx) (qa : QIx) (s : State) : Host.Outcome State Fault Refusal :=
  onDev (fun d => d.instr c (regOut c 2 (fun k =>
    k.wr rd (BitVec.ofNat 64 ((List.range 16).foldl (fun m i => min m (signCount 96 (accLane (k.qrd qa) i))) 95))))) s

/-! Narrowing (R187-R191). -/

/-- The shift of a narrowing: the signed field, or bits [6:0] of a general register (R187). -/
def Core.narrowSh (k : Core) (byReg : Bool) (sh : BitVec 7) : Int :=
  if byReg then signedOf 7 (bits (k.rd (sh.setWidth 5).toFin) 0 7) else sh.toInt

/-- The 16 lanes of an accumulator narrowed into a vector register: 16-bit lanes go to the half that H selects (R191). -/
def Core.narrowTo (k : Core) (vd : RIx) (qa : QIx) (fmt : Nat) (hi : Bool) (sh : Int) (rm : Nat) : Core :=
  let f (i : Nat) : Int := accLane (k.qrd qa) i
  let old := k.vrd vd
  let base := if hi then 16 else 0
  let new := if fmtHalf fmt then
      fromLanes 16 32 (fun i => if base ≤ i ∧ i < base + 16 then narrowLane (f (i - base)) fmt sh rm else laneS old 16 i)
    else fromLanes 32 16 (fun i => narrowLane (f i) fmt sh rm)
  (k.vwr vd new).flag (narrowAll f fmt sh rm)

/-- VNRW (R187, R188). -/
def execVnrw (c : CoreId) (vd : RIx) (qa : QIx) (fmt : BitVec 3) (hi : Bool) (rm : BitVec 2) (byReg : Bool) (sh : BitVec 7) (s : State) :
    Host.Outcome State Fault Refusal :=
  onDev (fun d => d.instrIf c (narrowOk fmt hi rm byReg sh) (regOut c 2 (fun k =>
    k.narrowTo vd qa fmt.toNat hi (k.narrowSh byReg sh) rm.toNat))) s
/-- VNRWC (R187): it then clears qa. -/
def execVnrwc (c : CoreId) (vd : RIx) (qa : QIx) (fmt : BitVec 3) (hi : Bool) (rm : BitVec 2) (byReg : Bool) (sh : BitVec 7) (s : State) :
    Host.Outcome State Fault Refusal :=
  onDev (fun d => d.instrIf c (narrowOk fmt hi rm byReg sh) (regOut c 2 (fun k =>
    (k.narrowTo vd qa fmt.toNat hi (k.narrowSh byReg sh) rm.toNat).qwr qa 0))) s

/-! Biquad and ramp (R192-R197). -/

/-- Register `r + n`, modulo 32. -/
def nextReg (r : RIx) (n : Nat) : RIx := ⟨(r.val + n) % 32, Nat.mod_lt _ (by decide)⟩

/-- The exact sum of one biquad section (R192, R194). -/
def Core.biqAcc (k : Core) (va vs vc : RIx) (i : Nat) : Int :=
  let l (r : RIx) : Int := laneS (k.vrd r) 32 i
  (l vc * l va + l (nextReg vc 1) * l vs + l (nextReg vc 2) * l (nextReg vs 1) - l (nextReg vc 3) * l (nextReg vs 2) -
    l (nextReg vc 4) * l (nextReg vs 3)) * 4

/-- VBIQ (R192-R195): six steps. -/
def execVbiq (c : CoreId) (vd va vs vc : RIx) (rm : BitVec 2) (s : State) : Host.Outcome State Fault Refusal :=
  onDev (fun d => d.instrIf c (biqOk vd vs vc rm) (regOut c 6 (fun k =>
    let y := fromLanes 32 16 (fun i => narrowLane (k.biqAcc va vs vc i) 0 0 rm.toNat)
    (((((k.vwr (nextReg vs 1) (k.vrd vs)).vwr vs (k.vrd va)).vwr (nextReg vs 3) (k.vrd (nextReg vs 2))).vwr (nextReg vs 2) y).vwr vd y).flag
      (narrowAll (k.biqAcc va vs vc) 0 0 rm.toNat)))) s

/-- The gain of a lane after an increment toward its target (R196, R197). -/
def rampGain (g d t : Int) : Int :=
  let m := if d < 0 then -d else d
  if g < t then min (g + m) t else if t < g then max (g - m) t else g

/-- VRAMP (R196, R197): three steps. The gain applied is the one before the update. -/
def execVramp (c : CoreId) (vd va vg : RIx) (rm : BitVec 2) (s : State) : Host.Outcome State Fault Refusal :=
  onDev (fun d => d.instrIf c (rampOk vd vg rm) (regOut c 3 (fun k =>
    let l (r : RIx) (i : Nat) : Int := laneS (k.vrd r) 32 i
    let f (i : Nat) : Int := l va i * l vg i * 4
    let y := fromLanes 32 16 (fun i => narrowLane (f i) 0 0 rm.toNat)
    let g := fromLanes 32 16 (fun i => rampGain (l vg i) (l (nextReg vg 1) i) (l (nextReg vg 2) i))
    ((k.vwr vg g).vwr vd y).flag (narrowAll f 0 0 rm.toNat)))) s

end Sys2Proof.Machine
end

