-- ==== Sys2Proof/Machine/VecMem.lean ====
section
/-!
DEFINITION. Vector loads and stores (R199-R204, R218).
-/
namespace Sys2Proof.Machine

/-- A contiguous vector access: its elements follow one another from an address. -/
def contiguous (va : Word) (n elem : Nat) : Item := ⟨va.toNat, n, elem⟩

/-- The elements of a strided access: element i at w[ra] + i × w[rb], modulo 2^64 (R199). DEDUCED, log entry 30. -/
def strided (base stride : Word) (half : Bool) : List Item :=
  (List.range (laneN half)).map (fun i => ⟨(base + BitVec.ofNat 64 i * stride).toNat, laneW half / 8, laneW half / 8⟩)

/-- A contiguous load: `put` takes the bytes. -/
def vecLoad (c : CoreId) (ra : RIx) (imm : BitVec 16) (n elem : Nat) (put : Core → Nat → Core) (s : State) : Host.Outcome State Fault Refusal :=
  onDev (fun d => d.instr c (fun d =>
    let k := d.core c
    let i := contiguous (k.rd ra + simm imm) n elem
    d.withAccess c .load none [i] (fun d ps =>
      match d.loadParts c false true (ps.flatMap (deviceChunks i)) with
      | (d1, .error x) => .cause d1 x
      | (d1, .ok bs) => .done (d1.modCore c (fun k => put k (leNat bs)))
          (Ret.access k ps (1 + ps.length) [(i.va, log2Size n, false)])))) s

/-- A contiguous store of `n` bytes that `get` gives. -/
def vecStore (c : CoreId) (ra : RIx) (imm : BitVec 16) (n elem : Nat) (get : Core → Nat) (s : State) : Host.Outcome State Fault Refusal :=
  onDev (fun d => d.instr c (fun d =>
    let k := d.core c
    let i := contiguous (k.rd ra + simm imm) n elem
    d.withAccess c .store none [i] (fun d ps =>
      match d.storeParts c false (ps.flatMap (deviceChunks i)) (natLe n (get k)) with
      | (d1, some x) => .cause d1 x
      | (d1, none) => .done d1 (Ret.access k ps (1 + ps.length) [(i.va, log2Size n, true)])))) s

/-- VLD (R199). -/
def execVld (c : CoreId) (v ra : RIx) (imm : BitVec 16) (s : State) : Host.Outcome State Fault Refusal :=
  vecLoad c ra imm 64 4 (fun k x => k.vwr v (BitVec.ofNat 512 x)) s
/-- VST (R199). -/
def execVst (c : CoreId) (v ra : RIx) (imm : BitVec 16) (s : State) : Host.Outcome State Fault Refusal :=
  vecStore c ra imm 64 4 (fun k => (k.vrd v).toNat) s
/-- VQLD (R199). -/
def execVqld (c : CoreId) (q : QIx) (ra : RIx) (imm : BitVec 16) (s : State) : Host.Outcome State Fault Refusal :=
  vecLoad c ra imm 192 12 (fun k x => k.qwr q (BitVec.ofNat 1536 x)) s
/-- VQST (R199). -/
def execVqst (c : CoreId) (q : QIx) (ra : RIx) (imm : BitVec 16) (s : State) : Host.Outcome State Fault Refusal :=
  vecStore c ra imm 192 12 (fun k => (k.qrd q).toNat) s

/-- The accesses of the elements of a strided instruction. DEDUCED, log entry 30. -/
def stridedAcc (is : List Item) (store : Bool) : List (Nat × Nat × Bool) := is.map (fun i => (i.va, log2Size i.n, store))

/-- VLDS (R199, R203): never served by forwarding (R236). -/
def execVlds (c : CoreId) (v ra rb : RIx) (half : Bool) (s : State) : Host.Outcome State Fault Refusal :=
  onDev (fun d => d.instr c (fun d =>
    let k := d.core c
    let is := strided (k.rd ra) (k.rd rb) half
    d.withAccess c .load none is (fun d ps =>
      match d.loadParts c false false ps with
      | (d1, .error x) => .cause d1 x
      | (d1, .ok bs) => .done (d1.modCore c (fun k => k.vwr v (BitVec.ofNat 512 (leNat bs))))
          (Ret.access k ps (1 + ps.length) (stridedAcc is false))))) s

/-- VSTS (R199, R203, R218): the store buffer is empty first, and the elements are written in ascending order. -/
def execVsts (c : CoreId) (v ra rb : RIx) (half : Bool) (s : State) : Host.Outcome State Fault Refusal :=
  onDev (fun d => d.instr c (fun d =>
    let k := d.core c
    let is := strided (k.rd ra) (k.rd rb) half
    d.withAccess c .store none is (fun d ps =>
      match (d.sbFlush c).storeParts c true ps (natLe 64 (k.vrd v).toNat) with
      | (d1, some x) => .cause d1 x
      | (d1, none) => .done d1 (Ret.access k ps (1 + ps.length) (stridedAcc is true))))) s

end Sys2Proof.Machine
end

