-- ==== Sys2Proof/Machine/Undefined.lean ====
section
/-!
DEFINITION. Words that encode no instruction (R108, R179).
-/
namespace Sys2Proof.Machine

/-- UNDEFINED_INSTRUCTION (R108): core `c` meets a word that encodes no instruction, and takes cause 0x01. A word that encodes one
is none of these. DEDUCED, log entry 34. -/
def execUndefinedInstruction (c : CoreId) (word : BitVec 32) (s : State) : Host.Outcome State Fault Refusal :=
  onDev (fun d => match decodeLys c word.toNat with
    | none => d.instr c illegal
    | some _ => d) s

end Sys2Proof.Machine
end

