-- ==== Sys2Proof/Machine/Dispatch.lean ====
section
/-!
DEFINITION. The dispatch: one arm per constructor of Instr, each a direct call of its meaning.
-/
namespace Sys2Proof.Machine

def exec (i : Instr) (s : State) : Host.Outcome State Fault Refusal :=
  match i with
  | .regWrite by_ pa size v => Sys2Proof.Machine.execRegWrite by_ pa size v s
  | .rcRead by_ pa peek => Sys2Proof.Machine.execRcRead by_ pa peek s
  | .transactionArrival q => Sys2Proof.Machine.execTransactionArrival q s
  | .fenceUnit u => Sys2Proof.Machine.execFenceUnit u s
  | .liftFence u => Sys2Proof.Machine.execLiftFence u s
  | .spareIn k => Sys2Proof.Machine.execSpareIn k s
  | .standbyTakeover u => Sys2Proof.Machine.execStandbyTakeover u s
  | .tempConversion die t sensor => Sys2Proof.Machine.execTempConversion die t sensor s
  | .paceWindow k pace => Sys2Proof.Machine.execPaceWindow k pace s
  | .governorEvaluation g inTime => Sys2Proof.Machine.execGovernorEvaluation g inTime s
  | .paceAlarmResponse g => Sys2Proof.Machine.execPaceAlarmResponse g s
  | .smbTimeout target cmd setPoint => Sys2Proof.Machine.execSmbTimeout target cmd setPoint s
  | .stallExpiry u p phase holds => Sys2Proof.Machine.execStallExpiry u p phase holds s
  | .stallFence u => Sys2Proof.Machine.execStallFence u s
  | .stallReopen u mask => Sys2Proof.Machine.execStallReopen u mask s
  | .stallBoundWrite u p v => Sys2Proof.Machine.execStallBoundWrite u p v s
  | .timeCounterLoad k => Sys2Proof.Machine.execTimeCounterLoad k s
  | .dtMark bad => Sys2Proof.Machine.execDtMark bad s
  | .tbLoadWrite v => Sys2Proof.Machine.execTbLoadWrite v s
  | .loadEnClear => Sys2Proof.Machine.execLoadEnClear s
  | .pllLockLoss => Sys2Proof.Machine.execPllLockLoss s
  | .tickLoss g => Sys2Proof.Machine.execTickLoss g s
  | .tickRestore g => Sys2Proof.Machine.execTickRestore g s
  | .ptpEventMessage off trim netOffset => Sys2Proof.Machine.execPtpEventMessage off trim netOffset s
  | .ppsEdge sub off => Sys2Proof.Machine.execPpsEdge sub off s
  | .holdoverEntry => Sys2Proof.Machine.execHoldoverEntry s
  | .undefinedInstruction c word => Sys2Proof.Machine.execUndefinedInstruction c word s
  | .add c rd ra rb => Sys2Proof.Machine.execAdd c rd ra rb s
  | .sub c rd ra rb => Sys2Proof.Machine.execSub c rd ra rb s
  | .and c rd ra rb => Sys2Proof.Machine.execAnd c rd ra rb s
  | .or c rd ra rb => Sys2Proof.Machine.execOr c rd ra rb s
  | .xor c rd ra rb => Sys2Proof.Machine.execXor c rd ra rb s
  | .andn c rd ra rb => Sys2Proof.Machine.execAndn c rd ra rb s
  | .sll c rd ra rb => Sys2Proof.Machine.execSll c rd ra rb s
  | .srl c rd ra rb => Sys2Proof.Machine.execSrl c rd ra rb s
  | .sra c rd ra rb => Sys2Proof.Machine.execSra c rd ra rb s
  | .ror c rd ra rb => Sys2Proof.Machine.execRor c rd ra rb s
  | .seq c rd ra rb => Sys2Proof.Machine.execSeq c rd ra rb s
  | .sne c rd ra rb => Sys2Proof.Machine.execSne c rd ra rb s
  | .slt c rd ra rb => Sys2Proof.Machine.execSlt c rd ra rb s
  | .sltu c rd ra rb => Sys2Proof.Machine.execSltu c rd ra rb s
  | .sle c rd ra rb => Sys2Proof.Machine.execSle c rd ra rb s
  | .sleu c rd ra rb => Sys2Proof.Machine.execSleu c rd ra rb s
  | .min c rd ra rb => Sys2Proof.Machine.execMin c rd ra rb s
  | .max c rd ra rb => Sys2Proof.Machine.execMax c rd ra rb s
  | .minu c rd ra rb => Sys2Proof.Machine.execMinu c rd ra rb s
  | .maxu c rd ra rb => Sys2Proof.Machine.execMaxu c rd ra rb s
  | .addv c rd ra rb => Sys2Proof.Machine.execAddv c rd ra rb s
  | .subv c rd ra rb => Sys2Proof.Machine.execSubv c rd ra rb s
  | .clz c rd ra => Sys2Proof.Machine.execClz c rd ra s
  | .ctz c rd ra => Sys2Proof.Machine.execCtz c rd ra s
  | .popc c rd ra => Sys2Proof.Machine.execPopc c rd ra s
  | .rev8 c rd ra => Sys2Proof.Machine.execRev8 c rd ra s
  | .addw c rd ra rb => Sys2Proof.Machine.execAddw c rd ra rb s
  | .subw c rd ra rb => Sys2Proof.Machine.execSubw c rd ra rb s
  | .sllw c rd ra rb => Sys2Proof.Machine.execSllw c rd ra rb s
  | .srlw c rd ra rb => Sys2Proof.Machine.execSrlw c rd ra rb s
  | .sraw c rd ra rb => Sys2Proof.Machine.execSraw c rd ra rb s
  | .addvw c rd ra rb => Sys2Proof.Machine.execAddvw c rd ra rb s
  | .subvw c rd ra rb => Sys2Proof.Machine.execSubvw c rd ra rb s
  | .mul c rd ra rb => Sys2Proof.Machine.execMul c rd ra rb s
  | .mulh c rd ra rb => Sys2Proof.Machine.execMulh c rd ra rb s
  | .mulhu c rd ra rb => Sys2Proof.Machine.execMulhu c rd ra rb s
  | .mulv c rd ra rb => Sys2Proof.Machine.execMulv c rd ra rb s
  | .div c rd ra rb => Sys2Proof.Machine.execDiv c rd ra rb s
  | .divu c rd ra rb => Sys2Proof.Machine.execDivu c rd ra rb s
  | .rem c rd ra rb => Sys2Proof.Machine.execRem c rd ra rb s
  | .remu c rd ra rb => Sys2Proof.Machine.execRemu c rd ra rb s
  | .mulw c rd ra rb => Sys2Proof.Machine.execMulw c rd ra rb s
  | .mulvw c rd ra rb => Sys2Proof.Machine.execMulvw c rd ra rb s
  | .divw c rd ra rb => Sys2Proof.Machine.execDivw c rd ra rb s
  | .divuw c rd ra rb => Sys2Proof.Machine.execDivuw c rd ra rb s
  | .remw c rd ra rb => Sys2Proof.Machine.execRemw c rd ra rb s
  | .remuw c rd ra rb => Sys2Proof.Machine.execRemuw c rd ra rb s
  | .sel c rd ra rb rc => Sys2Proof.Machine.execSel c rd ra rb rc s
  | .addi c rd ra imm => Sys2Proof.Machine.execAddi c rd ra imm s
  | .addiw c rd ra imm => Sys2Proof.Machine.execAddiw c rd ra imm s
  | .andi c rd ra imm => Sys2Proof.Machine.execAndi c rd ra imm s
  | .ori c rd ra imm => Sys2Proof.Machine.execOri c rd ra imm s
  | .xori c rd ra imm => Sys2Proof.Machine.execXori c rd ra imm s
  | .slti c rd ra imm => Sys2Proof.Machine.execSlti c rd ra imm s
  | .sltiu c rd ra imm => Sys2Proof.Machine.execSltiu c rd ra imm s
  | .slli c rd ra wide sh => Sys2Proof.Machine.execSlli c rd ra wide sh s
  | .srli c rd ra wide sh => Sys2Proof.Machine.execSrli c rd ra wide sh s
  | .srai c rd ra wide sh => Sys2Proof.Machine.execSrai c rd ra wide sh s
  | .rori c rd ra sh => Sys2Proof.Machine.execRori c rd ra sh s
  | .lui c rd imm => Sys2Proof.Machine.execLui c rd imm s
  | .auipc c rd imm => Sys2Proof.Machine.execAuipc c rd imm s
  | .ld8 c rd ra imm => Sys2Proof.Machine.execLd8 c rd ra imm s
  | .ld8u c rd ra imm => Sys2Proof.Machine.execLd8u c rd ra imm s
  | .ld16 c rd ra imm => Sys2Proof.Machine.execLd16 c rd ra imm s
  | .ld16u c rd ra imm => Sys2Proof.Machine.execLd16u c rd ra imm s
  | .ld32 c rd ra imm => Sys2Proof.Machine.execLd32 c rd ra imm s
  | .ld32u c rd ra imm => Sys2Proof.Machine.execLd32u c rd ra imm s
  | .ld64 c rd ra imm => Sys2Proof.Machine.execLd64 c rd ra imm s
  | .st8 c rs ra imm => Sys2Proof.Machine.execSt8 c rs ra imm s
  | .st16 c rs ra imm => Sys2Proof.Machine.execSt16 c rs ra imm s
  | .st32 c rs ra imm => Sys2Proof.Machine.execSt32 c rs ra imm s
  | .st64 c rs ra imm => Sys2Proof.Machine.execSt64 c rs ra imm s
  | .storeBufferDrain c n => Sys2Proof.Machine.execStoreBufferDrain c n s
  | .deferredStoreError c => Sys2Proof.Machine.execDeferredStoreError c s
  | .lres c rd ra ord => Sys2Proof.Machine.execLres c rd ra ord s
  | .lresw c rd ra ord => Sys2Proof.Machine.execLresw c rd ra ord s
  | .scom c rd ra rb ord => Sys2Proof.Machine.execScom c rd ra rb ord s
  | .scomw c rd ra rb ord => Sys2Proof.Machine.execScomw c rd ra rb ord s
  | .aadd c rd ra rb ord => Sys2Proof.Machine.execAadd c rd ra rb ord s
  | .aaddw c rd ra rb ord => Sys2Proof.Machine.execAaddw c rd ra rb ord s
  | .aswp c rd ra rb ord => Sys2Proof.Machine.execAswp c rd ra rb ord s
  | .aswpw c rd ra rb ord => Sys2Proof.Machine.execAswpw c rd ra rb ord s
  | .acas c rd ra rb rc ord => Sys2Proof.Machine.execAcas c rd ra rb rc ord s
  | .acasw c rd ra rb rc ord => Sys2Proof.Machine.execAcasw c rd ra rb rc ord s
  | .lda c rd ra => Sys2Proof.Machine.execLda c rd ra s
  | .ldaw c rd ra => Sys2Proof.Machine.execLdaw c rd ra s
  | .stl c ra rb => Sys2Proof.Machine.execStl c ra rb s
  | .stlw c ra rb => Sys2Proof.Machine.execStlw c ra rb s
  | .ldnt c rd ra => Sys2Proof.Machine.execLdnt c rd ra s
  | .fence c sets => Sys2Proof.Machine.execFence c sets s
  | .zline c ra imm => Sys2Proof.Machine.execZline c ra imm s
  | .clean c ra imm => Sys2Proof.Machine.execClean c ra imm s
  | .inv c ra imm => Sys2Proof.Machine.execInv c ra imm s
  | .flush c ra imm => Sys2Proof.Machine.execFlush c ra imm s
  | .pref c ra imm => Sys2Proof.Machine.execPref c ra imm s
  | .prefw c ra imm => Sys2Proof.Machine.execPrefw c ra imm s
  | .bez c ra off => Sys2Proof.Machine.execBez c ra off s
  | .bnz c ra off => Sys2Proof.Machine.execBnz c ra off s
  | .bltz c ra off => Sys2Proof.Machine.execBltz c ra off s
  | .bgez c ra off => Sys2Proof.Machine.execBgez c ra off s
  | .j c off => Sys2Proof.Machine.execJ c off s
  | .jal c off => Sys2Proof.Machine.execJal c off s
  | .jalr c rd ra imm => Sys2Proof.Machine.execJalr c rd ra imm s
  | .mfc c rd idx => Sys2Proof.Machine.execMfc c rd idx s
  | .mtc c ra idx => Sys2Proof.Machine.execMtc c ra idx s
  | .cset c rd ra idx => Sys2Proof.Machine.execCset c rd ra idx s
  | .cclr c rd ra idx => Sys2Proof.Machine.execCclr c rd ra idx s
  | .svc c idx => Sys2Proof.Machine.execSvc c idx s
  | .brk c idx => Sys2Proof.Machine.execBrk c idx s
  | .eret c => Sys2Proof.Machine.execEret c s
  | .waite c => Sys2Proof.Machine.execWaite c s
  | .waiteWake c => Sys2Proof.Machine.execWaiteWake c s
  | .waitb c rd cad => Sys2Proof.Machine.execWaitb c rd cad s
  | .waitbReturn c => Sys2Proof.Machine.execWaitbReturn c s
  | .syncC c => Sys2Proof.Machine.execSyncC c s
  | .ifence c => Sys2Proof.Machine.execIfence c s
  | .tlbiAll c => Sys2Proof.Machine.execTlbiAll c s
  | .tlbiAsid c ra => Sys2Proof.Machine.execTlbiAsid c ra s
  | .tlbiVaAsid c rd ra => Sys2Proof.Machine.execTlbiVaAsid c rd ra s
  | .tlbiVa c ra => Sys2Proof.Machine.execTlbiVa c ra s
  | .eventEntry c inDivide => Sys2Proof.Machine.execEventEntry c inDivide s
  | .stagedWriteApply c => Sys2Proof.Machine.execStagedWriteApply c s
  | .predictorInitDone c => Sys2Proof.Machine.execPredictorInitDone c s
  | .lsInitDone c => Sys2Proof.Machine.execLsInitDone c s
  | .vadd c vd va vb half => Sys2Proof.Machine.execVadd c vd va vb half s
  | .vsub c vd va vb half => Sys2Proof.Machine.execVsub c vd va vb half s
  | .vadds c vd va vb half => Sys2Proof.Machine.execVadds c vd va vb half s
  | .vsubs c vd va vb half => Sys2Proof.Machine.execVsubs c vd va vb half s
  | .vmin c vd va vb half => Sys2Proof.Machine.execVmin c vd va vb half s
  | .vmax c vd va vb half => Sys2Proof.Machine.execVmax c vd va vb half s
  | .vabs c vd va half => Sys2Proof.Machine.execVabs c vd va half s
  | .vneg c vd va half => Sys2Proof.Machine.execVneg c vd va half s
  | .vand c vd va vb half => Sys2Proof.Machine.execVand c vd va vb half s
  | .vor c vd va vb half => Sys2Proof.Machine.execVor c vd va vb half s
  | .vxor c vd va vb half => Sys2Proof.Machine.execVxor c vd va vb half s
  | .vslli c vd va n half => Sys2Proof.Machine.execVslli c vd va n half s
  | .vsrli c vd va n half => Sys2Proof.Machine.execVsrli c vd va n half s
  | .vsrai c vd va n half => Sys2Proof.Machine.execVsrai c vd va n half s
  | .vslsi c vd va n half => Sys2Proof.Machine.execVslsi c vd va n half s
  | .vnorm c vd va half => Sys2Proof.Machine.execVnorm c vd va half s
  | .vzipl c vd va vb half => Sys2Proof.Machine.execVzipl c vd va vb half s
  | .vziph c vd va vb half => Sys2Proof.Machine.execVziph c vd va vb half s
  | .vuzpe c vd va vb half => Sys2Proof.Machine.execVuzpe c vd va vb half s
  | .vuzpo c vd va vb half => Sys2Proof.Machine.execVuzpo c vd va vb half s
  | .vmul c qd va vb ty hi => Sys2Proof.Machine.execVmul c qd va vb ty hi s
  | .vmac c qd va vb ty hi => Sys2Proof.Machine.execVmac c qd va vb ty hi s
  | .vmsu c qd va vb ty hi => Sys2Proof.Machine.execVmsu c qd va vb ty hi s
  | .vmacx c qd va vb ty hi k => Sys2Proof.Machine.execVmacx c qd va vb ty hi k s
  | .vmsux c qd va vb ty hi k => Sys2Proof.Machine.execVmsux c qd va vb ty hi k s
  | .vdot c qd va vb ty hi k => Sys2Proof.Machine.execVdot c qd va vb ty hi k s
  | .vdotn c qd va vb ty hi k => Sys2Proof.Machine.execVdotn c qd va vb ty hi k s
  | .vbiq c vd va vs vc rm => Sys2Proof.Machine.execVbiq c vd va vs vc rm s
  | .vnrw c vd qa fmt hi rm byReg sh => Sys2Proof.Machine.execVnrw c vd qa fmt hi rm byReg sh s
  | .vnrwc c vd qa fmt hi rm byReg sh => Sys2Proof.Machine.execVnrwc c vd qa fmt hi rm byReg sh s
  | .vqclr c qd => Sys2Proof.Machine.execVqclr c qd s
  | .vqmov c qd qa => Sys2Proof.Machine.execVqmov c qd qa s
  | .vqadd c qd qa => Sys2Proof.Machine.execVqadd c qd qa s
  | .vqsub c qd qa => Sys2Proof.Machine.execVqsub c qd qa s
  | .vqwid c qd va fmt hi => Sys2Proof.Machine.execVqwid c qd va fmt hi s
  | .vqacc c qd va fmt hi => Sys2Proof.Machine.execVqacc c qd va fmt hi s
  | .vnormq c rd qa => Sys2Proof.Machine.execVnormq c rd qa s
  | .vramp c vd va vg rm => Sys2Proof.Machine.execVramp c vd va vg rm s
  | .vsplat c vd wa half => Sys2Proof.Machine.execVsplat c vd wa half s
  | .vmvlw c wd va k half => Sys2Proof.Machine.execVmvlw c wd va k half s
  | .vinsw c vd wa k half => Sys2Proof.Machine.execVinsw c vd wa k half s
  | .vrstat c wd => Sys2Proof.Machine.execVrstat c wd s
  | .vwstat c wa => Sys2Proof.Machine.execVwstat c wa s
  | .vcstat c wd => Sys2Proof.Machine.execVcstat c wd s
  | .vld c v ra imm => Sys2Proof.Machine.execVld c v ra imm s
  | .vst c v ra imm => Sys2Proof.Machine.execVst c v ra imm s
  | .vlds c v ra rb half => Sys2Proof.Machine.execVlds c v ra rb half s
  | .vsts c v ra rb half => Sys2Proof.Machine.execVsts c v ra rb half s
  | .vqld c q ra imm => Sys2Proof.Machine.execVqld c q ra imm s
  | .vqst c q ra imm => Sys2Proof.Machine.execVqst c q ra imm s
  | .pageWalk c va store oldest => Sys2Proof.Machine.execPageWalk c va store oldest s
  | .adUpdate c va store seen => Sys2Proof.Machine.execAdUpdate c va store seen s
  | .homeReadRequest c pa => Sys2Proof.Machine.execHomeReadRequest c pa s
  | .homeReadExclusive c pa => Sys2Proof.Machine.execHomeReadExclusive c pa s
  | .homeUpgrade c pa => Sys2Proof.Machine.execHomeUpgrade c pa s
  | .homeRecall c pa => Sys2Proof.Machine.execHomeRecall c pa s
  | .homeInvalidation c pa => Sys2Proof.Machine.execHomeInvalidation c pa s
  | .homeWriteback c pa => Sys2Proof.Machine.execHomeWriteback c pa s
  | .homeAtomic c pa wide wt op x y => Sys2Proof.Machine.execHomeAtomic c pa wide wt op x y s
  | .homeUncachedAccess by_ pa size w => Sys2Proof.Machine.execHomeUncachedAccess by_ pa size w s
  | .ageingPeriod u => Sys2Proof.Machine.execAgeingPeriod u s
  | .cacheInitDone u => Sys2Proof.Machine.execCacheInitDone u s
  | .cmCleanSetWay u set way => Sys2Proof.Machine.execCmCleanSetWay u set way s
  | .cmInvSetWay u set way => Sys2Proof.Machine.execCmInvSetWay u set way s
  | .cmFlushSetWay u set way => Sys2Proof.Machine.execCmFlushSetWay u set way s
  | .cmFlushAll u => Sys2Proof.Machine.execCmFlushAll u s
  | .cmCleanAll u => Sys2Proof.Machine.execCmCleanAll u s
  | .cmOpDone u failed => Sys2Proof.Machine.execCmOpDone u failed s
  | .spdRead ch supported cfg part0 part1 => Sys2Proof.Machine.execSpdRead ch supported cfg part0 part1 s
  | .storedTrainingLoad ch good => Sys2Proof.Machine.execStoredTrainingLoad ch good s
  | .fullTraining ch => Sys2Proof.Machine.execFullTraining ch s
  | .trainingRecordWrite ch => Sys2Proof.Machine.execTrainingRecordWrite ch s
  | .initBlockDone ch => Sys2Proof.Machine.execInitBlockDone ch s
  | .memRead pa stay => Sys2Proof.Machine.execMemRead pa stay s
  | .memWrite pa data stay => Sys2Proof.Machine.execMemWrite pa data stay s
  | .memPartialWrite pa bs => Sys2Proof.Machine.execMemPartialWrite pa bs s
  | .mirrorRebuildDone n => Sys2Proof.Machine.execMirrorRebuildDone n s
  | .spareGo ch cfg => Sys2Proof.Machine.execSpareGo ch cfg s
  | .spareCopyDone ch => Sys2Proof.Machine.execSpareCopyDone ch s
  | .patrolScrubRead ch => Sys2Proof.Machine.execPatrolScrubRead ch s
  | .refreshDue ch => Sys2Proof.Machine.execRefreshDue ch s
  | .refreshRatePoll ch half => Sys2Proof.Machine.execRefreshRatePoll ch half s
  | .openRowIdleClose ch bank => Sys2Proof.Machine.execOpenRowIdleClose ch bank s
  | .zqCalibration ch => Sys2Proof.Machine.execZqCalibration ch s
  | .eventEdge n => Sys2Proof.Machine.execEventEdge n s
  | .eventLevelChange n on => Sys2Proof.Machine.execEventLevelChange n on s
  | .eventEoi by_ n => Sys2Proof.Machine.execEventEoi by_ n s
  | .eventSourceSWrite c n v => Sys2Proof.Machine.execEventSourceSWrite c n v s
  | .eventMessageDelivery n => Sys2Proof.Machine.execEventMessageDelivery n s
  | .coreInboxDiscard by_ c k mask => Sys2Proof.Machine.execCoreInboxDiscard by_ c k mask s
  | .mbxMsgWrite by_ m v => Sys2Proof.Machine.execMbxMsgWrite by_ m v s
  | .mbxAckWrite by_ m v => Sys2Proof.Machine.execMbxAckWrite by_ m v s
  | .mbxBellSet by_ m v => Sys2Proof.Machine.execMbxBellSet by_ m v s
  | .mbxBellclr by_ m v => Sys2Proof.Machine.execMbxBellclr by_ m v s
  | .mbxOverrunClear by_ m => Sys2Proof.Machine.execMbxOverrunClear by_ m s
  | .replicaMailboxWrite c off v => Sys2Proof.Machine.execReplicaMailboxWrite c off v s
  | .svcInfo m => Sys2Proof.Machine.execSvcInfo m s
  | .svcNoticeRead m => Sys2Proof.Machine.execSvcNoticeRead m s
  | .svcLogRead m => Sys2Proof.Machine.execSvcLogRead m s
  | .svcLostClear m => Sys2Proof.Machine.execSvcLostClear m s
  | .restructureGrow m => Sys2Proof.Machine.execRestructureGrow m s
  | .restructureShrink m => Sys2Proof.Machine.execRestructureShrink m s
  | .restructureMove m p l a b c => Sys2Proof.Machine.execRestructureMove m p l a b c s
  | .restructureChangeTier m => Sys2Proof.Machine.execRestructureChangeTier m s
  | .svcPartReset m => Sys2Proof.Machine.execSvcPartReset m s
  | .harebellStart m => Sys2Proof.Machine.execHarebellStart m s
  | .harebellStop m => Sys2Proof.Machine.execHarebellStop m s
  | .harebellWriteSetting m => Sys2Proof.Machine.execHarebellWriteSetting m s
  | .svcMeasRead m => Sys2Proof.Machine.execSvcMeasRead m s
  | .powerNapSetting m => Sys2Proof.Machine.execPowerNapSetting m s
  | .powerHold m => Sys2Proof.Machine.execPowerHold m s
  | .powerDeepVote m => Sys2Proof.Machine.execPowerDeepVote m s
  | .powerPadRelease m => Sys2Proof.Machine.execPowerPadRelease m s
  | .svcUnknown m => Sys2Proof.Machine.execSvcUnknown m s
  | .cadenceEnable c cfg => Sys2Proof.Machine.execCadenceEnable c cfg s
  | .cadenceDisable c => Sys2Proof.Machine.execCadenceDisable c s
  | .blockStart c => Sys2Proof.Machine.execBlockStart c s
  | .blockEvent c => Sys2Proof.Machine.execBlockEvent c s
  | .captureClose se n => Sys2Proof.Machine.execCaptureClose se n s
  | .rxPacket se p occ => Sys2Proof.Machine.execRxPacket se p occ s
  | .streamLost se st => Sys2Proof.Machine.execStreamLost se st s
  | .pathLost se st pathB => Sys2Proof.Machine.execPathLost se st pathB s
  | .txPacket se st occ => Sys2Proof.Machine.execTxPacket se st occ s
  | .seReload se tx stream => Sys2Proof.Machine.execSeReload se tx stream s
  | .tdmFrameReceived p f syncOk => Sys2Proof.Machine.execTdmFrameReceived p f syncOk s
  | .tdmInputHandoff p f => Sys2Proof.Machine.execTdmInputHandoff p f s
  | .tdmOutputHandoff p => Sys2Proof.Machine.execTdmOutputHandoff p s
  | .tdmClockLost p => Sys2Proof.Machine.execTdmClockLost p s
  | .tdmClockRestored p => Sys2Proof.Machine.execTdmClockRestored p s
  | .hashReady se g r b => Sys2Proof.Machine.execHashReady se g r b s
  | .commitDeadline se g b => Sys2Proof.Machine.execCommitDeadline se g b s
  | .playBlock se g => Sys2Proof.Machine.execPlayBlock se g s
  | .liveWrite se g live => Sys2Proof.Machine.execLiveWrite se g live s
  | .replicaFence p => Sys2Proof.Machine.execReplicaFence p s
  | .rejoinStart p ix => Sys2Proof.Machine.execRejoinStart p ix s
  | .rejoinPassEnd p => Sys2Proof.Machine.execRejoinPassEnd p s
  | .rejoinRetry p => Sys2Proof.Machine.execRejoinRetry p s
  | .rejoinFinalDelta p => Sys2Proof.Machine.execRejoinFinalDelta p s
  | .rejoinDone p => Sys2Proof.Machine.execRejoinDone p s
  | .twinInputArrival se n k slot => Sys2Proof.Machine.execTwinInputArrival se n k slot s
  | .twinInputDeadline se n k => Sys2Proof.Machine.execTwinInputDeadline se n k s
  | .twinDecisionArrival se g b hash => Sys2Proof.Machine.execTwinDecisionArrival se g b hash s
  | .twinAction se g b => Sys2Proof.Machine.execTwinAction se g b s
  | .laneModeChange q v => Sys2Proof.Machine.execLaneModeChange q v s
  | .ethRxFrame p b fcsOk unc occ => Sys2Proof.Machine.execEthRxFrame p b fcsOk unc occ s
  | .ethTxFrame p => Sys2Proof.Machine.execEthTxFrame p s
  | .ringTailWrite by_ r tail => Sys2Proof.Machine.execRingTailWrite by_ r tail s
  | .ringDescriptorDone p tx => Sys2Proof.Machine.execRingDescriptorDone p tx s
  | .ringEnable by_ r base => Sys2Proof.Machine.execRingEnable by_ r base s
  | .ringDisable by_ r => Sys2Proof.Machine.execRingDisable by_ r s
  | .linkSignalDetect l => Sys2Proof.Machine.execLinkSignalDetect l s
  | .linkTrainingDone l speed width => Sys2Proof.Machine.execLinkTrainingDone l speed width s
  | .linkTrainingTimeout l => Sys2Proof.Machine.execLinkTrainingTimeout l s
  | .linkRetryTimer l => Sys2Proof.Machine.execLinkRetryTimer l s
  | .linkIdentification l peer width => Sys2Proof.Machine.execLinkIdentification l peer width s
  | .linkEchoReply l rtt turnaround => Sys2Proof.Machine.execLinkEchoReply l rtt turnaround s
  | .linkMeasurePeriod l rtt turnaround => Sys2Proof.Machine.execLinkMeasurePeriod l rtt turnaround s
  | .linkSignalLoss l => Sys2Proof.Machine.execLinkSignalLoss l s
  | .linkFrameTimeout l => Sys2Proof.Machine.execLinkFrameTimeout l s
  | .trelubFrameRx l b unc => Sys2Proof.Machine.execTrelubFrameRx l b unc s
  | .trelubNakRx l lseq => Sys2Proof.Machine.execTrelubNakRx l lseq s
  | .routeAdvertisement dst sec sum => Sys2Proof.Machine.execRouteAdvertisement dst sec sum s
  | .rmbxMsgWrite by_ r v => Sys2Proof.Machine.execRmbxMsgWrite by_ r v s
  | .proxyMessageRx src far r v => Sys2Proof.Machine.execProxyMessageRx src far r v s
  | .proxyAnswerRx r kind code => Sys2Proof.Machine.execProxyAnswerRx r kind code s
  | .proxyTimeout r => Sys2Proof.Machine.execProxyTimeout r s
  | .remoteMemoryRequest src idx off write => Sys2Proof.Machine.execRemoteMemoryRequest src idx off write s
  | .remoteTimeout pa => Sys2Proof.Machine.execRemoteTimeout pa s
  | .trelubTimeFrame value sub trim => Sys2Proof.Machine.execTrelubTimeFrame value sub trim s
  | .pcieConfigRead by_ g => Sys2Proof.Machine.execPcieConfigRead by_ g s
  | .pcieConfigWrite by_ g v => Sys2Proof.Machine.execPcieConfigWrite by_ g v s
  | .pcieApertureAccess by_ g off wide w => Sys2Proof.Machine.execPcieApertureAccess by_ g off wide w s
  | .pcieCompletion g status data => Sys2Proof.Machine.execPcieCompletion g status data s
  | .pcieCompletionTimeout g => Sys2Proof.Machine.execPcieCompletionTimeout g s
  | .pcieInboundAccess g pa len write => Sys2Proof.Machine.execPcieInboundAccess g pa len write s
  | .pcieMsi g data => Sys2Proof.Machine.execPcieMsi g data s
  | .pcieAerError g => Sys2Proof.Machine.execPcieAerError g s
  | .pcieLinkLoss g => Sys2Proof.Machine.execPcieLinkLoss g s
  | .imageLoad => Sys2Proof.Machine.execImageLoad s
  | .epochPostApplyDual mode part all values => Sys2Proof.Machine.execEpochPostApplyDual mode part all values s
  | .epochPostQuiesce mode part all => Sys2Proof.Machine.execEpochPostQuiesce mode part all s
  | .epochPostApplyStrict values => Sys2Proof.Machine.execEpochPostApplyStrict values s
  | .epochPostResume => Sys2Proof.Machine.execEpochPostResume s
  | .epochUnitAck u => Sys2Proof.Machine.execEpochUnitAck u s
  | .epochLaggardRetry die => Sys2Proof.Machine.execEpochLaggardRetry die s
  | .epochLaggardFence die => Sys2Proof.Machine.execEpochLaggardFence die s
  | .epochRetryResend u => Sys2Proof.Machine.execEpochRetryResend u s
  | .napEntry c => Sys2Proof.Machine.execNapEntry c s
  | .napExit c => Sys2Proof.Machine.execNapExit c s
  | .napEarlyWake c => Sys2Proof.Machine.execNapEarlyWake c s
  | .holdRequest k fail => Sys2Proof.Machine.execHoldRequest k fail s
  | .holdExitRequest k => Sys2Proof.Machine.execHoldExitRequest k s
  | .holdExitComplete k crcOk => Sys2Proof.Machine.execHoldExitComplete k crcOk s
  | .regionOffRequest g => Sys2Proof.Machine.execRegionOffRequest g s
  | .regionOnRequest g => Sys2Proof.Machine.execRegionOnRequest g s
  | .regionOnComplete g => Sys2Proof.Machine.execRegionOnComplete g s
  | .deepEnter => Sys2Proof.Machine.execDeepEnter s
  | .deepWake src => Sys2Proof.Machine.execDeepWake src s
  | .deepExitStep ok => Sys2Proof.Machine.execDeepExitStep ok s
  | .deepSentinelWake => Sys2Proof.Machine.execDeepSentinelWake s
  | .fastPathRehash areaOk => Sys2Proof.Machine.execFastPathRehash areaOk s
  | .padReleaseWrite mask => Sys2Proof.Machine.execPadReleaseWrite mask s
  | .supplyMonitorTrip r reset => Sys2Proof.Machine.execSupplyMonitorTrip r reset s
  | .reserveCharged => Sys2Proof.Machine.execReserveCharged s
  | .journalRecordWrite kind => Sys2Proof.Machine.execJournalRecordWrite kind s
  | .fuseProgram => Sys2Proof.Machine.execFuseProgram s
  | .powerOnReset => Sys2Proof.Machine.execPowerOnReset s
  | .warmReset byPin => Sys2Proof.Machine.execWarmReset byPin s
  | .dieReset die => Sys2Proof.Machine.execDieReset die s
  | .regionReset g => Sys2Proof.Machine.execRegionReset g s
  | .clusterReset k => Sys2Proof.Machine.execClusterReset k s
  | .partitionReset p => Sys2Proof.Machine.execPartitionReset p s
  | .coreReset c => Sys2Proof.Machine.execCoreReset c s
  | .debugDomainReset => Sys2Proof.Machine.execDebugDomainReset s
  | .pwrGoodRise => Sys2Proof.Machine.execPwrGoodRise s
  | .b0Start golden bench button dir => Sys2Proof.Machine.execB0Start golden bench button dir s
  | .copyEngineDone e bytes => Sys2Proof.Machine.execCopyEngineDone e bytes s
  | .stageHandover => Sys2Proof.Machine.execStageHandover s
  | .harebellArm => Sys2Proof.Machine.execHarebellArm s
  | .keyRecord e => Sys2Proof.Machine.execKeyRecord e s
  | .revocationRecord e => Sys2Proof.Machine.execRevocationRecord e s
  | .loaderCopy p => Sys2Proof.Machine.execLoaderCopy p s
  | .partitionRelease p => Sys2Proof.Machine.execPartitionRelease p s
  | .serviceButtonHeld => Sys2Proof.Machine.execServiceButtonHeld s
  | .slotSettled => Sys2Proof.Machine.execSlotSettled s
  | .errValidClear u => Sys2Proof.Machine.execErrValidClear u s
  | .harebellTriggerActive t on => Sys2Proof.Machine.execHarebellTriggerActive t on s
  | .harebellWinnerChange => Sys2Proof.Machine.execHarebellWinnerChange s
  | .harebellMessageEnd => Sys2Proof.Machine.execHarebellMessageEnd s
  | .hbCmdSet set msg6 => Sys2Proof.Machine.execHbCmdSet set msg6 s
  | .hbCmdClear clear set msg6 => Sys2Proof.Machine.execHbCmdClear clear set msg6 s
  | .harebellNetPacket => Sys2Proof.Machine.execHarebellNetPacket s
  | .sentinelPet by_ => Sys2Proof.Machine.execSentinelPet by_ s
  | .sentinelExpiry => Sys2Proof.Machine.execSentinelExpiry s
  | .watchdogPet by_ l => Sys2Proof.Machine.execWatchdogPet by_ l s
  | .watchdogConfigWrite by_ l v => Sys2Proof.Machine.execWatchdogConfigWrite by_ l v s
  | .watchdogFirstExpiry l => Sys2Proof.Machine.execWatchdogFirstExpiry l s
  | .watchdogSecondExpiry l => Sys2Proof.Machine.execWatchdogSecondExpiry l s
  | .errorLogEntry die => Sys2Proof.Machine.execErrorLogEntry die s
  | .elogInCommit v => Sys2Proof.Machine.execElogInCommit v s
  | .gpioFilterSettle n level => Sys2Proof.Machine.execGpioFilterSettle n level s
  | .alarmFilterSettle n level => Sys2Proof.Machine.execAlarmFilterSettle n level s
  | .crumbleUnlock u key => Sys2Proof.Machine.execCrumbleUnlock u key s
  | .crumbleAutoLock u => Sys2Proof.Machine.execCrumbleAutoLock u s
  | .rehearsalStart peerBusy => Sys2Proof.Machine.execRehearsalStart peerBusy s
  | .rehearsalPeerTimeout => Sys2Proof.Machine.execRehearsalPeerTimeout s
  | .rehearsalStep good => Sys2Proof.Machine.execRehearsalStep good s
  | .tapExtest => Sys2Proof.Machine.execTapExtest s
  | .tapSamplePreload => Sys2Proof.Machine.execTapSamplePreload s
  | .tapDbgacc => Sys2Proof.Machine.execTapDbgacc s
  | .tapBypass => Sys2Proof.Machine.execTapBypass s
  | .debugAccess write side pa v silent => Sys2Proof.Machine.execDebugAccess write side pa v silent s
  | .debugAccessTimeout => Sys2Proof.Machine.execDebugAccessTimeout s
  | .unlockNewchal v => Sys2Proof.Machine.execUnlockNewchal v s
  | .unlockGo part level => Sys2Proof.Machine.execUnlockGo part level s
  | .unlockVerified => Sys2Proof.Machine.execUnlockVerified s
  | .unlockRelock part => Sys2Proof.Machine.execUnlockRelock part s
  | .cdbgHalt c => Sys2Proof.Machine.execCdbgHalt c s
  | .haltTaken c inDivide => Sys2Proof.Machine.execHaltTaken c inDivide s
  | .haltUnresponsive c => Sys2Proof.Machine.execHaltUnresponsive c s
  | .cdbgResume c => Sys2Proof.Machine.execCdbgResume c s
  | .cdbgStep c => Sys2Proof.Machine.execCdbgStep c s
  | .cdbgStepRegion c => Sys2Proof.Machine.execCdbgStepRegion c s
  | .dbmGo ctl => Sys2Proof.Machine.execDbmGo ctl s
  | .dbmDone => Sys2Proof.Machine.execDbmDone s
  | .vtOutWrite c p v => Sys2Proof.Machine.execVtOutWrite c p v s
  | .vtOutEmpty p => Sys2Proof.Machine.execVtOutEmpty p s
  | .vtInWrite p v => Sys2Proof.Machine.execVtInWrite p v s
  | .vtInEmpty c p => Sys2Proof.Machine.execVtInEmpty c p s
  | .traceSourceConfig u v => Sys2Proof.Machine.execTraceSourceConfig u v s
  | .traceSessionConfig k v => Sys2Proof.Machine.execTraceSessionConfig k v s
  | .traceTrigger k cause src => Sys2Proof.Machine.execTraceTrigger k cause src s
  | .traceNow k => Sys2Proof.Machine.execTraceNow k s
  | .traceWindowClose k => Sys2Proof.Machine.execTraceWindowClose k s
  | .traceSessionStopped k => Sys2Proof.Machine.execTraceSessionStopped k s
  | .traceTimePacket f => Sys2Proof.Machine.execTraceTimePacket f s
  | .powerRemoval => Sys2Proof.Machine.execPowerRemoval s
  | .supplyMonitorRecovery r => Sys2Proof.Machine.execSupplyMonitorRecovery r s
  | .trelubTimeFrameSend l => Sys2Proof.Machine.execTrelubTimeFrameSend l s

end Sys2Proof.Machine
end

