-- ==== Sys2Proof/Machine/Pins.lean ====
section
/-!
DEFINITION. Output balls whose level follows from the registers (R803).
-/
namespace Sys2Proof.Machine

/-- Whether the record page of a unit holds a record of severity "device" with VALID set. -/
def Dev.deviceRecord (d : Dev) (uid : Nat) : Bool := d.flag uid 0x2000 0 && d.fld uid 0x2000 1 3 == 4

/-- ERR_OUT_N is driven low (R803): a die or hub control holds a valid record of severity device, or the sentinel has expired and
the keeper has not petted it since. DEDUCED, log entry 82. DEDUCED, log entry 85. -/
def Dev.errOutLow (d : Dev) : Bool := d.sv.expired || (List.range 6).any (fun die => d.deviceRecord (dieUid die))

/-- THERMTRIP_N is driven low (R803): TMAX of a die is at or above its CRIT. In Deep it stays released (Table 19-15).
DEDUCED, log entry 82. DEDUCED, log entry 85. -/
def Dev.thermtripLow (d : Dev) : Bool :=
  d.pw.deep != .deep && (List.range 6).any (fun die =>
    d.flag (dieUid die) 0x4000 12 &&
      decide (8 * (d.fld (dieUid die) 0x4008 8 8 : Int) ≤ tempOf (BitVec.ofNat 12 (d.fld (dieUid die) 0x4000 0 12))))

end Sys2Proof.Machine
end

