-- ==== Sys2Proof/Machine/Step.lean ====
section
/-!
DEFINITION. One step: the command at the front of the queue, or the passing of one tick when none waits.
-/
namespace Sys2Proof.Machine

/-- One step. With a command at the front of the queue, its effect with the queue's rest; with none, one tick of
8 ns of device time passes (R6, R57), in which the trace funnels send packets on. -/
def step (s : State) : Host.Outcome State Fault Refusal :=
  match s.pending with
  | [] => .next { s with dev := s.dev.tick }
  | c :: rest => exec c { s with pending := rest }

/-- The state with the command that a table word spells put at the front of the queue; unchanged where the word spells
none. No row of the table gives bits, so no word spells one. DESIGN CHOICE, log entry 5. -/
def State.withFetchWord (s : State) (nbits w : Nat) : State :=
  match decodeTableWord nbits w with
  | some c => { s with pending := c :: s.pending }
  | none => s

end Sys2Proof.Machine
end

