-- ==== Sys2Proof/Safety.lean ====
section
/-!
DEFINITION. The terms in which claims about the block are made: a command that completes, a core that is ready for an instruction,
and what an instruction leaves alone.
-/
namespace Sys2Proof.Machine

/-- A command completes in a state: `exec` answers a next state, the waiting commands are as before, and `P` holds of the device
then. -/
def Completes (i : Instr) (s : State) (P : Dev → Prop) : Prop :=
  ∃ t, exec i s = .next t ∧ t.pending = s.pending ∧ P t.dev

/-- No debugger and no trace acts on a core, and no write of the "after SYNC.C" class waits in it: it is not stepping (R751),
none of its comparators is enabled (R757), its trace source is off (R773). -/
structure Dev.Quiet (d : Dev) (c : CoreId) : Prop where
  step : SMap.get (fun _ => 0) d.db.stepping c = 0
  cmp : ∀ n, n < 4 → d.flag (coreUid c) (0xF108 + 16 * n) 0 = false
  trace : d.flag (coreUid c) 0xF800 0 = false
  sync : (d.core c).afterSync = []

/-- The instruction at the pc of core `c` runs: the boundary lets it pass and its fetch succeeds. `d` is the device then,
`n` the port steps of the fetch, and `far` says that the fetch left the local store. -/
structure State.Ready (s : State) (c : CoreId) (d : Dev) (n : Nat) (far : Bool) : Prop where
  go : s.dev.gate c = .go d n far
  quiet : d.Quiet c

/-- Every memory of the device holds what it held: SDRAM, retained memory, local stores, caches and homes, keeper and region
SRAM, and the error patterns in them. -/
structure Dev.SameMem (d t : Dev) : Prop where
  sdram : t.sdram = d.sdram
  sdramErr : t.sdramErr = d.sdramErr
  retained : t.retained = d.retained
  localStore : t.localStore = d.localStore
  localErr : t.localErr = d.localErr
  l2 : t.l2 = d.l2
  homes : t.homes = d.homes
  keeperSram : t.keeperSram = d.keeperSram
  regionSram : t.regionSram = d.regionSram

/-- The general registers, vector registers, accumulators and VSTAT of a core are as before. -/
structure Core.SameData (k k' : Core) : Prop where
  w : ∀ x, k'.rd x = k.rd x
  v : ∀ x, k'.vrd x = k.vrd x
  q : ∀ x, k'.qrd x = k.qrd x
  vstat : k'.vstat = k.vstat

/-- The status and system registers of a core are as before, but for ASTAT: CTR_CFG, S_STATUS, S_EPC, S_CAUSE, S_FADDR, S_EVBASE,
S_SCRATCH, S_TBASE, S_ASID and S_CORECTL. -/
structure Core.SameSys (k k' : Core) : Prop where
  ctrCfg : k'.ctrCfg = k.ctrCfg
  sStatus : k'.sStatus = k.sStatus
  sEpc : k'.sEpc = k.sEpc
  sCause : k'.sCause = k.sCause
  sFaddr : k'.sFaddr = k.sFaddr
  sEvbase : k'.sEvbase = k.sEvbase
  sScratch : k'.sScratch = k.sScratch
  sTbase : k'.sTbase = k.sTbase
  sAsid : k'.sAsid = k.sAsid
  sCorectl : k'.sCorectl = k.sCorectl

/-- What an instruction of core `c` that only uses its registers leaves alone: all memory, every other core, the store buffer,
the system registers of its core, device time, and every unit register but the pending bits of event sources (a counter
that wraps may raise one, R162). -/
structure Dev.Kept (d t : Dev) (c : CoreId) : Prop where
  mem : d.SameMem t
  others : ∀ x, x ≠ c → t.core x = d.core x
  sb : (t.core c).sb = (d.core c).sb
  sys : (d.core c).SameSys (t.core c)
  time : t.dt = d.dt
  unit : ∀ u o, u < evcUid 0 → o < 65536 → t.reg u o = d.reg u o

/-- The registers of core `c` when a cause or an event has been taken, before the fetch of its handler (R144): `e` is the device then
and `d` the device before, with no staged write pending. The code, the vector, the priority,
the information, the return address and the address of the handler follow. -/
structure Dev.Entered (d e : Dev) (c : CoreId) (cd vc pr inf : Nat) (ret entry : Word) : Prop where
  epc : (e.core c).sEpc = ret
  code : bits (e.core c).sCause 0 8 = cd
  vec : bits (e.core c).sCause 8 8 = vc
  pri : bits (e.core c).sCause 16 4 = pr
  staged : bit (e.core c).sCause 20 = false
  info : bits (e.core c).sCause 32 32 = inf
  ppriv : bits (e.core c).sStatus 2 2 = bits (d.core c).sStatus 0 2
  pee : bit (e.core c).sStatus 5 = bit (d.core c).sStatus 4
  pipl : bits (e.core c).sStatus 12 4 = bits (d.core c).sStatus 8 4
  priv : bits (e.core c).sStatus 0 2 = 1
  ee : bit (e.core c).sStatus 4 = false
  ipl : bits (e.core c).sStatus 8 4 = if cd = 0x20 then pr else bits (d.core c).sStatus 8 4
  pc : (e.core c).pc = entry
  faddr : causeAddr cd = false → (e.core c).sFaddr = (d.core c).sFaddr
  resv : SMap.get (fun _ => none) e.resv c = none
  mem : d.SameMem e
  others : ∀ x, x ≠ c → e.core x = d.core x

/-- An instruction of core `c` wrote w[rd]: only that register differs, w0 discards the write (R97), and the core goes on at the next
instruction. -/
def Dev.Wrote (d t : Dev) (c : CoreId) (rd : RIx) (v : Word) : Prop :=
  (∀ x, (t.core c).rd x = if x = rd ∧ rd ≠ 0 then v else (d.core c).rd x) ∧ (t.core c).pc = (d.core c).pc + 4 ∧
    (t.core c).v = (d.core c).v ∧ (t.core c).q = (d.core c).q ∧ (t.core c).vstat = (d.core c).vstat

/-- An instruction of core `c` goes on at the next instruction, with ASTAT and everything outside its data registers kept. -/
def Dev.Next (d t : Dev) (c : CoreId) : Prop :=
  (t.core c).pc = (d.core c).pc + 4 ∧ (t.core c).astat = (d.core c).astat ∧ d.Kept t c

/-- An instruction of core `c` set flags `fl` of VSTAT, and no data register differs but the vector registers that `may` names. -/
def Dev.OnlyV (d t : Dev) (c : CoreId) (may : RIx → Bool) (fl : BitVec 4) : Prop :=
  (∀ x, (t.core c).rd x = (d.core c).rd x) ∧ (∀ x, may x = false → (t.core c).vrd x = (d.core c).vrd x) ∧
    (∀ x, (t.core c).qrd x = (d.core c).qrd x) ∧ (t.core c).vstat = (d.core c).vstat ||| fl ∧ d.Next t c

/-- An instruction of core `c` set flags `fl` of VSTAT, and no data register differs but the accumulators that `may` names. -/
def Dev.OnlyQ (d t : Dev) (c : CoreId) (may : QIx → Bool) (fl : BitVec 4) : Prop :=
  (∀ x, (t.core c).rd x = (d.core c).rd x) ∧ (∀ x, (t.core c).vrd x = (d.core c).vrd x) ∧
    (∀ x, may x = false → (t.core c).qrd x = (d.core c).qrd x) ∧ (t.core c).vstat = (d.core c).vstat ||| fl ∧ d.Next t c

/-- An instruction of core `c` that began at device `d` has made its accesses, which left device `e`; it then wrote w[rd] only and
went on at the next instruction. With `rd` 0 it wrote nothing (R97). -/
def Dev.After (d e t : Dev) (c : CoreId) (rd : RIx) (v : Word) : Prop :=
  (∀ x, (t.core c).rd x = if x = rd ∧ rd ≠ 0 then v else (e.core c).rd x) ∧ (t.core c).v = (e.core c).v ∧ (t.core c).q = (e.core c).q ∧
    (t.core c).vstat = (e.core c).vstat ∧ (t.core c).pc = (d.core c).pc + 4 ∧ (t.core c).astat = (e.core c).astat ∧ e.Kept t c

/-- The load of core `c` for some items is permitted, and gives bytes: `e` is the device then. `old` marks fills that are inserted as
old, and `fwd` lets the store buffer serve it. -/
def Dev.Reads (d : Dev) (c : CoreId) (strict : Option Nat) (old fwd : Bool) (is : List Item) (e : Dev) (bs : List Byte) : Prop :=
  ∃ d1 ps, d.access c .load strict is = .ok d1 ps ∧ d1.loadParts c old fwd ps = (e, .ok bs) ∧ e.Quiet c

/-- The store of core `c` of bytes to some items is permitted, and made: `e` is the device then. -/
def Dev.Stores (d : Dev) (c : CoreId) (is : List Item) (bs : List Byte) (e : Dev) : Prop :=
  ∃ d1 ps, d.access c .store none is = .ok d1 ps ∧ d1.storeParts c false ps bs = (e, none) ∧ e.Quiet c

/-- An instruction takes a synchronous cause with its own address in S_EPC: S_FADDR is `faddr` where the cause has an address, and no
data register differs. -/
def Dev.Trapped (d t : Dev) (c : CoreId) (cd inf : Nat) (faddr : Word) : Prop :=
  ∃ e : Dev, t = e.entryFetch c ∧ d.Entered e c cd 0 0 inf (d.core c).pc (d.core c).sEvbase ∧ (d.core c).SameData (e.core c) ∧
    (causeAddr cd = true → (e.core c).sFaddr = faddr)

/-- A write of `v` by an agent to the register at `off` of unit `u` is performed (R7, R18, R26): its windows let it pass, no epoch holds it,
the unit answers, and the register, entry `i` of row `r`, takes it at the agent's level. -/
structure Dev.Takes (d : Dev) (a : Agent) (u off : Nat) (v : Word) (r : RegRow) (i : Nat) : Prop where
  window : d.reqWindow (d.regReq a (ctlAddr u off) 8 false (some v)) = true
  epoch : d.serveHow (d.regReq a (ctlAddr u off) 8 false (some v)) = 0
  inside : u < 0xC000 ∧ off < 0x10000 ∧ off % 8 = 0
  kind : unitKind u ≠ none ∧ (unitKind u = some .pcie → off < 0x4000)
  up : d.unitDown u ((d.regReq a (ctlAddr u off) 8 false (some v)).priv == .k) off = none
  row : regAt u off = some (r, i)
  may : d.regMay (d.regReq a (ctlAddr u off) 8 false (some v)) u r i off = true
  opened : d.crumbleShut u off true = false
  single : (d.regReq a (ctlAddr u off) 8 false (some v)).rep = .none

/-- A read by an agent of the register at `off` of unit `u` is performed (R7, R18, R26): as for a write. -/
structure Dev.Gives (d : Dev) (a : Agent) (u off : Nat) (peek : Bool) (r : RegRow) (i : Nat) : Prop where
  window : d.reqWindow (d.regReq a (ctlAddr u off) 8 peek none) = true
  epoch : d.serveHow (d.regReq a (ctlAddr u off) 8 peek none) = 0
  inside : u < 0xC000 ∧ off < 0x10000 ∧ off % 8 = 0
  kind : unitKind u ≠ none ∧ (unitKind u = some .pcie → off < 0x4000)
  up : d.unitDown u ((d.regReq a (ctlAddr u off) 8 peek none).priv == .k) off = none
  row : regAt u off = some (r, i)
  may : d.regMay (d.regReq a (ctlAddr u off) 8 peek none) u r i off = true
  opened : d.crumbleShut u off false = false
  single : (d.regReq a (ctlAddr u off) 8 peek none).rep = .none

/-- Registers whose write only stores their fields: no rule of their own replaces it. -/
def plainReg : RegName → Bool
  | .unitState | .stallStatus | .stallBound | .errStatus | .crbKey | .paceCfg | .tbLoad | .cadCfg | .cadPhase | .mcCfg | .cmOp
  | .seReload | .tdmCfg | .cgCfg | .lqCfg | .lqLink | .trlRt | .ringBase | .mgtRingBase | .rmbxMsg | .evSrc | .mbxMsg | .mbxStatus
  | .mbxAck | .mbxBell | .mbxBellmask | .mbxBellclr | .coreInbox | .wdogCfg | .wdogPet | .sentPet | .elogIn | .hbCmd | .alarmCfg | .padRelease
  | .deepCtl | .regHold | .epochPost | .pcieCfgd | .vtOut | .vtIn => false
  | _ => true

/-- A debug write of `v` to the debug register at `off` of unit `u` is permitted (R740, R743): bench mode, or a debug level in effect
that is high enough. -/
structure Dev.Debugs (d : Dev) (u off : Nat) (v : Word) (r : RegRow) (i : Nat) : Prop where
  inside : u < 0xC000 ∧ off < 0x10000 ∧ off % 8 = 0
  row : regAt u off = some (r, i)
  own : 0xF000 ≤ off ∨ (u = dbgUid ∧ 0x4000 ≤ off)
  level : d.bench = true ∨ ∃ x, d.dbgNeed u off r i (some v) = some x ∧ x.2 ≤ x.1

/-- The byte memories of the device are in their canonical form: addresses rise, and none is listed with the value that an unlisted
one reads as. -/
def Dev.memWf (d : Dev) : Bool :=
  SMap.wf zeroByte d.sdram && SMap.wf zeroByte d.retained && SMap.wf zeroByte d.localStore && SMap.wf zeroByte d.keeperSram &&
    SMap.wf zeroByte d.regionSram

/-- A keeper mailbox holds a message that names operation `code` (R418): its parameter block `b` is aligned and was read, which left
device `d1`, and its result area, where the operation has one, is the caller's. -/
structure Dev.Called (d : Dev) (m : Nat) (code : Nat) (results : Bool) (c : Call) (d1 : Dev) (b : List Byte) : Prop where
  message : d.callIn m = some c
  op : c.code = code
  aligned : c.pa % 64 = 0
  area : results = true → (d.callerAt c (d.readRep c) c.pa 64 true).isSome = true
  block : d.callRead c c.pa 64 = (d1, some b)

/-- The device has warm-reset with a cause (R651, R652, R717, R27): every core is at reset, the caches and local stores are empty, and SDRAM,
retained memory, device time and the non-volatile contents are as before; the sentinel restarts; PWR_CAUSE names the cause, and the units
that the journal records as fenced are fenced. -/
structure Dev.WarmStarted (d t : Dev) (cause : Nat) : Prop where
  cores : ∀ c, t.core c = Core.initial
  empty : t.localStore = [] ∧ t.l2 = [] ∧ t.homes = []
  kept : t.sdram = d.sdram ∧ t.retained = d.retained ∧ t.nv = d.nv ∧ t.dt = d.dt ∧ t.elog = d.elog
  sentinel : t.sv.sentAt = d.dt ∧ t.sv.sentMs = 10000
  phase : t.pw.deep = .run
  because : (∀ m, m ∈ d.nv.marks → m.1 < 12 ∧ m.2.1 < 8) → t.fld hbUid 0x9020 0 4 = cause
  journal : ∀ u, u ∈ d.nv.fenced → t.fenced u = true

/-- A unit's record page, which was free, holds a record of a code and severity (R699). -/
def Dev.Recorded (t : Dev) (u code sev : Nat) : Prop :=
  t.flag u 0x2000 0 = true ∧ t.fld u 0x2000 1 3 = sev ∧ t.fld u 0x2008 0 16 = code

/-- VSTAT as its four flags. -/
def vflags (sat inx zrn asat : Bool) : BitVec 4 :=
  BitVec.ofNat 4 (sat.toNat + 2 * inx.toNat + 4 * zrn.toNat + 8 * asat.toNat)

/-- An integer does not fit a `w`-bit two's complement number. -/
def misfit (w : Nat) (x : Int) : Bool := decide (x < -(2 ^ (w - 1))) || decide (2 ^ (w - 1) ≤ x)

/-- An integer limited to the range of a `w`-bit two's complement number. -/
def limit (w : Nat) (x : Int) : Int := max (-(2 ^ (w - 1))) (min (2 ^ (w - 1) - 1) x)

/-- x / 2^r rounded to an integer by a mode of Table 4-8: 0 to the nearest, on a tie the even one; 1 to the nearest, on a tie upward;
2 toward minus infinity. -/
def roundShift (x r : Int) (rm : Nat) : Int :=
  if r ≤ 0 then x * 2 ^ (-r).toNat
  else
    let m : Int := 2 ^ r.toNat
    let half : Int := 2 ^ (r.toNat - 1)
    match rm with
    | 0 => (x + half - 1 + x / m % 2) / m
    | 1 => (x + half) / m
    | _ => x / m

/-- The flags that the narrowing of 16 values with shift `r` to `w` bits sets (R188). -/
def narrowingFlags (w : Nat) (r : Int) (rm : Nat) (f : Nat → Int) : BitVec 4 :=
  vflags ((List.range 16).any (fun i => misfit w (roundShift (f i) r rm)))
    ((List.range 16).any (fun i => decide (0 < r) && f i % 2 ^ r.toNat != 0))
    ((List.range 16).any (fun i => f i != 0 && roundShift (f i) r rm == 0)) false

/-- The number that the 64-bit two's complement pattern of an integer is. -/
def sWord (x : Int) : Word := BitVec.ofInt 64 x

/-- A 32-bit result in a general register: sign-extended from bit 31. -/
def sWord32 (x : Int) : Word := (BitVec.ofInt 32 x).signExtend 64

/-- The signed value of the low 32 bits of a register. -/
def s32 (v : Word) : Int := (v.setWidth 32).toInt

/-- The unsigned value of the low 32 bits of a register. -/
def u32 (v : Word) : Nat := (v.setWidth 32).toNat

end Sys2Proof.Machine
end

