-- ==== Sys2Proof/Certificates/Slice0/Obligations.lean ====
section
/-!
DEFINITION. The statements for the provers.
-/
open Sys2Proof Sys2Proof.Machine

/-! The queue, the step and reset. -/

/-- A step takes the command at the front of the queue and runs it with the queue's rest. -/
def Obligations.StepRunsFront : Prop :=
  ∀ (c : Instr) (rest : List Instr) (s : State), step { s with pending := c :: rest } = exec c { s with pending := rest }

/-- With no command waiting a step lets 8 ns of device time pass (the model's choice of what an idle step is, log entry 3), and
leaves the queue and the non-volatile contents alone. -/
def Obligations.StepIdle : Prop :=
  ∀ s : State, s.pending = [] →
    ∃ t, step s = .next t ∧ t.pending = [] ∧ t.dev.dt = s.dev.dt + 8 ∧ t.dev.nv = s.dev.nv

/-- Every command answers a next state in every state and neither adds nor removes a waiting command, for nothing that the spec describes
stops the block; and the commands that wait are taken in the order in which they wait, each once: any number of steps run, and the queue is
what is left of it after so many commands. -/
def Obligations.QueueInOrder : Prop :=
  (∀ (c : Instr) (s : State), ∃ t, exec c s = .next t ∧ t.pending = s.pending) ∧
    ∀ (n : Nat) (s : State), ∃ t, Host.Core.run core n s = .next t ∧ t.pending = s.pending.drop n

/-- What reset leaves: in every core, its registers, status and run state (R99, R167) and an ERR_STATUS of 0; FUSE_KEYS
as R821 has it, with no key hash in a slot; an error log that is empty; no command waiting. That the memories are then in the model's canonical form is
the model's own clause (log entry 4). -/
def Obligations.ResetState : Prop :=
  let d := State.reset.dev
  State.reset.pending = [] ∧
    (∀ c x, (d.core c).rd x = 0 ∧ (d.core c).vrd x = 0) ∧ (∀ c x, (d.core c).qrd x = 0) ∧
    (∀ c, (d.core c).vstat = 0 ∧ (d.core c).astat = 0 ∧ (d.core c).pc = 0 ∧ (d.core c).run = .reset ∧
      bits (d.core c).sStatus 0 2 = 1 ∧ bits (d.core c).sStatus 2 2 = 1 ∧ bit (d.core c).sStatus 4 = false) ∧
    d.reg bootUid 0x4010 = 0x10000 ∧ (∀ n, SMap.get (fun _ => 0) d.nv.keyHash n = 0) ∧ d.elog = [] ∧
    (∀ c : CoreId, d.reg (coreUid c) 0x2000 = 0) ∧ d.memWf = true

/-! Decoding. -/

/-- Words written out from the encodings of chapters 3 and 4 decode to their instructions: the canonical no-operation and the
examples of R108 and R179, one word of each other format, and the two words that are permanently undefined. -/
def Obligations.DecodesWords : Prop :=
  ∀ c : CoreId,
    decodeLys c 0x04000000 = some (.add c 0 0 0) ∧
    decodeLys c 0x10A3FFF0 = some (.addi c 5 3 0xFFF0) ∧
    decodeLys c 0xC5152401 = some (.vmac c 2 5 9 1 false) ∧
    decodeLys c (0x28 * 2 ^ 26 + 4 * 2 ^ 12 + 0x123) = some (.svc c 0x123) ∧
    decodeLys c (0x20 * 2 ^ 26 + 7 * 2 ^ 21 + 0x1FFFFF) = some (.bez c 7 0x1FFFFF) ∧
    decodeLys c (0x25 * 2 ^ 26 + 0x3FFFFFF) = some (.jal c 0x3FFFFFF) ∧
    decodeLys c (0x1C * 2 ^ 26 + 1 * 2 ^ 21 + 2 * 2 ^ 16 + 3 * 2 ^ 11 + 0x32) = some (.scom c 1 2 3 3) ∧
    decodeLys c (0x0B * 2 ^ 26 + 1 * 2 ^ 21 + 2 * 2 ^ 16 + 0x100 + 0x80 + 31) = some (.srai c 1 2 true 31) ∧
    decodeLys c (0x33 * 2 ^ 26 + 3 * 2 ^ 21 + 1 * 2 ^ 18 + 2 * 2 ^ 12 + 0x7F * 2 ^ 4) = some (.vnrw c 3 1 0 false 2 false 0x7F) ∧
    decodeLys c 0 = none ∧ decodeLys c 0xFFFFFFFF = none

/-- Every word of an instruction spells that instruction, with every operand at every value: decoding an encoded well-formed
instruction gives it back. -/
def Obligations.DecodeOfEncode : Prop :=
  ∀ (i : Instr) (c : CoreId) (w : Nat), encodeLys i = some (c, w) → i.wf = true → w < 2 ^ 32 ∧ decodeLys c w = some i

/-- No two words spell one instruction, and no word with a bit that its format requires to be zero decodes: a 32-bit word that decodes
is the encoding of what it decodes to. -/
def Obligations.EncodeOfDecode : Prop :=
  ∀ (c : CoreId) (w : Nat) (i : Instr), w < 2 ^ 32 → decodeLys c w = some i → encodeLys i = some (c, w)

/-! Integer instructions (chapter 3). -/

/-- The two-register forms of R109 and R113 that set no flag: the value written, with w0 discarding it (R97), and the frame. -/
def Obligations.AluRegisterResults : Prop :=
  ∀ (s : State) (c : CoreId) (d : Dev) (n : Nat) (far : Bool), s.Ready c d n far → ∀ rd ra rb : RIx,
    let a := (d.core c).rd ra
    let b := (d.core c).rd rb
    ∀ p ∈ ([(.add c rd ra rb, sWord (a.toInt + b.toInt)), (.sub c rd ra rb, sWord (a.toInt - b.toInt)),
        (.and c rd ra rb, a &&& b), (.or c rd ra rb, a ||| b), (.xor c rd ra rb, a ^^^ b), (.andn c rd ra rb, a &&& ~~~b),
        (.sll c rd ra rb, BitVec.ofNat 64 (a.toNat * 2 ^ (b.toNat % 64))),
        (.srl c rd ra rb, BitVec.ofNat 64 (a.toNat / 2 ^ (b.toNat % 64))),
        (.sra c rd ra rb, sWord (a.toInt / 2 ^ (b.toNat % 64))),
        (.ror c rd ra rb, BitVec.ofNat 64 (a.toNat / 2 ^ (b.toNat % 64) + a.toNat * 2 ^ (64 - b.toNat % 64))),
        (.seq c rd ra rb, if a = b then 1 else 0), (.sne c rd ra rb, if a = b then 0 else 1),
        (.slt c rd ra rb, if a.toInt < b.toInt then 1 else 0), (.sltu c rd ra rb, if a.toNat < b.toNat then 1 else 0),
        (.sle c rd ra rb, if a.toInt ≤ b.toInt then 1 else 0), (.sleu c rd ra rb, if a.toNat ≤ b.toNat then 1 else 0),
        (.min c rd ra rb, if a.toInt ≤ b.toInt then a else b), (.max c rd ra rb, if a.toInt ≤ b.toInt then b else a),
        (.minu c rd ra rb, if a.toNat ≤ b.toNat then a else b), (.maxu c rd ra rb, if a.toNat ≤ b.toNat then b else a),
        (.addw c rd ra rb, sWord32 (s32 a + s32 b)), (.subw c rd ra rb, sWord32 (s32 a - s32 b)),
        (.sllw c rd ra rb, sWord32 ((u32 a * 2 ^ (b.toNat % 32) : Nat) : Int)),
        (.srlw c rd ra rb, sWord32 ((u32 a / 2 ^ (b.toNat % 32) : Nat) : Int)),
        (.sraw c rd ra rb, sWord32 (s32 a / 2 ^ (b.toNat % 32))),
        (.mul c rd ra rb, sWord (a.toInt * b.toInt)), (.mulh c rd ra rb, sWord (a.toInt * b.toInt / 2 ^ 64)),
        (.mulhu c rd ra rb, BitVec.ofNat 64 (a.toNat * b.toNat / 2 ^ 64)),
        (.mulw c rd ra rb, sWord32 (s32 a * s32 b))] : List (Instr × Word)),
      Completes p.1 s (fun t => d.Wrote t c rd p.2 ∧ d.Kept t c ∧ (t.core c).astat = (d.core c).astat)

/-- The single-source forms of R109: CLZ, CTZ, POPC and REV8. -/
def Obligations.AluUnaryResults : Prop :=
  ∀ (s : State) (c : CoreId) (d : Dev) (n : Nat) (far : Bool), s.Ready c d n far → ∀ rd ra : RIx,
    let a := (d.core c).rd ra
    let done (i : Instr) (v : Word) : Prop :=
      Completes i s (fun t => d.Wrote t c rd v ∧ d.Kept t c ∧ (t.core c).astat = (d.core c).astat)
    done (.clz c rd ra) (BitVec.ofNat 64 (if a = 0 then 64 else 63 - Nat.log2 a.toNat)) ∧
    (∃ k : Nat, done (.ctz c rd ra) (BitVec.ofNat 64 k) ∧ k ≤ 64 ∧ (∀ j, j < k → a.getLsbD j = false) ∧ (k < 64 → a.getLsbD k = true)) ∧
    done (.popc c rd ra) (BitVec.ofNat 64 ((List.range 64).countP (fun i => a.getLsbD i))) ∧
    (∃ v : Word, done (.rev8 c rd ra) v ∧ ∀ i, i < 8 → v.extractLsb' (8 * i) 8 = a.extractLsb' (8 * (7 - i)) 8)

/-- The immediate forms of R110 and R111, LUI, AUIPC and SEL (R118). The immediate is sign-extended but in ANDI, ORI and XORI (R106);
a shift with W = 1 acts on the low 32 bits. -/
def Obligations.AluImmediateResults : Prop :=
  ∀ (s : State) (c : CoreId) (d : Dev) (n : Nat) (far : Bool), s.Ready c d n far →
    ∀ (rd ra rb rc : RIx) (imm : BitVec 16) (up : BitVec 21) (sh : BitVec 6) (sh5 : BitVec 5),
    let k := d.core c
    let a := k.rd ra
    ∀ p ∈ ([(.addi c rd ra imm, sWord (a.toInt + imm.toInt)), (.addiw c rd ra imm, sWord32 (a.toInt + imm.toInt)),
        (.andi c rd ra imm, BitVec.ofNat 64 (a.toNat &&& imm.toNat)), (.ori c rd ra imm, BitVec.ofNat 64 (a.toNat ||| imm.toNat)),
        (.xori c rd ra imm, BitVec.ofNat 64 (a.toNat ^^^ imm.toNat)),
        (.slti c rd ra imm, if a.toInt < imm.toInt then 1 else 0),
        (.sltiu c rd ra imm, if a.toNat < (sWord imm.toInt).toNat then 1 else 0),
        (.slli c rd ra false sh, BitVec.ofNat 64 (a.toNat * 2 ^ sh.toNat)),
        (.srli c rd ra false sh, BitVec.ofNat 64 (a.toNat / 2 ^ sh.toNat)),
        (.srai c rd ra false sh, sWord (a.toInt / 2 ^ sh.toNat)),
        (.slli c rd ra true (sh5.setWidth 6), sWord32 ((u32 a * 2 ^ sh5.toNat : Nat) : Int)),
        (.srli c rd ra true (sh5.setWidth 6), sWord32 ((u32 a / 2 ^ sh5.toNat : Nat) : Int)),
        (.srai c rd ra true (sh5.setWidth 6), sWord32 (s32 a / 2 ^ sh5.toNat)),
        (.rori c rd ra sh, BitVec.ofNat 64 (a.toNat / 2 ^ sh.toNat + a.toNat * 2 ^ (64 - sh.toNat))),
        (.lui c rd up, sWord (up.toInt * 4096)), (.auipc c rd up, sWord (k.pc.toInt + up.toInt * 4096)),
        (.sel c rd ra rb rc, if k.rd rc = 0 then k.rd rb else a)] : List (Instr × Word)),
      Completes p.1 s (fun t => d.Wrote t c rd p.2 ∧ d.Kept t c ∧ (t.core c).astat = k.astat)

/-- The flags of an instruction in ASTAT: DZ and OV are set and never cleared (R112), and every other bit is as it was. -/
def Obligations.CheckedResults : Prop :=
  ∀ (s : State) (c : CoreId) (d : Dev) (n : Nat) (far : Bool), s.Ready c d n far → ∀ rd ra rb : RIx,
    let k := d.core c
    let a := k.rd ra
    let b := k.rd rb
    let out (w : Nat) (x : Int) : Bool := decide (x < -(2 ^ (w - 1))) || decide (2 ^ (w - 1) ≤ x)
    ∀ p ∈ ([(.addv c rd ra rb, sWord (a.toInt + b.toInt), out 64 (a.toInt + b.toInt)),
        (.subv c rd ra rb, sWord (a.toInt - b.toInt), out 64 (a.toInt - b.toInt)),
        (.mulv c rd ra rb, sWord (a.toInt * b.toInt), out 64 (a.toInt * b.toInt)),
        (.addvw c rd ra rb, sWord32 (s32 a + s32 b), out 32 (s32 a + s32 b)),
        (.subvw c rd ra rb, sWord32 (s32 a - s32 b), out 32 (s32 a - s32 b)),
        (.mulvw c rd ra rb, sWord32 (s32 a * s32 b), out 32 (s32 a * s32 b))] : List (Instr × Word × Bool)),
      (p.2.2 = true → bit k.astat 9 = false) →
      Completes p.1 s (fun t => d.Wrote t c rd p.2.1 ∧ d.Kept t c ∧
        ∀ i, bit (t.core c).astat i = (bit k.astat i || (p.2.2 && i == 1)))

/-- The divides of R113 and R115, for every operand: a zero divisor gives quotient 0 and remainder a and sets DZ; the signed minimum
divided by −1 gives a and 0 and sets OV; otherwise the quotient is truncated toward zero. Traps are off here. -/
def Obligations.DivideResults : Prop :=
  ∀ (s : State) (c : CoreId) (d : Dev) (n : Nat) (far : Bool), s.Ready c d n far → ∀ rd ra rb : RIx,
    let k := d.core c
    let a := k.rd ra
    let b := k.rd rb
    let q (w : Nat) (x y : Int) : Int := if y = 0 then 0 else if x = -(2 ^ (w - 1)) ∧ y = -1 then x else x.tdiv y
    let r (w : Nat) (x y : Int) : Int := if y = 0 then x else if x = -(2 ^ (w - 1)) ∧ y = -1 then 0 else x.tmod y
    let qu (x y : Nat) : Int := if y = 0 then 0 else ((x / y : Nat) : Int)
    let ru (x y : Nat) : Int := if y = 0 then (x : Int) else ((x % y : Nat) : Int)
    let ovf (w : Nat) (x y : Int) : Bool := decide (x = -(2 ^ (w - 1))) && decide (y = -1)
    ∀ p ∈ ([(.div c rd ra rb, sWord (q 64 a.toInt b.toInt), b == 0, ovf 64 a.toInt b.toInt),
        (.rem c rd ra rb, sWord (r 64 a.toInt b.toInt), b == 0, ovf 64 a.toInt b.toInt),
        (.divu c rd ra rb, sWord (qu a.toNat b.toNat), b == 0, false), (.remu c rd ra rb, sWord (ru a.toNat b.toNat), b == 0, false),
        (.divw c rd ra rb, sWord32 (q 32 (s32 a) (s32 b)), u32 b == 0, ovf 32 (s32 a) (s32 b)),
        (.remw c rd ra rb, sWord32 (r 32 (s32 a) (s32 b)), u32 b == 0, ovf 32 (s32 a) (s32 b)),
        (.divuw c rd ra rb, sWord32 (qu (u32 a) (u32 b)), u32 b == 0, false),
        (.remuw c rd ra rb, sWord32 (ru (u32 a) (u32 b)), u32 b == 0, false)] : List (Instr × Word × Bool × Bool)),
      (p.2.2.1 = true → bit k.astat 8 = false) → (p.2.2.2 = true → bit k.astat 9 = false) →
      Completes p.1 s (fun t => d.Wrote t c rd p.2.1 ∧ d.Kept t c ∧
        ∀ i, bit (t.core c).astat i = (bit k.astat i || (p.2.2.1 && i == 0) || (p.2.2.2 && i == 1)))

/-- The traps of R117: with the trap enabled the instruction completes and writes its result, and the core then takes cause 0x05 or
0x06 with S_EPC at the next instruction. -/
def Obligations.ArithmeticTraps : Prop :=
  ∀ (s : State) (c : CoreId) (d : Dev) (n : Nat) (far : Bool), s.Ready c d n far → (d.core c).staged = [] → ∀ rd ra rb : RIx,
    let k := d.core c
    let a := k.rd ra
    let b := k.rd rb
    let trapped (i : Instr) (code : Nat) (v : Word) : Prop :=
      Completes i s (fun t => ∃ e : Dev, t = e.entryFetch c ∧ d.Entered e c code 0 0 0 (k.pc + 4) k.sEvbase ∧
        ∀ x, (e.core c).rd x = if x = rd ∧ rd ≠ 0 then v else k.rd x)
    (b = 0 → bit k.astat 8 = true → trapped (.div c rd ra rb) 5 0 ∧ trapped (.divu c rd ra rb) 5 0 ∧
      trapped (.rem c rd ra rb) 5 a ∧ trapped (.remu c rd ra rb) 5 a) ∧
    (b.setWidth 32 = 0#32 → bit k.astat 8 = true → trapped (.divw c rd ra rb) 5 0 ∧ trapped (.divuw c rd ra rb) 5 0 ∧
      trapped (.remw c rd ra rb) 5 (sWord (s32 a)) ∧ trapped (.remuw c rd ra rb) 5 (sWord (s32 a))) ∧
    (bit k.astat 9 = true →
      (a.toInt = -2 ^ 63 ∧ b.toInt = -1 → trapped (.div c rd ra rb) 6 a ∧ trapped (.rem c rd ra rb) 6 0) ∧
      (s32 a = -2 ^ 31 ∧ s32 b = -1 → trapped (.divw c rd ra rb) 6 (sWord (s32 a)) ∧ trapped (.remw c rd ra rb) 6 0) ∧
      (2 ^ 31 ≤ s32 a + s32 b ∨ s32 a + s32 b < -2 ^ 31 → trapped (.addvw c rd ra rb) 6 (sWord32 (s32 a + s32 b))) ∧
      (2 ^ 31 ≤ s32 a - s32 b ∨ s32 a - s32 b < -2 ^ 31 → trapped (.subvw c rd ra rb) 6 (sWord32 (s32 a - s32 b))) ∧
      (2 ^ 31 ≤ s32 a * s32 b ∨ s32 a * s32 b < -2 ^ 31 → trapped (.mulvw c rd ra rb) 6 (sWord32 (s32 a * s32 b))) ∧
      (2 ^ 63 ≤ a.toInt + b.toInt ∨ a.toInt + b.toInt < -2 ^ 63 → trapped (.addv c rd ra rb) 6 (a + b)) ∧
      (2 ^ 63 ≤ a.toInt - b.toInt ∨ a.toInt - b.toInt < -2 ^ 63 → trapped (.subv c rd ra rb) 6 (a - b)) ∧
      (2 ^ 63 ≤ a.toInt * b.toInt ∨ a.toInt * b.toInt < -2 ^ 63 → trapped (.mulv c rd ra rb) 6 (a * b)))

/-- The conditional branches (R119): to PC + 4 × off21 when the condition holds, to the next instruction otherwise; no register changes.
A target has its bits [1:0] clear, which an aligned pc gives of itself. -/
def Obligations.ConditionalBranches : Prop :=
  ∀ (s : State) (c : CoreId) (d : Dev) (n : Nat) (far : Bool), s.Ready c d n far → ∀ (ra : RIx) (off : BitVec 21),
    let k := d.core c
    let a := k.rd ra
    ∀ p ∈ ([(.bez c ra off, decide (a = 0)), (.bnz c ra off, decide (a ≠ 0)), (.bltz c ra off, decide (a.toInt < 0)),
        (.bgez c ra off, decide (0 ≤ a.toInt))] : List (Instr × Bool)),
      Completes p.1 s (fun t => d.Kept t c ∧ k.SameData (t.core c) ∧ (t.core c).astat = k.astat ∧
        (t.core c).pc = if p.2 then BitVec.ofNat 64 ((k.pc + sWord (4 * off.toInt)).toNat / 4 * 4) else k.pc + 4)

/-- The jumps (R120): JAL writes PC + 4 to w31, JALR to w[rd] after it has read w[ra]; the target has bits [1:0] clear. -/
def Obligations.Jumps : Prop :=
  ∀ (s : State) (c : CoreId) (d : Dev) (n : Nat) (far : Bool), s.Ready c d n far →
    ∀ (rd ra : RIx) (off : BitVec 26) (imm : BitVec 16),
    let k := d.core c
    let went (t : Dev) (r : RIx) (target : Word) : Prop :=
      (∀ x, (t.core c).rd x = if x = r ∧ r ≠ 0 then k.pc + 4 else k.rd x) ∧ (t.core c).pc = target ∧ d.Kept t c ∧
        (t.core c).astat = k.astat ∧ (t.core c).vstat = k.vstat ∧ (t.core c).v = k.v ∧ (t.core c).q = k.q
    let at4 (v : Word) : Word := BitVec.ofNat 64 (v.toNat / 4 * 4)
    Completes (.j c off) s (fun t => went t 0 (at4 (k.pc + sWord (4 * off.toInt)))) ∧
    Completes (.jal c off) s (fun t => went t 31 (at4 (k.pc + sWord (4 * off.toInt)))) ∧
    Completes (.jalr c rd ra imm) s (fun t => went t rd (at4 (k.rd ra + sWord imm.toInt)))

/-! Sample vectors (chapter 4). -/

/-- The element-wise operations of R180 that do not saturate, lane by lane modulo the lane width, and the leading sign count of R182. -/
def Obligations.VectorLanes : Prop :=
  ∀ (s : State) (c : CoreId) (d : Dev) (n : Nat) (far : Bool), s.Ready c d n far →
    ∀ (vd va vb : RIx) (half : Bool) (sh : BitVec 5), sh.toNat < laneW half →
    let k := d.core c
    let w := laneW half
    let h := laneN half / 2
    let a (i : Nat) : Int := laneS (k.vrd va) w i
    let b (i : Nat) : Int := laneS (k.vrd vb) w i
    let count (i : Nat) : Nat :=
      ((List.range (w - 1)).takeWhile (fun j => bit (k.vrd va) (w * i + (w - 2 - j)) == bit (k.vrd va) (w * i + (w - 1)))).length
    (∀ p ∈ ([(.vadd c vd va vb half, fun i => a i + b i), (.vsub c vd va vb half, fun i => a i - b i),
        (.vmin c vd va vb half, fun i => min (a i) (b i)), (.vmax c vd va vb half, fun i => max (a i) (b i)),
        (.vslli c vd va sh half, fun i => a i * 2 ^ sh.toNat),
        (.vsrli c vd va sh half, fun i => ((laneU (k.vrd va) w i / 2 ^ sh.toNat : Nat) : Int)),
        (.vsrai c vd va sh half, fun i => a i / 2 ^ sh.toNat), (.vnorm c vd va half, fun i => (count i : Int)),
        (.vzipl c vd va vb half, fun i => if i % 2 = 0 then a (i / 2) else b (i / 2)),
        (.vziph c vd va vb half, fun i => if i % 2 = 0 then a (h + i / 2) else b (h + i / 2)),
        (.vuzpe c vd va vb half, fun i => if i < h then a (2 * i) else b (2 * (i - h))),
        (.vuzpo c vd va vb half, fun i => if i < h then a (2 * i + 1) else b (2 * (i - h) + 1))] : List (Instr × (Nat → Int))),
      Completes p.1 s (fun t => d.OnlyV t c (fun x => x == vd) 0 ∧
        ∀ i, i < laneN half → (laneU ((t.core c).vrd vd) w i : Int) = p.2 i % 2 ^ w)) ∧
    (∀ p ∈ ([(.vand c vd va vb half, k.vrd va &&& k.vrd vb), (.vor c vd va vb half, k.vrd va ||| k.vrd vb),
        (.vxor c vd va vb half, k.vrd va ^^^ k.vrd vb)] : List (Instr × BitVec 512)),
      Completes p.1 s (fun t => d.OnlyV t c (fun x => x == vd) 0 ∧ (t.core c).vrd vd = p.2))

/-- The saturating operations of R180: the exact result of each lane limited to the lane's range, and SAT set when a lane did not
fit (R181). -/
def Obligations.VectorSaturation : Prop :=
  ∀ (s : State) (c : CoreId) (d : Dev) (n : Nat) (far : Bool), s.Ready c d n far →
    ∀ (vd va vb : RIx) (half : Bool) (sh : BitVec 5), sh.toNat < laneW half →
    let k := d.core c
    let w := laneW half
    let a (i : Nat) : Int := laneS (k.vrd va) w i
    let b (i : Nat) : Int := laneS (k.vrd vb) w i
    ∀ p ∈ ([(.vadds c vd va vb half, fun i => a i + b i), (.vsubs c vd va vb half, fun i => a i - b i),
        (.vabs c vd va half, fun i => max (a i) (-a i)), (.vneg c vd va half, fun i => -a i),
        (.vslsi c vd va sh half, fun i => a i * 2 ^ sh.toNat)] : List (Instr × (Nat → Int))),
      Completes p.1 s (fun t =>
        d.OnlyV t c (fun x => x == vd) (vflags ((List.range (laneN half)).any (fun i => misfit w (p.2 i))) false false false) ∧
        ∀ i, i < laneN half → laneS ((t.core c).vrd vd) w i = limit w (p.2 i))

/-- The moves between lanes and general registers and the status instructions (R198). A move to w0 writes nothing (R97). -/
def Obligations.VectorMovesAndStatus : Prop :=
  ∀ (s : State) (c : CoreId) (d : Dev) (n : Nat) (far : Bool), s.Ready c d n far →
    ∀ (vd va wd wa : RIx) (half : Bool) (ix : BitVec 5), ix.toNat < laneN half →
    let k := d.core c
    let w := laneW half
    let low := (k.rd wa).toNat % 2 ^ w
    Completes (.vsplat c vd wa half) s (fun t => d.OnlyV t c (fun x => x == vd) 0 ∧
      ∀ i, i < laneN half → laneU ((t.core c).vrd vd) w i = low) ∧
    Completes (.vinsw c vd wa ix half) s (fun t => d.OnlyV t c (fun x => x == vd) 0 ∧
      ∀ i, i < laneN half → laneU ((t.core c).vrd vd) w i = if i = ix.toNat then low else laneU (k.vrd vd) w i) ∧
    Completes (.vmvlw c wd va ix half) s (fun t => d.Wrote t c wd (sWord (laneS (k.vrd va) w ix.toNat)) ∧ d.Next t c) ∧
    Completes (.vrstat c wd) s (fun t => d.Wrote t c wd (k.vstat.setWidth 64) ∧ d.Next t c) ∧
    Completes (.vwstat c wa) s (fun t => (∀ x, (t.core c).rd x = k.rd x) ∧ (t.core c).v = k.v ∧ (t.core c).q = k.q ∧
      (t.core c).vstat = (k.rd wa).setWidth 4 ∧ d.Next t c) ∧
    Completes (.vcstat c wd) s (fun t => (∀ x, (t.core c).rd x = if x = wd ∧ wd ≠ 0 then k.vstat.setWidth 64 else k.rd x) ∧
      (t.core c).v = k.v ∧ (t.core c).q = k.q ∧ (t.core c).vstat = 0 ∧ d.Next t c)

/-- The multiplies of R183 and the dot products of R184. The product of two lanes is exact, aligned by the type's shift s of Table 4-2 (R175),
and each accumulator lane takes the exact sum limited to 96 bits, ASAT telling that one did not fit (R176). -/
def Obligations.MultiplyAccumulate : Prop :=
  ∀ (s : State) (c : CoreId) (d : Dev) (n : Nat) (far : Bool), s.Ready c d n far →
    ∀ (qd : QIx) (va vb : RIx) (ty : BitVec 3) (hi : Bool) (ix : BitVec 4),
    ty.toNat < 6 → (hi = true → ty = 2 ∨ ty = 3 ∨ ty = 5) →
    let k := d.core c
    let off := if hi then 16 else 0
    let a (i : Nat) : Int := if ty = 2 ∨ ty = 3 ∨ ty = 5 then laneS (k.vrd va) 16 (i + off) else laneS (k.vrd va) 32 i
    let b (i : Nat) : Int := if ty = 2 ∨ ty = 5 then laneS (k.vrd vb) 16 (i + off) else laneS (k.vrd vb) 32 i
    let shift : Nat := if ty = 1 then 2 else if ty = 2 then 32 else if ty = 3 then 18 else 0
    let prod (i j : Nat) : Int := a i * b j * 2 ^ shift
    let dot : Int := ((List.range 16).map (fun i => prod i i)).sum
    let q (i : Nat) : Int := accLane (k.qrd qd) i
    ∀ p ∈ ([(.vmul c qd va vb ty hi, fun i => prod i i), (.vmac c qd va vb ty hi, fun i => q i + prod i i),
        (.vmsu c qd va vb ty hi, fun i => q i - prod i i), (.vmacx c qd va vb ty hi ix, fun i => q i + prod i ix.toNat),
        (.vmsux c qd va vb ty hi ix, fun i => q i - prod i ix.toNat),
        (.vdot c qd va vb ty hi ix, fun i => if i = ix.toNat then q i + dot else q i),
        (.vdotn c qd va vb ty hi ix, fun i => if i = ix.toNat then q i - dot else q i)] : List (Instr × (Nat → Int))),
      Completes p.1 s (fun t =>
        d.OnlyQ t c (fun x => x == qd) (vflags false false false ((List.range 16).any (fun i => misfit 96 (p.2 i)))) ∧
        ∀ i, i < 16 → accLane ((t.core c).qrd qd) i = limit 96 (p.2 i))

/-- The accumulator operations of R186. -/
def Obligations.AccumulatorOperations : Prop :=
  ∀ (s : State) (c : CoreId) (d : Dev) (n : Nat) (far : Bool), s.Ready c d n far →
    ∀ (qd qa : QIx) (va wd : RIx) (fmt : BitVec 3) (hi : Bool), fmt.toNat < 5 → (hi = true → fmt = 2 ∨ fmt = 4) →
    let k := d.core c
    let q (i : Nat) : Int := accLane (k.qrd qd) i
    let r (i : Nat) : Int := accLane (k.qrd qa) i
    let a (i : Nat) : Int := if fmt = 2 ∨ fmt = 4 then laneS (k.vrd va) 16 (i + if hi then 16 else 0) else laneS (k.vrd va) 32 i
    let wide (i : Nat) : Int := a i * 2 ^ (if fmt = 0 then 31 else if fmt = 1 then 33 else if fmt = 2 then 47 else 0)
    let count (i : Nat) : Nat :=
      ((List.range 95).takeWhile (fun j => bit (k.qrd qa) (96 * i + (94 - j)) == bit (k.qrd qa) (96 * i + 95))).length
    (∀ p ∈ ([(.vqclr c qd, fun _ => 0), (.vqmov c qd qa, fun i => r i), (.vqadd c qd qa, fun i => q i + r i),
        (.vqsub c qd qa, fun i => q i - r i), (.vqwid c qd va fmt hi, fun i => wide i),
        (.vqacc c qd va fmt hi, fun i => q i + wide i)] : List (Instr × (Nat → Int))),
      Completes p.1 s (fun t =>
        d.OnlyQ t c (fun x => x == qd) (vflags false false false ((List.range 16).any (fun i => misfit 96 (p.2 i)))) ∧
        ∀ i, i < 16 → accLane ((t.core c).qrd qd) i = limit 96 (p.2 i))) ∧
    ∃ m : Nat, Completes (.vnormq c wd qa) s (fun t => d.Wrote t c wd (BitVec.ofNat 64 m) ∧ d.Next t c) ∧
      (∀ i, i < 16 → m ≤ count i) ∧ ∃ i, i < 16 ∧ m = count i

/-- The narrowing of R187 to R191: each accumulator lane shifted and rounded by the instruction's mode, limited to the format's width
and written to its lane; SAT, INX and ZRN as R188 sets them; VNRWC clears the accumulator then. -/
def Obligations.Narrowing : Prop :=
  ∀ (s : State) (c : CoreId) (d : Dev) (n : Nat) (far : Bool), s.Ready c d n far →
    ∀ (vd : RIx) (qa : QIx) (fmt : BitVec 3) (hi : Bool) (rm : BitVec 2) (byReg : Bool) (sh : BitVec 7),
    fmt.toNat < 5 → (hi = true → fmt = 2 ∨ fmt = 4) → rm ≠ 3 → (byReg = true → sh.toNat < 32) →
    let k := d.core c
    let w := if fmt = 2 ∨ fmt = 4 then 16 else 32
    let amount : Int := if byReg then ((k.rd (sh.setWidth 5).toFin).setWidth 7).toInt else sh.toInt
    let r : Int := (if fmt = 0 then 31 else if fmt = 1 then 33 else if fmt = 2 then 47 else 0) + amount
    let f (i : Nat) : Int := accLane (k.qrd qa) i
    let out (t : Dev) : Prop := ∀ i, i < 512 / w → laneS ((t.core c).vrd vd) w i =
      if w = 32 then limit 32 (roundShift (f i) r rm.toNat)
      else if (if hi then 16 ≤ i else i < 16) then limit 16 (roundShift (f (i % 16)) r rm.toNat) else laneS (k.vrd vd) 16 i
    Completes (.vnrw c vd qa fmt hi rm byReg sh) s (fun t =>
      d.OnlyV t c (fun x => x == vd) (narrowingFlags w r rm.toNat f) ∧ out t) ∧
    Completes (.vnrwc c vd qa fmt hi rm byReg sh) s (fun t => out t ∧ (t.core c).qrd qa = 0 ∧
      (∀ x, x ≠ qa → (t.core c).qrd x = k.qrd x) ∧ (∀ x, x ≠ vd → (t.core c).vrd x = k.vrd x) ∧ (∀ x, (t.core c).rd x = k.rd x) ∧
      (t.core c).vstat = k.vstat ||| narrowingFlags w r rm.toNat f ∧ d.Next t c)

/-- One sample of 16 biquad sections (R192, R194) and one step of 16 gain ramps (R196, R197). Every source is read before any register
is written (R193), and no other register differs. -/
def Obligations.BiquadAndRamp : Prop :=
  ∀ (s : State) (c : CoreId) (d : Dev) (n : Nat) (far : Bool), s.Ready c d n far → ∀ (vd va : RIx) (rm : BitVec 2), rm ≠ 3 →
    let k := d.core c
    let l (r : RIx) (i : Nat) : Int := laneS (k.vrd r) 32 i
    (∀ vs vc x2 y1 y2 b1 b2 a1 a2 : RIx, vs.val % 4 = 0 → vc.val % 8 = 0 → x2.val = vs.val + 1 → y1.val = vs.val + 2 →
      y2.val = vs.val + 3 → b1.val = vc.val + 1 → b2.val = vc.val + 2 → a1.val = vc.val + 3 → a2.val = vc.val + 4 →
      (vd.val < vs.val ∨ vs.val + 3 < vd.val) → (vd.val < vc.val ∨ vc.val + 4 < vd.val) →
      let acc (i : Nat) : Int := 4 * (l vc i * l va i + l b1 i * l vs i + l b2 i * l x2 i - l a1 i * l y1 i - l a2 i * l y2 i)
      Completes (.vbiq c vd va vs vc rm) s (fun t =>
        d.OnlyV t c (fun x => x == vd || x == vs || x == x2 || x == y1 || x == y2) (narrowingFlags 32 31 rm.toNat acc) ∧
        (t.core c).vrd vs = k.vrd va ∧ (t.core c).vrd x2 = k.vrd vs ∧ (t.core c).vrd y2 = k.vrd y1 ∧
        (t.core c).vrd y1 = (t.core c).vrd vd ∧
        ∀ i, i < 16 → laneS ((t.core c).vrd vd) 32 i = limit 32 (roundShift (acc i) 31 rm.toNat))) ∧
    (∀ vg vi vt : RIx, vg.val % 4 = 0 → vi.val = vg.val + 1 → vt.val = vg.val + 2 → (vd.val < vg.val ∨ vg.val + 2 < vd.val) →
      let f (i : Nat) : Int := 4 * (l va i * l vg i)
      Completes (.vramp c vd va vg rm) s (fun t =>
        d.OnlyV t c (fun x => x == vd || x == vg) (narrowingFlags 32 31 rm.toNat f) ∧
        ∀ i, i < 16 → laneS ((t.core c).vrd vd) 32 i = limit 32 (roundShift (f i) 31 rm.toNat) ∧
          laneS ((t.core c).vrd vg) 32 i =
            if l vg i < l vt i then min (l vg i + (l vi i).natAbs) (l vt i)
            else if l vt i < l vg i then max (l vg i - (l vi i).natAbs) (l vt i) else l vg i))

/-! Memory accesses of a core (chapters 3 to 5). -/

/-- The plain loads (R122): the bytes at w[ra] + imm, little-endian, sign- or zero-extended. -/
def Obligations.Loads : Prop :=
  ∀ (s : State) (c : CoreId) (d : Dev) (n : Nat) (far : Bool), s.Ready c d n far → ∀ (rd ra : RIx) (imm : BitVec 16) (e : Dev) (bs : List Byte),
    let va := ((d.core c).rd ra + sWord imm.toInt).toNat
    ∀ p ∈ ([(.ld8 c rd ra imm, 1, sWord (BitVec.ofNat 8 (leNat bs)).toInt), (.ld8u c rd ra imm, 1, BitVec.ofNat 64 (leNat bs)),
        (.ld16 c rd ra imm, 2, sWord (BitVec.ofNat 16 (leNat bs)).toInt), (.ld16u c rd ra imm, 2, BitVec.ofNat 64 (leNat bs)),
        (.ld32 c rd ra imm, 4, sWord (BitVec.ofNat 32 (leNat bs)).toInt), (.ld32u c rd ra imm, 4, BitVec.ofNat 64 (leNat bs)),
        (.ld64 c rd ra imm, 8, BitVec.ofNat 64 (leNat bs))] : List (Instr × Nat × Word)),
      d.Reads c none false true [⟨va, p.2.1, p.2.1⟩] e bs → Completes p.1 s (fun t => d.After e t c rd p.2.2)

/-- The plain stores (R122): the low bytes of w[rs], little-endian, to w[ra] + imm. -/
def Obligations.Stores : Prop :=
  ∀ (s : State) (c : CoreId) (d : Dev) (n : Nat) (far : Bool), s.Ready c d n far → ∀ (rs ra : RIx) (imm : BitVec 16) (e : Dev),
    let va := ((d.core c).rd ra + sWord imm.toInt).toNat
    ∀ p ∈ ([(.st8 c rs ra imm, 1), (.st16 c rs ra imm, 2), (.st32 c rs ra imm, 4), (.st64 c rs ra imm, 8)] : List (Instr × Nat)),
      d.Stores c [⟨va, p.2, p.2⟩] (natLe p.2 ((d.core c).rd rs).toNat) e → Completes p.1 s (fun t => d.After e t c 0 0)

/-- An access of a core, its translation and its updates of table entries included, changes no data register, no system register and
not the pc, and gives no core a reservation, as long as it reaches memory or the core's own local store and no older store
waits in the store buffer. -/
def Obligations.AccessesKeepRegisters : Prop :=
  ∀ (d e : Dev) (c : CoreId), (d.core c).sb = [] →
    let kept : Prop := (d.core c).SameData (e.core c) ∧ (d.core c).SameSys (e.core c) ∧ (e.core c).pc = (d.core c).pc ∧
      (e.core c).astat = (d.core c).astat ∧
      ∀ x : Nat, SMap.get (fun _ => none) d.resv x = none → SMap.get (fun _ => none) e.resv x = none
    (∀ (kind : AKind) (strict : Option Nat) (is : List Item) (ps : List Part), d.access c kind strict is = .ok e ps → kept) ∧
    (∀ (old fwd : Bool) (ps : List Part) (bs : List Byte),
      (∀ p ∈ ps, p.self = true ∨ (cacheable p.rpa = true ∧ (p.mt = .wb ∨ p.mt = .wt))) → d.loadParts c old fwd ps = (e, .ok bs) → kept) ∧
    (∀ (p : Part) (bs : List Byte), p.self = true ∨ (cacheable p.rpa = true ∧ devType p.mt = false) →
      d.storePart c p false bs = (e, none) → kept)

/-- A local store holds what was last written to it, and no other byte of it differs, where no check bit of the touched words is
wrong (R303, R342, R817). Its storage keeps its canonical form (the model's own clause, log entry 4). -/
def Obligations.LocalStoreBytes : Prop :=
  ∀ (d : Dev) (c : CoreId) (off : Nat) (bs : List Byte), off + bs.length ≤ 2 ^ 17 →
    (∀ w ∈ wordsOf off bs.length, SMap.get (fun _ => ([] : List Nat)) d.localErr (c.val * 2 ^ 14 + w) = []) →
    ∃ e, d.lsWrite c off bs = (e, .ok ()) ∧ (e.lsRead c off bs.length).2 = .ok bs ∧ e.cores = d.cores ∧ e.regs = d.regs ∧ e.sdram = d.sdram ∧
      (∀ a, a < lsKey c off ∨ lsKey c off + bs.length ≤ a → SMap.get zeroByte e.localStore a = SMap.get zeroByte d.localStore a) ∧
      (SMap.wf zeroByte d.localStore = true → SMap.wf zeroByte e.localStore = true)

/-- LD64 and ST64 to a core's own local store, with translation off and nothing older in the store buffer: the load reads the 8 bytes;
the store writes them at once in deterministic mode, and puts them into the store buffer in normal mode (R212, R217). -/
def Obligations.LocalStoreAccesses : Prop :=
  ∀ (s : State) (c : CoreId) (d : Dev) (n : Nat) (far : Bool), s.Ready c d n far → ∀ (rd ra : RIx) (imm : BitVec 16) (off : Nat),
    let k := d.core c
    off % 8 = 0 → off + 8 ≤ 2 ^ 17 → (k.rd ra + sWord imm.toInt).toNat = 0xE0001FF00000 + off → bit k.sTbase 0 = false → k.sb = [] →
    d.quiesced c = false → SMap.get (fun _ => ([] : List Nat)) d.localErr (c.val * 2 ^ 14 + off / 8) = [] →
    Completes (.ld64 c rd ra imm) s (fun t => d.Wrote t c rd (BitVec.ofNat 64 (leNat (readBytes d.localStore (lsKey c off) 8))) ∧ d.Kept t c) ∧
    Completes (.st64 c rd ra imm) s (fun t => k.SameData (t.core c) ∧ k.SameSys (t.core c) ∧ (t.core c).pc = k.pc + 4 ∧
      (∀ x, x ≠ c → t.core x = d.core x) ∧ t.sdram = d.sdram ∧ t.l2 = d.l2 ∧ t.homes = d.homes ∧
      (k.dmode = true → (t.core c).sb = [] ∧ readBytes t.localStore (lsKey c off) 8 = natLe 8 (k.rd rd).toNat ∧
        ∀ a, a < lsKey c off ∨ lsKey c off + 8 ≤ a → SMap.get zeroByte t.localStore a = SMap.get zeroByte d.localStore a) ∧
      (k.dmode = false → t.localStore = d.localStore ∧
        (t.core c).sb = [⟨0xE0001FF00000 + off, natLe 8 (k.rd rd).toNat, .wb, false, false, 0xE0001FF00000 + off⟩]))

/-- The store buffer (R216, R217, R236): in normal mode a store to WB, WT or NC memory retires into it with memory as it was; the load of
bytes that the youngest overlapping entry holds gets that entry's bytes, with nothing changed; and a drain performs an entry
with which no older one overlaps. -/
def Obligations.StoreBuffer : Prop :=
  (∀ (d : Dev) (c : CoreId) (p : Part) (bs : List Byte), p.self = false → devType p.mt = false → (d.core c).dmode = false →
    (d.core c).sb.length < 32 →
    ∃ e, d.storePart c p false bs = (e, none) ∧ (e.core c).sb = (d.core c).sb ++ [⟨p.rpa, bs, p.mt, p.ph, p.st, p.va⟩] ∧ d.SameMem e ∧
      e.regs = d.regs ∧ (d.core c).SameData (e.core c) ∧ (d.core c).SameSys (e.core c) ∧ (e.core c).pc = (d.core c).pc) ∧
  (∀ (d : Dev) (c : CoreId) (p : Part) (old : Bool) (es ys : List SbEntry) (e : SbEntry), (d.core c).sb = es ++ e :: ys →
    (∀ y ∈ ys, y.overlaps p.rpa p.n = false) → e.overlaps p.rpa p.n = true → e.pa ≤ p.rpa → p.rpa + p.n ≤ e.pa + e.data.length →
    (p.self = true ∧ inSelf e.pa = true ∨
      p.self = false ∧ inSelf e.pa = false ∧ (p.mt = .wb ∨ p.mt = .wt) ∧ (e.mt = .wb ∨ e.mt = .wt)) →
    d.loadPart c p old true = (d, .ok ((e.data.drop (p.rpa - e.pa)).take p.n))) ∧
  (∀ (s : State) (c : CoreId) (i : Fin 32) (e : SbEntry), (s.dev.core c).sb[i.val]? = some e →
    (∀ o ∈ (s.dev.core c).sb.take i.val, o.overlaps e.pa e.data.length = false) → inSelf e.pa = true →
    e.pa - 0xE0001FF00000 + e.data.length ≤ 2 ^ 17 →
    (∀ w ∈ wordsOf (e.pa - 0xE0001FF00000) e.data.length, SMap.get (fun _ => ([] : List Nat)) s.dev.localErr (c.val * 2 ^ 14 + w) = []) →
    Completes (.storeBufferDrain c i) s (fun t => (t.core c).sb = (s.dev.core c).sb.eraseIdx i.val ∧
      (s.dev.core c).SameData (t.core c) ∧ (t.core c).pc = (s.dev.core c).pc ∧
      readBytes t.localStore (lsKey c (e.pa - 0xE0001FF00000)) e.data.length = e.data))

/-- The acquire, reserve and non-temporal loads (R131, R133): the value, and the reservation, which 128 more retirements would end (R135).
A release (.RL or .AR) empties the store buffer first (R346). -/
def Obligations.OrderedLoads : Prop :=
  ∀ (s : State) (c : CoreId) (d : Dev) (n : Nat) (far : Bool), s.Ready c d n far → ∀ (rd ra : RIx) (ord : BitVec 2),
    let va := ((d.core c).rd ra).toNat
    let got (i : Instr) (size : Nat) (strict : Option Nat) (rel nt : Bool) (ext : Nat → Word) (resv : Bool) : Prop :=
      ∀ d1 ps e bs, d.access c .load strict [⟨va, size, size⟩] = .ok d1 ps →
        (if rel then d1.sbFlush c else d1).loadParts c nt nt ps = (e, .ok bs) → e.Quiet c →
        Completes i s (fun t => d.After e t c rd (ext (leNat bs)) ∧
          (resv = true → ∀ p, ps.head? = some p → SMap.get (fun _ => none) t.resv c = some ⟨resvAddr c p, size, 128⟩))
    got (.lres c rd ra ord) 8 (some 8) (ord.getLsbD 1) false (BitVec.ofNat 64) true ∧
    got (.lresw c rd ra ord) 4 (some 4) (ord.getLsbD 1) false (fun x => sWord (BitVec.ofNat 32 x).toInt) true ∧
    got (.lda c rd ra) 8 (some 8) false false (BitVec.ofNat 64) false ∧
    got (.ldaw c rd ra) 4 (some 4) false false (fun x => sWord (BitVec.ofNat 32 x).toInt) false ∧
    got (.ldnt c rd ra) 8 none false true (BitVec.ofNat 64) false

/-- SCOM and SCOMW (R134): with the core's reservation on the address and of the size, the store is made and w[rd] becomes 0; otherwise
nothing is stored and w[rd] becomes 1. -/
def Obligations.CommitStores : Prop :=
  ∀ (s : State) (c : CoreId) (d : Dev) (n : Nat) (far : Bool), s.Ready c d n far → ∀ (rd ra rb : RIx) (ord : BitVec 2),
    let k := d.core c
    let va := (k.rd ra).toNat
    ∀ p ∈ ([(.scom c rd ra rb ord, 8), (.scomw c rd ra rb ord, 4)] : List (Instr × Nat)),
      ∀ d1 q qs, d.access c .store (some p.2) [⟨va, p.2, p.2⟩] = .ok d1 (q :: qs) →
        let d2 := (if ord.getLsbD 1 then d1.sbFlush c else d1).sbBefore c q
        (∀ e old r, SMap.get (fun _ => none) d2.resv c = some r → r.addr = resvAddr c q → r.size = p.2 →
          (d2.dropResv c).atomicPart c q (fun _ => some ((k.rd rb).toNat % 2 ^ (8 * p.2))) = (e, .ok old) → e.Quiet c →
          Completes p.1 s (fun t => d.After e t c rd 0)) ∧
        (∀ e old, (∀ r, SMap.get (fun _ => none) d2.resv c = some r → ¬(r.addr = resvAddr c q ∧ r.size = p.2)) →
          (d2.dropResv c).atomicPart c q (fun _ => none) = (e, .ok old) → e.Quiet c →
          Completes p.1 s (fun t => d.After e t c rd 1))

/-- The atomic operations (R131, R137), which write the old value to w[rd], and the release stores STL and STLW. In the local store the
operation reads and writes the bytes of the address and no other. -/
def Obligations.AtomicOperations : Prop :=
  (∀ (s : State) (c : CoreId) (d : Dev) (n : Nat) (far : Bool), s.Ready c d n far → ∀ (rd ra rb rc : RIx) (ord : BitVec 2),
    let k := d.core c
    let va := (k.rd ra).toNat
    let x := (k.rd rb).toNat
    let y := (k.rd rc).toNat
    let sw (v : Nat) : Word := sWord (BitVec.ofNat 32 v).toInt
    (∀ p ∈ ([(.aadd c rd ra rb ord, 8, fun old => some ((old + x) % 2 ^ 64), BitVec.ofNat 64),
        (.aaddw c rd ra rb ord, 4, fun old => some ((old + x) % 2 ^ 32), sw),
        (.aswp c rd ra rb ord, 8, fun _ => some (x % 2 ^ 64), BitVec.ofNat 64),
        (.aswpw c rd ra rb ord, 4, fun _ => some (x % 2 ^ 32), sw),
        (.acas c rd ra rb rc ord, 8, fun old => if old = x % 2 ^ 64 then some (y % 2 ^ 64) else none, BitVec.ofNat 64),
        (.acasw c rd ra rb rc ord, 4, fun old => if old = x % 2 ^ 32 then some (y % 2 ^ 32) else none, sw)] :
        List (Instr × Nat × (Nat → Option Nat) × (Nat → Word))),
      ∀ d1 q qs e old, d.access c .atomic (some p.2.1) [⟨va, p.2.1, p.2.1⟩] = .ok d1 (q :: qs) →
        ((if ord.getLsbD 1 then d1.sbFlush c else d1).sbBefore c q).atomicPart c q p.2.2.1 = (e, .ok old) → e.Quiet c →
        Completes p.1 s (fun t => d.After e t c rd (p.2.2.2 old))) ∧
    (∀ p ∈ ([(.stl c ra rb, 8), (.stlw c ra rb, 4)] : List (Instr × Nat)),
      ∀ d1 q qs e, d.access c .store (some p.2) [⟨va, p.2, p.2⟩] = .ok d1 (q :: qs) →
        (d1.sbFlush c).writePart c q (natLe p.2 x) = (e, none) → e.Quiet c → Completes p.1 s (fun t => d.After e t c 0 0))) ∧
  (∀ (d : Dev) (c : CoreId) (p : Part) (f : Nat → Option Nat) (x : Nat), p.self = true → 0xE0001FF00000 ≤ p.rpa → p.n = 4 ∨ p.n = 8 →
    p.rpa % p.n = 0 → p.rpa - 0xE0001FF00000 + p.n ≤ 2 ^ 17 →
    SMap.get (fun _ => ([] : List Nat)) d.localErr (c.val * 2 ^ 14 + (p.rpa - 0xE0001FF00000) / 8) = [] →
    let a := lsKey c (p.rpa - 0xE0001FF00000)
    let old := leNat (readBytes d.localStore a p.n)
    (f old = some x → x < 2 ^ (8 * p.n) → ∃ e, d.atomicPart c p f = (e, .ok old) ∧ leNat (readBytes e.localStore a p.n) = x ∧
      ∀ b, b < a ∨ a + p.n ≤ b → SMap.get zeroByte e.localStore b = SMap.get zeroByte d.localStore b) ∧
    (f old = none → d.atomicPart c p f = (d, .ok old)))

/-- FENCE with its PW bit empties the store buffer (R139), and the maintenance instructions (R140, R329): ZLINE zeroes a line of the local
store; CLEAN, INV and FLUSH act on the line of a cacheable address and do nothing elsewhere; PREF and PREFW change no
register and never trap (R270). -/
def Obligations.FenceAndMaintenance : Prop :=
  ∀ (s : State) (c : CoreId) (d : Dev) (n : Nat) (far : Bool), s.Ready c d n far → ∀ (ra : RIx) (imm : BitVec 16) (sets : BitVec 5),
    let k := d.core c
    let it : List Item := [⟨(k.rd ra + sWord imm.toInt).toNat, 1, 1⟩]
    let went (i : Instr) (e : Dev) : Prop := e.Quiet c → Completes i s (fun t => d.After e t c 0 0)
    (sets.toNat % 16 ≠ 0 → went (.fence c sets) (if sets.getLsbD 2 then d.sbFlush c else d)) ∧
    (∀ d1 p ps e, d.access c .store none it = .ok d1 (p :: ps) → p.self = true →
      ((d1.sbDrainOver c (p.rpa / 256 * 256) 256).dropFetched c (p.rpa / 256 * 256) 256).lsWrite c (p.rpa / 256 * 256 - 0xE0001FF00000)
        (List.replicate 256 0) = (e, .ok ()) → p.mt = .wb → went (.zline c ra imm) e) ∧
    (∀ d1 p ps e, d.access c .load none it = .ok d1 (p :: ps) → (p.self || !cacheable p.rpa) = false →
      let d2 := d1.sbDrainOver c (p.rpa / 256 * 256) 256
      (d2.lineClean (d2.rqOf c) p.rpa = (e, .ok ()) → went (.clean c ra imm) e) ∧
      (d2.lineFlush (d2.rqOf c) p.rpa = (e, .ok ()) → went (.flush c ra imm) e)) ∧
    (∀ d1 p ps, d.access c .load none it = .ok d1 (p :: ps) → (p.self || !cacheable p.rpa) = true →
      went (.clean c ra imm) d1 ∧ went (.flush c ra imm) d1) ∧
    (∀ d1 p ps e, k.priv = .s → d.access c .store none it = .ok d1 (p :: ps) → (p.self || !cacheable p.rpa) = false →
      (d1.sbDrainOver c (p.rpa / 256 * 256) 256).lineInv ((d1.sbDrainOver c (p.rpa / 256 * 256) 256).rqOf c) p.rpa = (e, .ok ()) →
      went (.inv c ra imm) e) ∧
    (∀ d1 x, d.walkWaits c .load it = false → d.checkItems c .load none it = (d1, .error x) → went (.pref c ra imm) d1) ∧
    (∀ d1 x, d.walkWaits c .store it = false → d.checkItems c .store none it = (d1, .error x) → went (.prefw c ra imm) d1) ∧
    (∀ d1 p ps, p.upd = none → p.self = false → cacheable p.rpa = true → p.mt = .wb → d1.partWaits c p false = false →
      (d.walkWaits c .load it = false → d.checkItems c .load none it = (d1, .ok (p :: ps)) →
        went (.pref c ra imm) (d1.l2Get (d1.rqOf c) p.rpa (if p.st then 3 else 0) p.ph false).1) ∧
      (d.walkWaits c .store it = false → d.checkItems c .store none it = (d1, .ok (p :: ps)) →
        went (.prefw c ra imm) (d1.l2Own (d1.rqOf c) p.rpa (if p.st then 3 else 0) p.ph).1))

/-- The vector loads and stores (R199): 64 bytes, 192 bytes, or the lanes at w[ra] + i × w[rb] modulo 2^64. To DO and DS memory the
elements are made as accesses of their own (R202); VSTS empties the store buffer first (R218). -/
def Obligations.VectorMemory : Prop :=
  ∀ (s : State) (c : CoreId) (d : Dev) (n : Nat) (far : Bool), s.Ready c d n far → ∀ (r : RIx) (q : QIx) (ra rb : RIx) (imm : BitVec 16) (half : Bool),
    let k := d.core c
    let va := (k.rd ra + sWord imm.toInt).toNat
    let w := if half then 2 else 4
    let lanes : List Item := (List.range (64 / w)).map (fun i => ⟨((k.rd ra).toNat + i * (k.rd rb).toNat) % 2 ^ 64, w, w⟩)
    let others (e t : Dev) : Prop := (∀ x, (t.core c).rd x = (e.core c).rd x) ∧ (t.core c).vstat = (e.core c).vstat ∧
      (t.core c).pc = k.pc + 4 ∧ (t.core c).astat = (e.core c).astat ∧ e.Kept t c
    (∀ d1 ps e bs, d.access c .load none [⟨va, 64, 4⟩] = .ok d1 ps → d1.loadParts c false true (ps.flatMap (deviceChunks ⟨va, 64, 4⟩)) = (e, .ok bs) →
      e.Quiet c → Completes (.vld c r ra imm) s (fun t => others e t ∧ (t.core c).q = (e.core c).q ∧
        ∀ x, (t.core c).vrd x = if x = r then BitVec.ofNat 512 (leNat bs) else (e.core c).vrd x)) ∧
    (∀ d1 ps e bs, d.access c .load none [⟨va, 192, 12⟩] = .ok d1 ps → d1.loadParts c false true (ps.flatMap (deviceChunks ⟨va, 192, 12⟩)) = (e, .ok bs) →
      e.Quiet c → Completes (.vqld c q ra imm) s (fun t => others e t ∧ (t.core c).v = (e.core c).v ∧
        ∀ x, (t.core c).qrd x = if x = q then BitVec.ofNat 1536 (leNat bs) else (e.core c).qrd x)) ∧
    (∀ d1 ps e bs, d.access c .load none lanes = .ok d1 ps → d1.loadParts c false false ps = (e, .ok bs) → e.Quiet c →
      Completes (.vlds c r ra rb half) s (fun t => others e t ∧ (t.core c).q = (e.core c).q ∧
        ∀ x, (t.core c).vrd x = if x = r then BitVec.ofNat 512 (leNat bs) else (e.core c).vrd x)) ∧
    (∀ d1 ps e, d.access c .store none [⟨va, 64, 4⟩] = .ok d1 ps →
      d1.storeParts c false (ps.flatMap (deviceChunks ⟨va, 64, 4⟩)) (natLe 64 (k.vrd r).toNat) = (e, none) → e.Quiet c →
      Completes (.vst c r ra imm) s (fun t => d.After e t c 0 0)) ∧
    (∀ d1 ps e, d.access c .store none [⟨va, 192, 12⟩] = .ok d1 ps →
      d1.storeParts c false (ps.flatMap (deviceChunks ⟨va, 192, 12⟩)) (natLe 192 (k.qrd q).toNat) = (e, none) → e.Quiet c →
      Completes (.vqst c q ra imm) s (fun t => d.After e t c 0 0)) ∧
    (∀ d1 ps e, d.access c .store none lanes = .ok d1 ps → (d1.sbFlush c).storeParts c true ps (natLe 64 (k.vrd r).toNat) = (e, none) → e.Quiet c →
      Completes (.vsts c r ra rb half) s (fun t => d.After e t c 0 0))

/-- Accesses that fault, with translation off: a load or store of 8 bytes at or above 2^48 takes cause 0x0B or 0x0C with reason 2 (R260),
one that no window contains cause 0x0D (R297), and LRES at an address that is no multiple of 8 cause 0x09 (R132); S_FADDR
holds the address (R144), and no register or memory differs. -/
def Obligations.AccessFaults : Prop :=
  ∀ (s : State) (c : CoreId) (d : Dev) (n : Nat) (far : Bool), s.Ready c d n far → (d.core c).staged = [] → bit (d.core c).sTbase 0 = false →
    ∀ (rd ra : RIx) (ord : BitVec 2),
    let va := (d.core c).rd ra
    (2 ^ 48 ≤ va.toNat → va.toNat % 8 = 0 →
      Completes (.ld64 c rd ra 0) s (fun t => d.Trapped t c 0x0B 2 va) ∧ Completes (.st64 c rd ra 0) s (fun t => d.Trapped t c 0x0C 2 va)) ∧
    (va.toNat < 2 ^ 48 → va.toNat % 8 = 0 → inSelf va.toNat = false →
      (∀ i, i < 16 → d.flag (coreUid c) (0x4200 + 16 * i) 0 = false) →
      Completes (.ld64 c rd ra 0) s (fun t => d.Trapped t c 0x0D 0 va) ∧ Completes (.st64 c rd ra 0) s (fun t => d.Trapped t c 0x0D 0 va)) ∧
    (inSelf va.toNat = true → va.toNat % 64 ≤ 56 → va.toNat % 8 ≠ 0 → Completes (.lres c rd ra ord) s (fun t => d.Trapped t c 0x09 0 va))

/-! System instructions, causes and events (chapters 3, 5, 6). -/

/-- MFC, MTC, CSET and CCLR (R141) at S level. MFC reads the value in effect, or the latest value written of a staged register (R157); MTC
writes the writable bits at once (R159), stages a write of S_TBASE, S_ASID or S_CORECTL (R154), or keeps one of CTR_CFG for SYNC.C
at the latest (R158). -/
def Obligations.ControlRegisters : Prop :=
  ∀ (s : State) (c : CoreId) (d : Dev) (n : Nat) (far : Bool), s.Ready c d n far → (d.core c).priv = .s → ∀ rd ra : RIx,
    let k := d.core c
    let v := k.rd ra
    (∀ p ∈ ([(0x000, k.astat), (0x008, k.ctrCfg), (0x100, k.sStatus), (0x101, k.sEpc), (0x102, k.sCause), (0x103, k.sFaddr), (0x104, k.sEvbase),
        (0x105, k.sScratch)] : List (BitVec 12 × Word)),
      Completes (.mfc c rd p.1) s (fun t => d.Wrote t c rd p.2 ∧ d.Next t c)) ∧
    (k.replica = false → Completes (.mfc c rd 0x001) s (fun t => d.Wrote t c rd (BitVec.ofNat 64 d.dt) ∧ d.Next t c)) ∧
    (∀ x xs, k.staged = xs ++ [⟨0x107, x, 8⟩] → Completes (.mfc c rd 0x107) s (fun t => d.Wrote t c rd x ∧ d.Next t c)) ∧
    (∀ p ∈ ([(.mtc c ra 0x105, 0, v), (.cset c rd ra 0x105, rd.val, k.sScratch ||| v), (.cclr c rd ra 0x105, rd.val, k.sScratch &&& ~~~v)] :
        List (Instr × Nat × Word)),
      Completes p.1 s (fun t => (t.core c).sScratch = p.2.2 ∧ (t.core c).pc = k.pc + 4 ∧ d.SameMem t ∧ (∀ x, x ≠ c → t.core x = d.core x) ∧
        (t.core c).v = k.v ∧ (t.core c).q = k.q ∧ (t.core c).sStatus = k.sStatus ∧ (t.core c).sEvbase = k.sEvbase ∧
        ∀ x : RIx, (t.core c).rd x = if x.val = p.2.1 ∧ x ≠ 0 then k.sScratch else k.rd x)) ∧
    Completes (.mtc c ra 0x101) s (fun t => (t.core c).sEpc.toNat = v.toNat / 4 * 4 + k.sEpc.toNat % 4 ∧ k.SameData (t.core c) ∧ d.SameMem t) ∧
    Completes (.mtc c ra 0x104) s (fun t => (t.core c).sEvbase.toNat = v.toNat / 4096 * 4096 + k.sEvbase.toNat % 4096 ∧ k.SameData (t.core c) ∧ d.SameMem t) ∧
    Completes (.mtc c ra 0x107) s (fun t => d.Next t c ∧ k.SameData (t.core c) ∧
      ∃ x : Staged, (t.core c).staged = k.staged.map (fun y => { y with left := y.left - 1 }) ++ [x] ∧ x.idx = 0x107 ∧ x.left = 7 ∧
        bits x.val 0 12 = bits v 0 12) ∧
    Completes (.mtc c ra 0x008) s (fun t => k.SameData (t.core c) ∧ (t.core c).pc = k.pc + 4 ∧ d.SameMem t ∧
      ((t.core c).afterSync = [(8, v)] ∧ (t.core c).ctrCfg = k.ctrCfg ∨
        (t.core c).afterSync = [] ∧ bits (t.core c).ctrCfg 0 9 = bits v 0 9 ∧ bit (t.core c).ctrCfg 16 = bit v 16))

/-- SVC and BRK (R141, R144, R150) take their causes with the index in INFO; BRK halts the core instead while the debugger claims
breakpoints (R759). -/
def Obligations.CallsAndBreaks : Prop :=
  ∀ (s : State) (c : CoreId) (d : Dev) (n : Nat) (far : Bool), s.Ready c d n far → ∀ idx : BitVec 12,
    ((d.core c).staged = [] → Completes (.svc c idx) s (fun t => d.Trapped t c 0x03 idx.toNat 0)) ∧
    ((d.core c).staged = [] → d.flag (coreUid c) 0xF008 0 = false → Completes (.brk c idx) s (fun t => d.Trapped t c 0x04 idx.toNat 0)) ∧
    (d.flag (coreUid c) 0xF008 0 = true → (d.core c).rep = .none →
      Completes (.brk c idx) s (fun t => t.halted c.val = true ∧ t.fld (coreUid c) 0xF010 2 4 = 5 ∧
        SMap.get (fun _ => none) t.resv c = none))

/-- ERET at S level (R152): level, EE and IPL from PPRIV, PEE and PIPL, the pc from S_EPC with bits [1:0] clear, and nothing else. A
reservation is not affected: it ends with the 128 retirements of R135, of which ERET is one. -/
def Obligations.ExceptionReturn : Prop :=
  ∀ (s : State) (c : CoreId) (d : Dev) (n : Nat) (far : Bool), s.Ready c d n far → (d.core c).priv = .s →
    let k := d.core c
    Completes (.eret c) s (fun t =>
      bits (t.core c).sStatus 0 2 = bits k.sStatus 2 2 ∧ bit (t.core c).sStatus 4 = bit k.sStatus 5 ∧
      bits (t.core c).sStatus 8 4 = bits k.sStatus 12 4 ∧
      (∀ i, i ≠ 0 → i ≠ 1 → i ≠ 4 → (i < 8 ∨ 11 < i) → bit (t.core c).sStatus i = bit k.sStatus i) ∧
      (t.core c).pc = BitVec.ofNat 64 (k.sEpc.toNat / 4 * 4) ∧ k.SameData (t.core c) ∧ (t.core c).astat = k.astat ∧ d.SameMem t ∧
      (∀ x, x ≠ c → t.core x = d.core x) ∧ (t.core c).sEpc = k.sEpc ∧ (t.core c).sCause = k.sCause ∧ (t.core c).sFaddr = k.sFaddr ∧
      (t.core c).sEvbase = k.sEvbase ∧ (t.core c).sScratch = k.sScratch ∧ (t.core c).sTbase = k.sTbase ∧
      ∀ r, SMap.get (fun _ => none) d.resv c = some r → 1 < r.left →
        SMap.get (fun _ => none) t.resv c = some { r with left := r.left - 1 })

/-- Causes 0x01 and 0x02: a word that encodes no instruction, a field value that is not legal (R108, R179), a control register that does
not exist (R153), WAITE in a replica (R142), WAITB without a grant (R143), and an S-level instruction or register at U level (R103, R104). -/
def Obligations.IllegalAndPrivileged : Prop :=
  ∀ (s : State) (c : CoreId) (d : Dev) (n : Nat) (far : Bool), s.Ready c d n far → (d.core c).staged = [] →
    let k := d.core c
    let takes (i : Instr) (cd inf : Nat) : Prop := Completes i s (fun t => d.Trapped t c cd inf 0)
    (∀ w : BitVec 32, decodeLys c w.toNat = none → takes (.undefinedInstruction c w) 1 0) ∧
    (∀ (i : Instr) (w : Nat), encodeLys i = some (c, w) → i.wf = false → takes i 1 0) ∧
    (∀ (rd : RIx) (idx : BitVec 12), ctrlListed idx.toNat = false →
      takes (.mfc c rd idx) 1 0 ∧ takes (.mtc c rd idx) 1 0 ∧ takes (.cset c rd rd idx) 1 0 ∧ takes (.cclr c rd rd idx) 1 0) ∧
    (k.replica = true → takes (.waite c) 1 0) ∧
    (∀ (rd : RIx) (cad : BitVec 4), SMap.get (fun _ => 0) d.kp.cads k.part / 2 ^ cad.toNat % 2 = 0 → takes (.waitb c rd cad) 1 cad.toNat) ∧
    (k.priv = .u → ∀ (rd ra : RIx) (imm : BitVec 16),
      (∀ i ∈ [Instr.eret c, .inv c ra imm, .tlbiAll c, .tlbiAsid c ra, .tlbiVaAsid c rd ra, .tlbiVa c ra], takes i 2 0) ∧
      (∀ idx : BitVec 12, 0x100 ≤ idx.toNat → idx.toNat ≤ 0x109 → takes (.mfc c rd idx) 2 0 ∧ takes (.mtc c ra idx) 2 0))

/-- The waits (R142, R143): WAITE and WAITB doze with the pc at the wait, or go on at once when the event is there, WAITB with the number of
the block in w[rd]; the wake-ups retire the wait. -/
def Obligations.Waits : Prop :=
  (∀ (s : State) (c : CoreId) (d : Dev) (n : Nat) (far : Bool), s.Ready c d n far →
    let k := d.core c
    (k.replica = false → d.eventAbove c = false →
      Completes (.waite c) s (fun t => (t.core c).run = .waite ∧ t.power (coreUid c) = 1 ∧ (t.core c).pc = ((d.sbFlush c).core c).pc)) ∧
    (k.replica = false → d.eventAbove c = true →
      Completes (.waite c) s (fun t => (t.core c).pc = k.pc + 4 ∧ k.SameData (t.core c) ∧ d.SameMem t ∧
        t.fld (coreUid c) 0x4500 48 8 = 1)) ∧
    (∀ (rd : RIx) (cad : BitVec 4), SMap.get (fun _ => 0) d.kp.cads k.part / 2 ^ cad.toNat % 2 = 1 →
      let prev := SMap.get (fun _ => 0) k.lastBlk (256 + cad.toNat)
      let d1 := d.sbFlush c
      let e := if prev ≠ 0 ∧ d1.takesPart k cad.toNat then d1.signalBlock k cad.toNat (prev - 1) else d1
      (e.waitbReady (e.core c) cad.toNat = none → Completes (.waitb c rd cad) s (fun t =>
        (t.core c).run = .waitb cad.toNat rd ∧ t.power (coreUid c) = 1 ∧ (t.core c).pc = (e.core c).pc)) ∧
      (∀ b, e.waitbReady (e.core c) cad.toNat = some b → e.Quiet c → Completes (.waitb c rd cad) s (fun t =>
        d.After e t c rd (BitVec.ofNat 64 (b % 2 ^ 48)) ∧ (t.core c).run = (e.core c).run)))) ∧
  (∀ (s : State) (c : CoreId), s.dev.power (coreUid c) ≤ 1 → s.dev.halted c.val = false → s.dev.Quiet c →
    ((s.dev.core c).run = .waite → s.dev.eventAbove c = true →
      Completes (.waiteWake c) s (fun t => (t.core c).run = .run ∧ t.power (coreUid c) = 0 ∧ (t.core c).pc = (s.dev.core c).pc + 4 ∧
        (s.dev.core c).SameData (t.core c) ∧ s.dev.SameMem t)) ∧
    (∀ (cad : Nat) (rd : RIx) (b : Nat), (s.dev.core c).run = .waitb cad rd → s.dev.waitbReady (s.dev.core c) cad = some b →
      Completes (.waitbReturn c) s (fun t => (t.core c).run = .run ∧ t.power (coreUid c) = 0 ∧ (t.core c).pc = (s.dev.core c).pc + 4 ∧
        (∀ x, (t.core c).rd x = if x = rd ∧ rd ≠ 0 then BitVec.ofNat 64 (b % 2 ^ 48) else (s.dev.core c).rd x) ∧ s.dev.SameMem t)))

/-- SYNC.C applies the writes that wait for it (R158); IFENCE discards what was fetched (R141, R241); the four forms of TLBI (R294, R295) first
empty the store buffer, then remove the cached leaves that they name and the whole walk cache. -/
def Obligations.SynchroniseAndInvalidate : Prop :=
  ∀ (s : State) (c : CoreId) (d : Dev) (n : Nat) (far : Bool), s.dev.gate c = .go d n far → (d.modCore c (fun k => { k with afterSync := [] })).Quiet c →
    let k := d.core c
    (∀ v : Word, k.afterSync = [(8, v)] → Completes (.syncC c) s (fun t => (t.core c).afterSync = [] ∧ k.SameData (t.core c) ∧ d.SameMem t ∧
      (t.core c).pc = k.pc + 4 ∧ bits (t.core c).ctrCfg 0 9 = bits v 0 9 ∧ bit (t.core c).ctrCfg 16 = bit v 16)) ∧
    (k.afterSync = [] → Completes (.ifence c) s (fun t => d.Next t c ∧ k.SameData (t.core c) ∧ (t.core c).fetchBuf = none)) ∧
    (k.afterSync = [] → k.priv = .s → ∀ rd ra : RIx,
      let e := d.sbFlush c
      let asid (r : RIx) : Nat := (k.rd r).toNat % 2 ^ 12
      let size (t : TlbEntry) : Nat := 2 ^ (39 - 9 * t.level)
      let maps (t : TlbEntry) : Bool := (k.rd ra).toNat / size t == t.va / size t
      e.Quiet c → ∀ p ∈ ([(.tlbiAll c, fun _ => false), (.tlbiAsid c ra, fun t => t.g || t.asid != asid ra),
          (.tlbiVaAsid c rd ra, fun t => !(maps t && (t.g || t.asid == asid rd))), (.tlbiVa c ra, fun t => !maps t)] :
          List (Instr × (TlbEntry → Bool))),
        Completes p.1 s (fun t => (t.core c).tlb = (e.core c).tlb.filter p.2 ∧ (t.core c).walkCache = [] ∧ (t.core c).fetchBuf = none ∧
          (t.core c).pc = k.pc + 4 ∧ (e.core c).SameData (t.core c) ∧ e.SameMem t))

/-- The events of a core: the eligible event of highest priority is entered with S_EPC at the pc (R144), also out of a divide (R242); staged
writes take effect when due (R154); a deferred store error enters cause 0x13 (R129); the clearing walks end (R226, R257). -/
def Obligations.CoreEvents : Prop :=
  ∀ (s : State) (c : CoreId),
    let d := s.dev
    let k := d.core c
    (d.canRun c = true → k.staged = [] → k.deferred = none → ∀ v p, d.eligible c = some (v, p) → v < 256 → p < 16 →
      (d.inboxClear c v).Quiet c →
      let entered (t : Dev) : Prop := ∃ e : Dev, t = e.entryFetch c ∧
        (d.inboxClear c v).Entered e c 0x20 v p 0 k.pc (k.sEvbase + 0x200) ∧ k.SameData (e.core c) ∧
        e.flag (coreUid c) (inboxOff v) (v % 64) = false
      Completes (.eventEntry c false) s entered) ∧
    (d.canRun c = true → k.deferred = none → ∀ v : Word, k.staged = [⟨0x107, v, 0⟩] →
      Completes (.stagedWriteApply c) s (fun t => (t.core c).staged = [] ∧ bits (t.core c).sAsid 0 12 = bits v 0 12 ∧ k.SameData (t.core c) ∧
        (t.core c).pc = k.pc ∧ d.SameMem t)) ∧
    (d.canRun c = true → k.staged = [] → ∀ va x, k.deferred = some (va, x) → va < 2 ^ 64 → x < 2 ^ 32 → d.Quiet c →
      Completes (.deferredStoreError c) s (fun t => d.Trapped t c 0x13 x (BitVec.ofNat 64 va))) ∧
    Completes (.predictorInitDone c) s (fun t => t.flag (coreUid c) 0x4000 2 = false ∧ k.SameData (t.core c) ∧ d.SameMem t) ∧
    (d.flag (coreUid c) 0x4000 3 = true → Completes (.lsInitDone c) s (fun t => t.flag (coreUid c) 0x4000 3 = false ∧
      (∀ off, off < 2 ^ 17 → SMap.get zeroByte t.localStore (lsKey c off) = 0) ∧
      (∀ a, a / 2 ^ 17 ≠ c.val → SMap.get zeroByte t.localStore a = SMap.get zeroByte d.localStore a) ∧ k.SameData (t.core c)))

/-- A walk on its own (R230, R271): for the oldest instruction it caches the leaf, or takes the cause of Table 6-5 that it meets; and the
compare-and-write of a leaf's A and D bits (R276), which leaves an entry that has changed and caches one that it wrote. -/
def Obligations.WalksAndUpdates : Prop :=
  ∀ (s : State) (c : CoreId) (va : BitVec 48) (store : Bool),
    let d := s.dev
    let kind : AKind := if store then .store else .load
    d.canRun c = true → bit (d.core c).sTbase 0 = true → d.walkWaits c kind [⟨va.toNat, 1, 1⟩] = false →
    (∀ d1 p, d.pageOf c va.toNat kind = (d1, .ok p) → Completes (.pageWalk c va store true) s (fun t => t = d1)) ∧
    (∀ d1 x, d.pageOf c va.toNat kind = (d1, .error x) → d1.Quiet c → (d1.core c).staged = [] → x.code < 256 → x.info < 2 ^ 32 →
      (d1.core c).pc = (d.core c).pc →
      Completes (.pageWalk c va store true) s (fun t => d1.Trapped t c x.code x.info (BitVec.ofNat 64 x.faddr))) ∧
    (∀ d1 p ps u d2 e, d.checkItems c kind none [⟨va.toNat, 1, 1⟩] = (d1, .ok (p :: ps)) → p.upd = some u →
      d1.atomicAt c (d1.relocate c u.win u.ea) 8 false (fun old => if old = u.seen.toNat then some u.new.toNat else none) = (d2, .ok u.seen.toNat) →
      e = d2.modCore c (fun k => k.tlbPut u.ent) →
      Completes (.adUpdate c va store u.seen) s (fun t => t = e ∧ (t.core c).tlb.head? = some u.ent))

/-! Caches, homes and memory channels (chapters 7 and 8). -/

/-- A codeword that a channel holds (R358, R361, R385): what is written is what is read, with check symbols that are good, and no byte outside
the codeword's places differs. -/
def Obligations.SdramCodewords : Prop :=
  ∀ (d : Dev) (ch : Fin 12) (l src : Nat) (x : BitVec 512) (wb : Bool), l % 64 = 0 → l < 2 ^ 38 → d.fenced (mcUid ch) = false →
    d.initialised ch l = true → d.crumbling (mcUid ch) = false →
    ∃ e, d.mcWrite ch l x [] = (e, .ok ()) ∧ e.mcRead ch l src wb = (e, .ok x) ∧ e.cores = d.cores ∧ e.regs = d.regs ∧ e.l2 = d.l2 ∧
      (∀ a, (∀ p ∈ d.writePlaces ch l, a < sdKey ch p ∨ sdKey ch p + 64 ≤ a) → SMap.get zeroByte e.sdram a = SMap.get zeroByte d.sdram a) ∧
      (SMap.wf zeroByte d.sdram = true → SMap.wf zeroByte e.sdram = true)

/-- The requests that reach homes (R316 to R322): a miss or an upgrade is served for the requester's L2; a recall leaves the owner a shared copy;
an invalidation leaves no L2 that the directory names with the sector; a write-back leaves the L2 without it; an atomic
operation answers the old bytes; an uncached access is served at the home. -/
def Obligations.HomeRequests : Prop :=
  ∀ (s : State) (c : CoreId) (pa : BitVec 48),
    let d := s.dev
    let a := pa.toNat
    let rq := d.rqOf c
    (cacheable a = true → (d.l2Sector rq.cl a).st = .i → ∀ e x,
      (d.l2Get rq a 0 false false = (e, .ok x) → Completes (.homeReadRequest c pa) s (fun t => t = e)) ∧
      (d.l2Own rq a 0 false = (e, .ok x) → Completes (.homeReadExclusive c pa) s (fun t => t = e))) ∧
    ((d.l2Sector rq.cl a).st = .s → ∀ e x, d.l2Own rq a 0 false = (e, .ok x) → Completes (.homeUpgrade c pa) s (fun t => t = e)) ∧
    (∀ h, d.homeOf rq a = .ok h → d.homeAnswers h = none →
      (∀ cl, (d.homeSec h a).dir = .ow cl → Completes (.homeRecall c pa) s (fun t => (t.homeSec h a).dir = .sh [cl])) ∧
      Completes (.homeInvalidation c pa) s (fun t => (t.homeSec h a).dir = .u ∧
        ∀ cl ∈ dirClusters (d.homeSec h a).dir, (t.l2Sector cl a).st = .i)) ∧
    (((d.l2Check rq.cl (a / 64 * 64)).l2Sector rq.cl (a / 64 * 64)).st = .m →
      Completes (.homeWriteback c pa) s (fun t => (t.l2Sector rq.cl (a / 64 * 64)).st = .i)) ∧
    (∀ (wide wt : Bool) (op : BitVec 2) (x y : Word) (e : Dev) (old : Nat), cacheable a = true → a % (if wide then 8 else 4) = 0 →
      d.atomicAt c a (if wide then 8 else 4) wt (atomicFn op.toNat (if wide then 8 else 4) x y) = (e, .ok old) →
      Completes (.homeAtomic c pa wide wt op x y) s (fun t => t = e.answer (.data (natLe (if wide then 8 else 4) old)))) ∧
    (∀ (size : Fin 65) (w : Option (List Byte)) (e : Dev) (ans : Answer), cacheable a = true →
      (d.serve ⟨.core c, (d.core c).priv, (d.core c).part, (d.core c).rep, a, size.val, .nc, false, w⟩ = (e, ans) →
        Completes (.homeUncachedAccess (.core c) pa size w) s (fun t => t = e.answer ans)) ∧
      (d.serve ⟨.keeper, .k, 0, .none, a, size.val, .nc, false, w⟩ = (e, ans) →
        Completes (.homeUncachedAccess .keeper pa size w) s (fun t => t = e.answer ans)))

/-- The maintenance of a cluster's L2 as a cache (R326, R327, R332): ageing, the end of a clearing walk, the operations by set and way and on the
whole cache that a write of CM_OP starts, and their end. -/
def Obligations.CacheMaintenance : Prop :=
  ∀ (s : State) (cl : Fin 72) (u : BitVec 16), u.toNat = l2Uid cl →
    let d := s.dev
    (d.fld (l2Uid cl) 0x4000 8 16 ≠ 0 → Completes (.ageingPeriod u) s (fun t => ∀ set way l, set < 512 → way < 16 →
      d.l2Line cl set way = some l → t.l2Line cl set way = some { l with age := min 3 (l.age + 1) })) ∧
    (d.flag (l2Uid cl) 0x4000 32 = true → Completes (.cacheInitDone u) s (fun t => t.flag (l2Uid cl) 0x4000 32 = false ∧
      ∀ set way, set < 512 → way < 16 → t.l2Line cl set way = none)) ∧
    (∀ (set : BitVec 11) (way : BitVec 4) (r : RegRow) (i : Nat), set.toNat < 512 → r.name = .cmOp → d.flag (l2Uid cl) 0x4108 0 = false →
      let word (op st wy : Nat) : Word := BitVec.ofNat 64 (op + 2 ^ 8 * st + 2 ^ 24 * wy)
      let busy := d.setReg (l2Uid cl) 0x4108 1
      (d.Takes .keeper (l2Uid cl) 0x4100 (word 1 set.toNat way.toNat) r i → Completes (.cmCleanSetWay u set way) s (fun t =>
        t = (busy.l2SetWay cl set.toNat way.toNat true false).answer (.data []))) ∧
      (d.Takes .keeper (l2Uid cl) 0x4100 (word 2 set.toNat way.toNat) r i → Completes (.cmInvSetWay u set way) s (fun t =>
        t = (busy.l2SetWay cl set.toNat way.toNat false true).answer (.data []) ∧ t.l2Line cl set.toNat way.toNat = none ∧
        t.flag (l2Uid cl) 0x4108 0 = true)) ∧
      (d.Takes .keeper (l2Uid cl) 0x4100 (word 3 set.toNat way.toNat) r i → Completes (.cmFlushSetWay u set way) s (fun t =>
        t = (busy.l2SetWay cl set.toNat way.toNat true true).answer (.data []))) ∧
      (d.Takes .keeper (l2Uid cl) 0x4100 4 r i → Completes (.cmFlushAll u) s (fun t =>
        t = (busy.wholeCacheOp (l2Uid cl) true true).answer (.data []))) ∧
      (d.Takes .keeper (l2Uid cl) 0x4100 5 r i → Completes (.cmCleanAll u) s (fun t =>
        t = (busy.wholeCacheOp (l2Uid cl) true false).answer (.data [])))) ∧
    (d.flag (l2Uid cl) 0x4108 0 = true → ∀ failed : Bool, Completes (.cmOpDone u failed) s (fun t =>
      t.flag (l2Uid cl) 0x4108 0 = false ∧ t.flag (l2Uid cl) 0x4108 1 = true ∧
      t.flag (l2Uid cl) 0x4108 2 = (failed || d.flag (l2Uid cl) 0x4108 2) ∧ t.l2 = d.l2))

/-- The memory channels (R353 to R389): reads and writes as their codewords are, and the steps of bring-up, sparing, mirroring, scrub and
refresh with the registers that they change. -/
def Obligations.MemoryChannels : Prop :=
  ∀ (s : State) (ch : Fin 12),
    let d := s.dev
    let u := mcUid ch
    (∀ (pa : BitVec 48) (x : BitVec 512) (stay : Bool) (bs : List Byte) (e : Dev),
      (∀ r, (d.touchAddr pa.toNat stay).sdramRead (pa.toNat / 64 * 64) 0 = (e, .ok r) →
        Completes (.memRead pa stay) s (fun t => t = e.answer (.data (natLe 64 r.toNat)))) ∧
      ((d.touchAddr pa.toNat stay).sdramWrite (pa.toNat / 64 * 64) x [] = (e, .ok ()) →
        Completes (.memWrite pa x stay) s (fun t => t = e.answer (.data []))) ∧
      (bs ≠ [] → pa.toNat % 64 + bs.length ≤ 64 → (d.touchAddr pa.toNat true).sdramMerge pa.toNat bs = (e, .ok ()) →
        Completes (.memPartialWrite pa bs) s (fun t => t = e.answer (.data [])))) ∧
    (∀ (cfg : BitVec 7) (p0 p1 : Word), d.fld u 0x4030 0 2 = 0 →
      (bits cfg 0 3 ≤ 4 → bits cfg 3 2 = 1 ∨ (bits cfg 3 2 = 2 ∧ p0 = p1 ∧ bits cfg 0 3 ≤ 2) →
        Completes (.spdRead ch true cfg p0 p1) s (fun t => t.fld u 0x4030 0 2 = 1 ∧ t.fld u 0x4000 0 7 = cfg.toNat ∧
          t.ch.populated.contains ch.val = true)) ∧
      Completes (.spdRead ch false cfg p0 p1) s (fun t => t.fld u 0x4030 0 2 = 0 ∧ t.ch.populated.contains ch.val = false)) ∧
    (d.fld u 0x4030 0 2 = 1 → d.fld u 0x4030 2 2 = 0 → d.ch.trained.contains ch.val = true →
      Completes (.storedTrainingLoad ch true) s (fun t => t.fld u 0x4030 2 2 = 2 ∧ t.fld u 0x4030 0 2 = 1)) ∧
    (d.fld u 0x4030 0 2 = 1 → d.ch.populated.contains ch.val = true →
      Completes (.fullTraining ch) s (fun t => t.fld u 0x4030 2 2 = 1 ∧ t.fld u 0x4030 0 2 = 1)) ∧
    (d.fld u 0x4030 2 2 = 1 → d.flag hbUid 0x9030 0 = false → d.flag hbUid 0x9030 15 = true →
      Completes (.trainingRecordWrite ch) s (fun t => t.ch.trained.contains ch.val = true)) ∧
    (d.fld u 0x4030 0 2 = 1 → d.fld u 0x4030 2 2 ≠ 0 → d.fld u 0x4030 9 9 < d.capacity ch →
      Completes (.initBlockDone ch) s (fun t =>
        let b := d.fld u 0x4030 9 9
        t.fld u 0x4030 9 9 = b + 1 ∧ t.fld u 0x4030 0 2 = (if b + 1 = d.capacity ch then 2 else 1) ∧
        (∀ x, x < 2 ^ 30 → SMap.get zeroByte t.sdram (sdKey ch (b * 2 ^ 30) + x) = 0) ∧
        (∀ x, x < 2 ^ 24 → SMap.get (fun _ => []) t.sdramErr (cwKey ch (b * 2 ^ 30) + x) = ([] : List Nat)))) ∧
    (∀ n : Fin 16, let a := offRange n + 8
      d.flag (hubUid 0) a 13 = true → d.flag (hubUid 0) a 14 = true →
      (∀ x, x < 12 → d.flag (hubUid 0) a x = true → d.fenced (mcUid x) = false ∧ d.fenced (mcUid (x + 6)) = false) →
      Completes (.mirrorRebuildDone n) s (fun t => t.flag (hubUid 0) a 14 = false ∧ t.flag (hubUid 1) a 14 = false ∧
        ∀ x, x < 12 → d.flag (hubUid 0) a x = true → t.ch.stale.contains x = false)) ∧
    (d.fld u 0x4000 13 2 = 1 → Completes (.spareCopyDone ch) s (fun t => t.fld u 0x4000 13 2 = 2 ∧ t.fld u 0x4000 15 2 = d.fld u 0x4000 10 2 ∧
      t.flag u 0x4000 12 = false)) ∧
    (d.flag u 0x4010 0 = true → d.fld u 0x4030 0 2 = 2 → SMap.get (fun _ => 0) d.ch.scrub ch + 1 < d.capacity ch * 2 ^ 24 →
      Completes (.patrolScrubRead ch) s (fun t => SMap.get (fun _ => 0) t.ch.scrub ch = SMap.get (fun _ => 0) d.ch.scrub ch + 1)) ∧
    (d.fld u 0x4030 0 2 = 2 → Completes (.refreshDue ch) s (fun t => t.fld u 0x4030 6 3 =
      (if d.fld u 0x4030 4 2 = 2 then (if d.fld u 0x4030 6 3 < 4 then d.fld u 0x4030 6 3 + 1 else d.fld u 0x4030 6 3)
        else d.fld u 0x4030 6 3 - 1) ∧ t.sdram = d.sdram)) ∧
    (∀ half : Bool, Completes (.refreshRatePoll ch half) s (fun t => t.ch.halfRefi.contains ch.val = half ∧ t.regs = d.regs)) ∧
    (∀ bank : Fin 1024, Completes (.openRowIdleClose ch bank) s (fun t => SMap.get (fun _ => 0) t.ch.openRow (ch.val * 1024 + bank.val) = 0 ∧
      t.regs = d.regs ∧ t.sdram = d.sdram)) ∧
    Completes (.zqCalibration ch) s (fun t => t = d)

/-! Memory form, and register accesses (chapters 1 and 2). -/

/-- Every step keeps the canonical form of the byte memories, in every state, whatever command is at the front of the queue. -/
def Obligations.StepKeepsMemoryForm : Prop :=
  ∀ s t : State, s.dev.memWf = true → step s = .next t → t.dev.memWf = true

/-- A request that arrives (R7, R26, R607, R609), and accesses to registers by their address (R8, R9, R18, R25, R83, R555, R556): what is
answered, what a write stores, what a read returns and clears, and what is refused. -/
def Obligations.RegisterAccesses : Prop :=
  ∀ s : State,
    let d := s.dev
    (∀ q : Req,
      (d.reqWindow q = false → Completes (.transactionArrival q) s (fun t => t = d.answer (.err errNotPermitted))) ∧
      (d.reqWindow q = true →
        (∀ e a, d.serveHow q = 0 → d.serve q = (e, a) → Completes (.transactionArrival q) s (fun t => t = e.answer a)) ∧
        (d.serveHow q = 2 → Completes (.transactionArrival q) s (fun t => t.resp = .err errEpochRetry ∧ t.regs = d.regs ∧ d.SameMem t ∧
          t.cores = d.cores ∧ t.ep.retry = d.ep.retry ++ [(d.senderOf q.agent, q)])) ∧
        (d.serveHow q = 3 → Completes (.transactionArrival q) s (fun t => t.resp = d.resp ∧ t.regs = d.regs ∧ d.SameMem t ∧ t.cores = d.cores ∧
          ∃ u, receiverOf q = some u ∧ t.ep.held = d.ep.held ++ [(u, q)])))) ∧
    (∀ (a : Agent) (pa : BitVec 48) (v : Word) (u off : Nat) (r : RegRow) (i : Nat), pa.toNat = ctlAddr u off →
      (d.Takes a u off v r i → plainReg r.name = true →
        Completes (.regWrite a pa 8 v) s (fun t => t = (d.regStore u r i v).answer (.data []) ∧
          ((writeFields r.fields (d.reg u off) v).2 = false → combos d u r.name i = [] →
            t.reg u off = (writeFields r.fields (d.reg u off) v).1 ∧ t.cores = d.cores ∧ d.SameMem t ∧
            ∀ u' o', regKey u' o' ≠ regKey u off → t.reg u' o' = d.reg u' o'))) ∧
      (∀ peek : Bool, d.Gives a u off peek r i → r.name ≠ .pcieCfgd → r.name ≠ .coreExec →
        Completes (.rcRead a pa peek) s (fun t => t.resp = Answer.word (readView r (d.regValue u r i)) ∧
          (peek = true → t.regs = d.regs) ∧
          (peek = false → t.reg u off = d.reg u off &&& ~~~(BitVec.ofNat 64 (rcMask r.fields))) ∧ t.cores = d.cores ∧ d.SameMem t ∧
          ∀ u' o', regKey u' o' ≠ regKey u off → t.reg u' o' = d.reg u' o'))) ∧
    (∀ (pa : BitVec 48) (size : BitVec 4) (v : Word) (u off : Nat), pa.toNat = ctlAddr u off → u < 0xC000 → off < 0x10000 →
      d.serveHow (d.regReq .keeper pa.toNat size.toNat false (some v)) = 0 →
      let done (e : Nat) : Prop := Completes (.regWrite .keeper pa size v) s (fun t => t = d.answer (.err e))
      (unitKind u = none → done errNoTarget) ∧
      (unitKind u ≠ none → unitKind u ≠ some .pcie →
        (∀ e, d.unitDown u true off = some e → done e) ∧
        (d.unitDown u true off = none →
          (size.toNat ≠ 8 ∨ off % 8 ≠ 0 → done errMalformed) ∧
          (size.toNat = 8 → off % 8 = 0 → regAt u off = none → done errNoTarget)))) ∧
    (∀ (g : Fin 4) (v : Word), d.pciePort g = true → d.flag (pcieUid g) 0x4000 7 = true → d.power (pcieUid g) < 3 → d.fenced (pcieUid g) = false →
      d.epServe d.keeperU (pcieUid g) = 0 →
      let a := d.fld (pcieUid g) 0x4010 0 32
      Completes (.pcieConfigRead .keeper g) s (fun t => t.nt.pcie = d.nt.pcie ++ [⟨g, 0, 4, d.dt⟩] ∧
        t.sent = d.sent ++ [.pcie g 0 a 0 4 d.dt]) ∧
      Completes (.pcieConfigWrite .keeper g v) s (fun t => t.nt.pcie = d.nt.pcie ++ [⟨g, 1, 4, d.dt⟩] ∧
        t.sent = d.sent ++ [.pcie g 1 a (v.toNat % 2 ^ 32) 4 d.dt] ∧ t.reg (pcieUid g) 0x4018 = BitVec.ofNat 64 (v.toNat % 2 ^ 32)) ∧
      (∀ (off : BitVec 16), 0x8000 ≤ off.toNat → off.toNat < 0xF000 → off.toNat % 8 = 0 →
        let ap := d.reg (pcieUid g) (0x4100 + 8 * (off.toNat / 4096 - 8))
        bit ap 0 = true → Completes (.pcieApertureAccess .keeper g off true none) s (fun t =>
          t.nt.pcie = d.nt.pcie ++ [⟨g, 2, 8, d.dt⟩] ∧ t.sent = d.sent ++ [.pcie g 2 (bits ap 12 52 * 4096 + off.toNat % 4096) 0 8 d.dt])))

/-! Registers with a rule of their own. -/

/-- Writes of registers whose rule is their own: stall ports reopen (R82), a stall bound in its class's range is taken (R78, R79), a load of the
time base waits for a mark (R89), a record is freed (R699), Harebell's latches are set and cleared (R711), sentinel and watchdogs
restart (R718, R721), an entry is committed to the log (R724), Crumble opens by its key (R729), a cadence is enabled
and disabled (R433), and memory, stream, quad and ring registers are written. -/
def Obligations.RegisterRules : Prop :=
  ∀ s : State,
    let d := s.dev
    (∀ (u : BitVec 16) (mask : Word), d.Takes .keeper u.toNat 0x1008 mask regStallStatus 0 →
      Completes (.stallReopen u mask) s (fun t => t.reg u.toNat 0x1008 = d.reg u.toNat 0x1008 &&& ~~~mask ∧ t.resp = .data [] ∧
        t.cores = d.cores ∧ d.SameMem t)) ∧
    (∀ (u : BitVec 16) (p : Fin 64) (v : Word), d.Takes .keeper u.toNat (0x1100 + 8 * p.val) v regStallBound p.val →
      let b := bits v 0 20
      let cls := (port u.toNat p.val).2
      Completes (.stallBoundWrite u p v) s (fun t =>
        (classMin cls ≤ b ∧ b ≤ classMax cls → t.fld u.toNat (0x1100 + 8 * p.val) 0 20 = b ∧
          t.fld u.toNat 0x1000 0 20 = (t.maxBound u.toNat (nports u.toNat) + 32) % 2 ^ 20) ∧
        (b < classMin cls ∨ classMax cls < b → t.reg u.toNat (0x1100 + 8 * p.val) = d.reg u.toNat (0x1100 + 8 * p.val)))) ∧
    (∀ v : Word, d.Takes .keeper hbUid 0x8018 v regTbLoad 0 →
      (d.flag hbUid 0x8000 5 = true → Completes (.tbLoadWrite v) s (fun t => t.tm.load = some (bits v 13 51) ∧ t.dt = d.dt)) ∧
      (d.flag hbUid 0x8000 5 = false → Completes (.tbLoadWrite v) s (fun t => t = d.answer (.err errRefused)))) ∧
    (d.Takes .keeper hbUid 0x8000 (setBit (d.reg hbUid 0x8000) 5 true) regTbCtl 0 → d.fld hbUid 0x8000 0 3 ≤ 4 →
      Completes .loadEnClear s (fun t => t.flag hbUid 0x8000 5 = false ∧ t.fld hbUid 0x8000 0 3 = d.fld hbUid 0x8000 0 3)) ∧
    (∀ (ch : Fin 12) (cfg : Word), d.Takes .keeper (mcUid ch) 0x4000 (setBit cfg 12 true) regMcCfg 0 →
      d.flag (mcUid ch) 0x4000 12 = false → Completes (.spareGo ch cfg) s (fun t =>
        (bit cfg 7 = true → d.fld (mcUid ch) 0x4000 13 2 = 0 → t.fld (mcUid ch) 0x4000 13 2 = 1) ∧
        (bit cfg 7 = false → t.fld (mcUid ch) 0x4000 13 2 = d.fld (mcUid ch) 0x4000 13 2 ∧ t.flag (mcUid ch) 0x4000 12 = false))) ∧
    (∀ (q : Fin 10) (v : Word), d.Takes .keeper (quadUid q) 0x4000 v regLqCfg 0 →
      (bits v 0 5 = bits (d.reg (quadUid q) 0x4000) 0 5 →
        Completes (.laneModeChange q v) s (fun t => t = (d.regStore (quadUid q) regLqCfg 0 v).answer (.data []))) ∧
      (bits v 0 5 ≠ bits (d.reg (quadUid q) 0x4000) 0 5 → Completes (.laneModeChange q v) s (fun t =>
        t = ((d.quadDown q.val).regStore (quadUid q) regLqCfg 0 v).answer (.data [])))) ∧
    (∀ (a : Agent) (r : Fin 84) (v : Word),
      let u := (ringUnit r).1
      let i := (ringUnit r).2
      let o := 0x4200 + 16 * i
      let base := if r.val < 80 then regRingBase else regMgtRingBase
      let idx := if r.val < 80 then regRingIdx else regMgtRingIdx
      let w := setBit v 0 true
      (d.Takes a u o w base i →
        (d.inRange (bits v 12 36 * 4096) (16 * 2 ^ bits v 1 4) = true →
          Completes (.ringEnable a r v) s (fun t => t = (d.regStore u base i w).answer (.data []))) ∧
        (d.inRange (bits v 12 36 * 4096) (16 * 2 ^ bits v 1 4) = false → Completes (.ringEnable a r v) s (fun t => t = d.answer (.err errRefused)))) ∧
      (d.Takes a u o (setBit (d.reg u o) 0 false) base i → Completes (.ringDisable a r) s (fun t =>
        t = (d.regStore u base i (setBit (d.reg u o) 0 false)).answer (.data []) ∧ t.flag u o 0 = false)) ∧
      (∀ tail : BitVec 16, d.Takes a u (o + 8) (tail.setWidth 64) idx i → tail.toNat < 2 ^ d.fld u o 1 4 →
        Completes (.ringTailWrite a r tail) s (fun t => t.fld u (o + 8) 0 16 = tail.toNat ∧ t.fld u (o + 8) 16 16 = d.fld u (o + 8) 16 16))) ∧
    (∀ mask : BitVec 10, d.Takes .keeper hbUid 0x9018 (mask.setWidth 64) regPadRelease 0 → d.hbPlaying = false →
      Completes (.padReleaseWrite mask) s (fun t => (∀ g, g < 10 → t.flag hbUid 0x9010 g = (d.flag hbUid 0x9010 g && !mask.getLsbD g)) ∧
        t.pw.padWait = d.pw.padWait)) ∧
    (∀ u : BitVec 16, d.Takes .keeper u.toNat 0x2000 1 regErrStatus 0 →
      Completes (.errValidClear u) s (fun t => t.reg u.toNat 0x2000 = 0 ∧ t.reg u.toNat 0x2008 = d.reg u.toNat 0x2008 ∧ t.cores = d.cores)) ∧
    (∀ (set clear : BitVec 7) (msg6 : BitVec 4),
      (∀ v : Word, v = BitVec.ofNat 64 (set.toNat + 2 ^ 16 * msg6.toNat) → d.Takes .keeper hbUid 0xB008 v regHbCmd 0 →
        Completes (.hbCmdSet set msg6) s (fun t =>
          (∀ x, x < 7 → t.hb.latch.contains x = (d.hb.latch.contains x || set.getLsbD x)) ∧
          t.hb.msg6 = if set.getLsbD 6 then msg6.toNat else d.hb.msg6)) ∧
      (∀ v : Word, v = BitVec.ofNat 64 (set.toNat + 256 * clear.toNat + 2 ^ 16 * msg6.toNat) → d.Takes .keeper hbUid 0xB008 v regHbCmd 0 →
        Completes (.hbCmdClear clear set msg6) s (fun t =>
          ∀ x, x < 7 → t.hb.latch.contains x = ((d.hb.latch.contains x && !clear.getLsbD x) || set.getLsbD x)))) ∧
    (d.Takes .keeper hbUid 0xA008 1 regSentPet 0 → Completes (.sentinelPet .keeper) s (fun t =>
      t.sv.sentAt = d.dt ∧ t.sv.sentMs = d.fld hbUid 0xA000 0 14 ∧ t.sv.expired = false ∧ t.regs = d.regs)) ∧
    (∀ (a : Agent) (l : Fin 256),
      let u := mbxUid (d.activeHub 11)
      (d.Takes a u (0x8100 + 8 * l.val) 1 regWdogPet l.val → Completes (.watchdogPet a l) s (fun t =>
        t.fld mbxU (offWdog l) 36 2 = 0 ∧
        SMap.get (fun _ => 0) t.sv.wdogAt l.val = (if d.flag mbxU (offWdog l) 0 then d.dt + 1 else 0))) ∧
      (∀ v : Word, d.Takes a u (offWdog l) v regWdogCfg l.val → Completes (.watchdogConfigWrite a l v) s (fun t =>
        t = ((d.regStore mbxU regWdogCfg l.val v).wdogStart l.val).answer (.data [])))) ∧
    (∀ v : Word, d.Takes .keeper hbUid 0xC048 v regElogIn 3 → d.flag hbUid 0xC000 0 = false ∨ d.flag hbUid 0xC000 27 = false →
      Completes (.elogInCommit v) s (fun t =>
        let h := d.fld hbUid 0xC000 16 11
        t.elogSeq = d.elogSeq + 1 ∧ t.fld hbUid 0xC000 16 11 = (h + 1) % 2048 ∧
        (SMap.get (fun _ => []) t.elog h).take 8 = natLe 8 (d.reg hbUid 0xC030).toNat)) ∧
    (∀ (u : BitVec 16) (key : Word), d.Takes .keeper u.toNat 0x3008 key regCrbKey 0 →
      Completes (.crumbleUnlock u key) s (fun t => t.flag u.toNat 0x3000 0 = (d.flag u.toNat 0x3000 0 || decide (key = d.sv.rhKey)))) ∧
    (∀ (c : Fin 16) (cfg : Word), d.Takes .keeper (hubUid 0) (0x7000 + 16 * c.val) (setBit cfg 0 true) regCadCfg c.val → d.cadEn c = false →
      bits cfg 2 3 ≤ 5 → bits cfg 32 8 < 8 * 2 ^ bits cfg 2 3 →
      Completes (.cadenceEnable c cfg) s (fun t => t.cadEn c = true ∧ t.reg (hubUid 0) (0x7008 + 16 * c.val) = BitVec.ofInt 64 d.netPhase ∧
        opt t.au.first c.val = some (t.blkFrom c.val (d.dt + 64000)).toNat ∧ t.reg (hubUid 0) (0x7100 + 8 * c.val) = 0)) ∧
    (∀ c : Fin 16, d.Takes .keeper (hubUid 0) (0x7000 + 16 * c.val) (setBit (d.cadCfg c) 0 false) regCadCfg c.val → d.cadEn c = true →
      bits (d.cadCfg c) 2 3 ≤ 5 → bits (d.cadCfg c) 32 8 < 8 * 2 ^ bits (d.cadCfg c) 2 3 →
      Completes (.cadenceDisable c) s (fun t => t.cadEn c = false ∧ t.cadPhase c = d.cadPhase c ∧
        (∀ b, d.blkNow c = some b → opt t.au.stop c.val = some b) ∧ (d.blkNow c = none → opt t.au.first c.val = none))) ∧
    (∀ (se : Fin 4) (tx : Bool) (st : Fin 1024) (v : Word), v = BitVec.ofNat 64 (st.val + 1024 * tx.toNat) →
      d.Takes .keeper (seUid se) 0x5028 v regSeReload 0 →
      Completes (.seReload se tx st) s (fun t => t = (d.seReload se.val tx st.val).answer (.data [])))

/-! Events, inboxes, mailboxes (chapter 9). -/

/-- Event sources (R399 to R404), the inbox (R407), mailboxes and doorbells (R411, R412, R414) and the proxies (R544): what each command leaves
in the registers, and the answer where a mailbox is full or an acknowledge has nothing to acknowledge. -/
def Obligations.EventsAndMailboxes : Prop :=
  ∀ s : State,
    let d := s.dev
    let e := evcUid 0
    (∀ n : BitVec 12, let a := offEvSrc n.toNat
      (d.flag e a 1 = false → Completes (.eventEdge n) s (fun t => t.flag e a 40 = true ∧ t.evLevel = d.evLevel ∧ t.cores = d.cores)) ∧
      (d.flag e a 1 = true → Completes (.eventEdge n) s (fun t => t = d) ∧
        ∀ on : Bool, Completes (.eventLevelChange n on) s (fun t => t.evLevel.contains n.toNat = on ∧ t.regs = d.regs ∧
          ∀ m, m ≠ n.toNat → t.evLevel.contains m = d.evLevel.contains m)) ∧
      (d.sourceReady n.toNat = false → Completes (.eventMessageDelivery n) s (fun t => t = d)) ∧
      (∀ c v p, d.sourceReady n.toNat = true → d.fld e a 4 2 = 0 → (d.coresOf (d.fld e a 16 8)).head? = some c →
        v = d.fld e a 32 8 → p = d.fld e a 24 4 →
        (d.coreHeld c = false → Completes (.eventMessageDelivery n) s (fun t => t.flag (coreUid c) (inboxOff v) (v % 64) = true ∧
          p + 1 ≤ SMap.get (fun _ => 0) (t.core c).inboxPri v ∧
          (d.flag e a 1 = false → t.flag e a 40 = false) ∧ (d.flag e a 1 = true → t.flag e a 41 = true) ∧
          (d.core c).SameData (t.core c))) ∧
        (d.coreHeld c = true → Completes (.eventMessageDelivery n) s (fun t => t.evKept = d.evKept ++ [(d.fld e a 16 8, v, p, n.toNat)] ∧
          t.pw.wakeAsked.contains (coreCluster c) = true ∧ (d.flag e a 1 = false → t.flag e a 40 = true) ∧ t.cores = d.cores))) ∧
      (∀ w : Agent, d.Takes w (evcUid (d.activeHub 10)) a (setBit (d.reg e a) 42 true) regEvSrc n.toNat → d.flag e a 1 = true →
        fixedSense n.toNat ≠ some false → d.levelActive n.toNat = false →
        Completes (.eventEoi w n) s (fun t => t.flag e a 41 = false)) ∧
      (∀ (c : CoreId) (v : Word), d.Takes (.core c) (evcUid (d.activeHub 10)) a v regEvSrc n.toNat → bit v 42 = false →
        Completes (.eventSourceSWrite c n v) s (fun t => t.reg e a = setBit (d.reg e a) 0 (bit v 0) ∧ t.resp = .data []))) ∧
    (∀ (w : Agent) (c : CoreId) (k : Fin 4) (mask : Word), d.Takes w (coreUid c) (0x4400 + 8 * k.val) mask regCoreInbox k.val →
      Completes (.coreInboxDiscard w c k mask) s (fun t =>
        (∀ i, i < 64 → t.flag (coreUid c) (0x4400 + 8 * k.val) i = (d.flag (coreUid c) (0x4400 + 8 * k.val) i && !bit mask i)) ∧
        (d.core c).SameData (t.core c) ∧ d.SameMem t)) ∧
    (∀ (w : Agent) (m : Fin 260),
      let u := mbxUid (d.activeHub 11)
      let st := mbxOff m 8
      (∀ v : Word, d.Takes w u (mbxOff m 0) v regMbxMsg m.val →
        (d.flag mbxU st 0 = false → Completes (.mbxMsgWrite w m v) s (fun t => t.reg mbxU (mbxOff m 0) = v ∧ t.flag mbxU st 0 = true ∧
          t.flag mbxU st 1 = false ∧ t.flag mbxU st 2 = d.flag mbxU st 2 ∧ t.flag mbxU st 16 = decide (w = .keeper) ∧
          (∀ c, w = .core c → (d.core c).lcore < 256 → t.fld mbxU st 8 8 = (d.core c).lcore) ∧ t.resp = .data [] ∧
          (m.val < 256 → d.flag e (offEvSrc m.val) 1 = false → t.flag e (offEvSrc m.val) 40 = true))) ∧
        (d.flag mbxU st 0 = true → Completes (.mbxMsgWrite w m v) s (fun t => t.reg mbxU (mbxOff m 0) = d.reg mbxU (mbxOff m 0) ∧
          t.flag mbxU st 2 = true ∧ t.flag mbxU st 0 = true ∧ t.resp = .err errMbxFull))) ∧
      (∀ v : Word, d.Takes w u (mbxOff m 0x10) v regMbxAck m.val →
        let from_ := d.fld mbxU st 8 8
        (bit v 32 = false → Completes (.mbxAckWrite w m v) s (fun t => t = d.answer (.data []))) ∧
        (bit v 32 = true → d.flag mbxU st 0 = false → Completes (.mbxAckWrite w m v) s (fun t => t = d.answer (.err errRefused))) ∧
        (bit v 32 = true → d.flag mbxU st 0 = true → d.flag mbxU st 16 = false → Completes (.mbxAckWrite w m v) s (fun t =>
          t.flag mbxU st 0 = false ∧ t.flag mbxU st 1 = true ∧ t.fld mbxU (mbxOff m 0x10) 0 32 = bits v 0 32 ∧
          t.reg mbxU (0xD000 + 8 * from_) = BitVec.ofNat 64 (bits v 0 32 + m.val * 2 ^ 32 + 2 ^ 41) ∧
          (d.flag e (offEvSrc (0x200 + from_)) 1 = false → t.flag e (offEvSrc (0x200 + from_)) 40 = true)))) ∧
      (∀ v : Word, d.Takes w u (mbxOff m 0x18) v regMbxBell m.val → w = .keeper ∨ bit v 28 = false →
        Completes (.mbxBellSet w m v) s (fun t => t.fld mbxU (mbxOff m 0x18) 0 32 =
          d.fld mbxU (mbxOff m 0x18) 0 32 ||| (if w = .keeper then bits v 0 32 else bits v 0 30) ∧ t.cores = d.cores)) ∧
      (∀ v : Word, d.Takes w u (mbxOff m 0x28) v regMbxBellclr m.val → Completes (.mbxBellclr w m v) s (fun t =>
        ∀ i, i < 32 → t.flag mbxU (mbxOff m 0x18) i = (d.flag mbxU (mbxOff m 0x18) i && !bit v i))) ∧
      (d.Takes w u st 4 regMbxStatus m.val → Completes (.mbxOverrunClear w m) s (fun t => t.flag mbxU st 2 = false ∧
        t.flag mbxU st 0 = d.flag mbxU st 0 ∧ t.reg mbxU (mbxOff m 0) = d.reg mbxU (mbxOff m 0)))) ∧
    (∀ (w : Agent) (r : Fin 16) (v : Word), d.Takes w (mbxUid (d.activeHub 11)) (offProxy r + 8) v regRmbxMsg r.val →
      let st := offProxy r + 0x10
      (d.flag mbxU st 0 = false → Completes (.rmbxMsgWrite w r v) s (fun t => t.reg mbxU (offProxy r + 8) = v ∧ t.flag mbxU st 0 = true ∧
        t.flag mbxU st 1 = false ∧ t.resp = .data [])) ∧
      (d.flag mbxU st 0 = true → Completes (.rmbxMsgWrite w r v) s (fun t => t.flag mbxU st 2 = true ∧ t.flag mbxU st 0 = true ∧
        t.reg mbxU (offProxy r + 8) = d.reg mbxU (offProxy r + 8) ∧ t.resp = .err errMbxFull)))

/-! Debug and trace (chapter 18). -/

/-- Debug accesses (R740 to R743), unlocking (R744 to R747), run control (R749 to R754), the debug bus master (R767), the virtual terminal (R771,
R772), trace sources, sessions and triggers (R773 to R783), the test access port (R739) and the reset of the debug domain (R766). -/
def Obligations.DebugCommands : Prop :=
  ∀ s : State,
    let d := s.dev
    (∀ (w side : Bool) (pa : BitVec 48) (v : Word),
      Completes (.debugAccess w side pa v true) s (fun t => t.regs = d.regs ∧ t.db.waiting = d.db.waiting ++ [(t.db.dr, d.dt)]) ∧
      (pa.toNat < 0xF00000000000 ∨ pa.toNat % 8 ≠ 0 → Completes (.debugAccess w side pa v false) s (fun t =>
        t.resp = debugFrame 1 0 ∧ t.regs = d.regs ∧ d.SameMem t)) ∧
      (∀ u off r i, pa.toNat = ctlAddr u off → u < 0xC000 → off < 0x10000 → off % 8 = 0 → regAt u off = some (r, i) → d.bench = true →
        (0xF000 ≤ off ∨ (u = dbgUid ∧ 0x4000 ≤ off)) → d.dbgReadShut u r = false →
        Completes (.debugAccess false side pa v false) s (fun t => t.resp = debugFrame 0 (readView r (d.regValue u r i)).toNat ∧
          t.regs = d.regs ∧ d.SameMem t))) ∧
    (∀ f at_ rest, d.db.waiting = (f, at_) :: rest →
      (at_ + 8 * d.fld dbgUid 0x1000 0 20 ≤ d.dt → Completes .debugAccessTimeout s (fun t => t.resp = debugFrame 2 0 ∧ t.db.waiting = rest ∧
        t.regs = d.regs)) ∧
      (d.dt < at_ + 8 * d.fld dbgUid 0x1000 0 20 → Completes .debugAccessTimeout s (fun t => t = d))) ∧
    (∀ v : Word, bit v 1 = false → bit v 12 = false → d.Debugs dbgUid 0x5020 (setBit v 0 true) regDbgUnlkCtl 0 →
      Completes (.unlockNewchal v) s (fun t => t.freeCnt = d.freeCnt + 1 ∧ t.resp = debugFrame 0 0 ∧ ∀ i, i < 4 →
        t.reg dbgUid (0x5000 + 8 * i) = BitVec.ofNat 64 (iLe (natLe 32 (Config.free d.freeCnt)) (8 * i) 8))) ∧
    (∀ (part : BitVec 8) (level : BitVec 2),
      (∀ v : Word, v = BitVec.ofNat 64 (2 + 4 * part.toNat + 1024 * level.toNat) → d.Debugs dbgUid 0x5020 v regDbgUnlkCtl 0 →
        Completes (.unlockGo part level) s (fun t => t.fld dbgUid 0x5020 13 2 = 1 ∧ (∀ i, i < 4 → t.reg dbgUid (0x5000 + 8 * i) = 0) ∧
          ∃ x, t.db.unlock = some x ∧ x.nonce = d.dbgBytes 0x5000 4 ∧ x.part = part.toNat ∧ x.level = level.toNat)) ∧
      (∀ v : Word, v = BitVec.ofNat 64 (4 * part.toNat + 1024 + 4096) → d.Debugs dbgUid 0x5020 v regDbgUnlkCtl 0 →
        Completes (.unlockRelock part) s (fun t => t.dbgLevel part.toNat = (if d.bench then 2 else 0) ∧ t.resp = debugFrame 0 0))) ∧
    ((d.db.unlock = none → Completes .unlockVerified s (fun t => t = d)) ∧
      ∀ x, d.db.unlock = some x →
        let msg := x.nonce ++ natLe 8 Config.serial.toNat ++ natLe 1 x.part ++ natLe 1 x.level ++ natLe 6 ((d.reg bootUid 0x4808).toNat % 2 ^ 48)
        let good : Prop := x.nonce ≠ List.replicate 32 0 ∧ (x.level = 1 ∨ x.level = 2) ∧ d.debugKey x.part = some (Config.sha384 x.key) ∧
          x.level ≤ d.fld dbgUid (0x5400 + 8 * x.part) 2 2 ∧ Config.ecdsaVerify x.key (Config.sha384 msg) x.sig = true
        Completes .unlockVerified s (fun t => t.db.unlock = none ∧ (good → t.fld dbgUid 0x5020 13 2 = 2) ∧
          (¬good → t.fld dbgUid 0x5020 13 2 = 3))) ∧
    (∀ c : CoreId,
      let u := coreUid c
      let k := d.core c
      let at4 (n : Nat) (i : Instr) : Prop := d.Debugs u 0xF000 (BitVec.ofNat 64 n) regCdbgCmd 0 → d.halted c = false →
        Completes i s (fun t => t.resp = debugFrame 4 0 ∧ t.regs = d.regs ∧ t.cores = d.cores)
      (d.Debugs u 0xF000 1 regCdbgCmd 0 →
        (d.halted c = true → Completes (.cdbgHalt c) s (fun t => t.resp = debugFrame 0 0 ∧ t.regs = d.regs)) ∧
        (d.halted c = false → (k.placed = false ∨ d.intrusive k.part = true ∨ (k.rep ≠ .none ∧ d.otherLive k = true)) →
          Completes (.cdbgHalt c) s (fun t => t.flag u 0xF010 1 = true ∧ SMap.get (fun _ => 0) t.db.haltAt c.val = d.dt + 1 ∧
            t.cores = d.cores ∧ t.resp = d.resp)) ∧
        (∀ r, d.halted c = false → k.placed = true → k.rep = .none → d.recOf k.part = some r → r.flags / 8 % 2 = 1 →
          d.intrusive k.part = false → Completes (.cdbgHalt c) s (fun t => t.resp = debugFrame 1 0 ∧ t.regs = d.regs))) ∧
      at4 2 (.cdbgResume c) ∧ at4 3 (.cdbgStep c) ∧ at4 4 (.cdbgStepRegion c) ∧
      (d.halted c = true →
        (d.Debugs u 0xF000 2 regCdbgCmd 0 → k.placed = false ∨ k.rep = .none → Completes (.cdbgResume c) s (fun t =>
          t.halted c = false ∧ t.cores = d.cores ∧ t.resp = debugFrame 0 0)) ∧
        (d.Debugs u 0xF000 3 regCdbgCmd 0 → Completes (.cdbgStep c) s (fun t =>
          t.halted c = false ∧ SMap.get (fun _ => 0) t.db.stepping c.val = 1 ∧ t.cores = d.cores)) ∧
        (d.Debugs u 0xF000 4 regCdbgCmd 0 → Completes (.cdbgStepRegion c) s (fun t =>
          t.halted c = false ∧ SMap.get (fun _ => 0) t.db.stepping c.val = 2 ∧ t.cores = d.cores))) ∧
      (∀ dv : Bool, d.flag u 0xF010 1 = true → k.run ≠ .reset → d.power u < 2 → k.staged = [] → (dv = true → k.pc ∉ k.abandoned) →
        k.placed = false ∨ k.rep = .none → Completes (.haltTaken c dv) s (fun t =>
          t.halted c = true ∧ t.flag u 0xF010 1 = false ∧ t.power u = 0 ∧ (t.core c).pc = k.pc ∧ k.SameData (t.core c) ∧
          SMap.get (fun _ => none) t.resv c = none)) ∧
      (∀ h, h = SMap.get (fun _ => 0) d.db.haltAt c.val → h ≠ 0 → d.flag u 0xF010 1 = true → h + 8 * d.fld dbgUid 0x1000 0 20 ≤ d.dt + 1 → Completes (.haltUnresponsive c) s (fun t =>
          t.resp = debugFrame 2 0 ∧ t.flag u 0xF010 1 = true ∧ t.cores = d.cores))) ∧
    (∀ ctl : Word, d.Debugs dbgUid 0x6000 (setBit ctl 0 true) regDbmCtl 0 →
      (d.flag dbgUid 0x6010 0 = true → Completes (.dbmGo ctl) s (fun t => t.resp = debugFrame 4 0 ∧ t.regs = d.regs)) ∧
      (d.flag dbgUid 0x6010 0 = false → Completes (.dbmGo ctl) s (fun t => t.reg dbgUid 0x6010 = 1 ∧ t.resp = debugFrame 0 0 ∧
        ∃ j, t.db.dbm = some j ∧ j.addr = d.fld dbgUid 0x6008 0 48 ∧ j.data = d.dbgBytes 0x6040 8))) ∧
    ((d.db.dbm = none → Completes .dbmDone s (fun t => t = d)) ∧
      ∀ j, d.db.dbm = some j →
        let n := if bit j.ctl 2 then 64 else 8
        let e := { d with db := { d.db with dbm := none } }
        (j.addr % n ≠ 0 → Completes .dbmDone s (fun t => t.reg dbgUid 0x6010 = 2 ∧ t.db.dbm = none ∧ d.SameMem t)) ∧
        (∀ x bs, j.addr % n = 0 → bit j.ctl 15 = true → d.bench = true → bit j.ctl 4 = false → bit j.ctl 1 = false →
          e.dbmMove (bits j.ctl 5 8) 3 j.addr n none = (x, .ok bs) → Completes .dbmDone s (fun t => t.reg dbgUid 0x6010 = 0 ∧
            ∀ i, i < n / 8 → t.reg dbgUid (0x6040 + 8 * i) = BitVec.ofNat 64 (iLe bs (8 * i) 8)))) ∧
    (∀ (c : CoreId) (p : Fin 256) (v : Word),
      let o := offVt p
      (d.Takes (.core c) dbgUid o v regVtOut p.val →
        (d.flag dbgUid o 63 = false → bits v 56 3 ≠ 0 → Completes (.vtOutWrite c p v) s (fun t =>
          t.fld dbgUid o 0 59 = bits v 0 59 ∧ t.flag dbgUid o 63 = true)) ∧
        (d.flag dbgUid o 63 = true → Completes (.vtOutWrite c p v) s (fun t =>
          t.fld dbgUid o 0 59 = d.fld dbgUid o 0 59 ∧ t.flag dbgUid o 63 = true ∧ t.flag dbgUid o 60 = true))) ∧
      (d.Debugs dbgUid o (BitVec.ofNat 64 (2 ^ 63)) regVtOut p.val → Completes (.vtOutEmpty p) s (fun t =>
        t.flag dbgUid o 63 = false ∧ t.flag dbgUid o 62 = true)) ∧
      (d.Debugs dbgUid (o + 8) v regVtIn p.val →
        (d.flag dbgUid (o + 8) 63 = false → bits v 56 3 ≠ 0 → Completes (.vtInWrite p v) s (fun t =>
          t.fld dbgUid (o + 8) 0 59 = bits v 0 59 ∧ t.flag dbgUid (o + 8) 63 = true ∧ t.resp = debugFrame 0 0)) ∧
        (d.flag dbgUid (o + 8) 63 = true → Completes (.vtInWrite p v) s (fun t => t.resp = debugFrame 4 0 ∧ t.regs = d.regs))) ∧
      (d.Takes (.core c) dbgUid (o + 8) (BitVec.ofNat 64 (2 ^ 63)) regVtIn p.val → Completes (.vtInEmpty c p) s (fun t =>
        t.flag dbgUid (o + 8) 63 = false ∧ t.flag dbgUid (o + 8) 62 = true))) ∧
    (∀ (u : BitVec 16) (v : Word), d.Debugs u.toNat 0xF800 v regTrcSrc 0 →
      let other : Prop := unitKind u.toNat ≠ some .core ∧ d.flag u.toNat 0xF800 0 = true ∧ bit v 0 = true ∧
        d.fld u.toNat 0xF800 3 4 ≠ bits v 3 4
      (other → Completes (.traceSourceConfig u v) s (fun t => t.resp = debugFrame 4 0 ∧ t.regs = d.regs)) ∧
      (¬other → Completes (.traceSourceConfig u v) s (fun t => t.resp = debugFrame 0 0 ∧ t.flag u.toNat 0xF800 0 = bit v 0 ∧
        t.fld u.toNat 0xF800 1 2 = bits v 1 2))) ∧
    (∀ k : Fin 16,
      let o := offTs k
      (∀ v : Word, d.Debugs dbgUid o v regTsCtl k.val →
        (bit v 1 = false → d.replicated (bits v 2 8) = true → Completes (.traceSessionConfig k v) s (fun t =>
          t.resp = debugFrame 4 0 ∧ t.regs = d.regs)) ∧
        (bit v 1 = true → bit v 0 = true → d.flag dbgUid o 0 = false → Completes (.traceSessionConfig k v) s (fun t =>
          t.flag dbgUid o 0 = true ∧ t.flag dbgUid o 12 = false ∧ t.flag dbgUid o 13 = false ∧ t.reg dbgUid (o + 0x10) = 0 ∧
          t.tr.closing.contains k.val = false ∧ t.resp = debugFrame 0 0))) ∧
      (let hit : Instr → Prop := fun i =>
          (d.flag dbgUid (o + 0x18) 24 = true → d.sessionOpen k = true → d.flag dbgUid o 12 = false → Completes i s (fun t =>
            t.reg dbgUid (o + 0x28) = BitVec.ofNat 64 d.dt ∧ t.flag dbgUid o 12 = true ∧ t.flag dbgUid (o + 0x18) 24 = false ∧
            t.cores = d.cores)) ∧
          (d.flag dbgUid (o + 0x18) 24 = false → Completes i s (fun t => t = d));
        hit (.traceNow k) ∧ ∀ (cause : BitVec 2) (src : BitVec 12), cause ≠ 0 → d.fld dbgUid (o + 0x18) 26 2 = cause.toNat →
          (cause.toNat = 2 → d.fld dbgUid (o + 0x18) 28 12 = src.toNat) → hit (.traceTrigger k cause src)) ∧
      (d.flag dbgUid o 0 = true → d.flag dbgUid o 12 = true → d.flag dbgUid o 13 = false → d.tr.closing.contains k.val = false →
        (d.reg dbgUid (o + 0x28)).toNat + 1000 * d.fld dbgUid (o + 0x18) 0 24 ≤ d.dt →
        Completes (.traceWindowClose k) s (fun t => t.tr.closing.contains k.val = true ∧ t.sessionOpen k = false)) ∧
      (d.tr.closing.contains k.val = true → (∀ f, f < 10 → ∀ p ∈ d.funnel f, p.session ≠ k.val) →
        Completes (.traceSessionStopped k) s (fun t => t.flag dbgUid o 13 = true ∧ t.tr.closing.contains k.val = false)) ∧
      (∀ f : Fin 10, (∀ j, j < 16 → d.sessionOpen j = decide (j = k.val)) → (∀ c, c < 4 → d.dropCount f k c = 0) →
        (d.funnel f).length < 256 → Completes (.traceTimePacket f) s (fun t =>
          t.funnel f = d.funnel f ++ [⟨k.val, 3, tracePacket 0x10 3 (funnelUid f) d.dt d.dt⟩] ∧ t.regs = d.regs))) ∧
    Completes .tapExtest s (fun t => t.db.ir = (if d.bench then 0 else 0xFF) ∧ t.regs = d.regs ∧ d.SameMem t) ∧
    Completes .tapSamplePreload s (fun t => t.db.ir = 1 ∧ t.regs = d.regs ∧ d.SameMem t) ∧
    Completes .tapDbgacc s (fun t => t.db.ir = 0x20 ∧ t.regs = d.regs ∧ d.SameMem t) ∧
    Completes .tapBypass s (fun t => t.db.ir = 0xFF ∧ t.regs = d.regs ∧ d.SameMem t) ∧
    Completes .debugDomainReset s (fun t => t.tr.fifo = [] ∧ t.db.unlock = none ∧ t.db.dbm = none ∧ t.db.withdrawn = [] ∧
      ∀ c : CoreId, t.halted c = false)

/-! Streams and TDM (chapter 10). -/

/-- A block event (R431); the close of a capture block (R437); a packet that a stream receives, refused or written (R448, R449, R453); lost streams
and paths (R453); a packet sent (R454, R455); frames in and out of the TDM ports and their FIFOs (R462 to R464), and the loss and the return of a
port's clock (R465). -/
def Obligations.MediaCommands : Prop :=
  ∀ s : State,
    let d := s.dev
    (∀ (c : Fin 16) (b : Nat), d.blkNextEvent c = some b →
      ((d.dt : Int) < d.dtStart c b + d.cadGuard c → Completes (.blockEvent c) s (fun t => t = d)) ∧
      (d.dtStart c b + d.cadGuard c ≤ (d.dt : Int) → Completes (.blockEvent c) s (fun t => opt t.au.done c.val = some b ∧
        t.reg (hubUid 0) (0x7100 + 8 * c.val) = BitVec.ofNat 64 (b % 2 ^ 48 + 2 ^ 48) ∧ d.SameMem t))) ∧
    (∀ (se : Fin 4) (n : Fin 64) (b : Nat), d.blkNow (d.bufCad se n) = some b →
      (d.bufEn se n = false ∨ d.bufOut se n = true → Completes (.captureClose se n) s (fun t => t = d)) ∧
      (d.bufEn se n = true → d.bufOut se n = false → opt d.au.closed (64 * se.val + n.val) ≠ some b →
        Completes (.captureClose se n) s (fun t => opt t.au.closed (64 * se.val + n.val) = some b ∧ t.cores = d.cores))) ∧
    (∀ (se : Fin 4) (p : Pkt) (occ : Nat),
      (d.matchRx se p = none → Completes (.rxPacket se p occ) s (fun t => t = d)) ∧
      (∀ st pathB e0, d.matchRx se p = some (st, pathB) → firstEn (d.rxEntries se st) = some e0 →
        let ds := d.rxDesc se st
        let k := stKey se st
        let c := d.bufCad se (mBuf e0)
        let ps := dPs ds (d.cadFs c)
        let v := if dAvtp ds then avtpView ds ps (d.cadFs c) p.bytes else rtpView ds ps p.bytes
        (v.lenOk = false → Completes (.rxPacket se p occ) s (fun t => d.SameMem t ∧
          t.fld (seUid se) 0x5038 0 16 = satInc (d.fld (seUid se) 0x5038 0 16) 16)) ∧
        (v.lenOk = true → v.hdrOk = false → Completes (.rxPacket se p occ) s (fun t => d.SameMem t ∧
          t.fld (seUid se) 0x5038 16 16 = satInc (d.fld (seUid se) 0x5038 16 16) 16)) ∧
        (∀ kb, v.lenOk = true → v.hdrOk = true → dLearn ds = false → dDual ds = false →
          v.src = (if dAvtp ds then dDst ds pathB else dBe ds 10 4) → d.capNow c (d.bufLo se (mBuf e0)) = some kb → occ < 512 →
          let mc := pktMc ds (d.cadFs c) v.ts (d.blkMc c kb)
          d.blkMc c kb ≤ mc → mc < d.blkMc c (kb + 3) → 0 < ps →
          Completes (.rxPacket se p occ) s (fun t => ∃ x : Dev, d.SameMem x ∧ t = x.rxWrite se c ds v.body mc ps kb ∧
            opt x.au.lastAcc (3 * k) = some d.dt)))) ∧
    (∀ (se : Fin 4) (st : Fin 1024) (e : Nat), firstEn (d.rxEntries se st) = some e → dEn (d.rxDesc se st) = true →
      let k := stKey se st
      (∀ at_, opt d.au.lastAcc (3 * k) = some at_ → d.au.lostKeys.contains (3 * k) = false → at_ + d.twoBlocks (d.bufCad se (mBuf e)) ≤ d.dt →
        Completes (.streamLost se st) s (fun t => t.au.lostKeys.contains (3 * k) = true ∧ opt t.au.ssrc k = none ∧ d.SameMem t)) ∧
      (∀ (pathB : Bool) (x at_ : Nat), x = 3 * k + (if pathB then 2 else 1) → dDual (d.rxDesc se st) = true → opt d.au.lastAcc x = some at_ →
        d.au.lostKeys.contains x = false → at_ + d.twoBlocks (d.bufCad se (mBuf e)) ≤ d.dt →
        Completes (.pathLost se st pathB) s (fun t => t.au.lostKeys.contains x = true ∧ t.au.ssrc = d.au.ssrc ∧ d.SameMem t))) ∧
    (∀ (se : Fin 4) (st : Fin 1024) (occ : Nat) (e m : Nat), firstEn (d.txEntries se st) = some e → opt d.au.txNext (stKey se st) = some m →
      let ds := d.txDesc se st
      let c := d.bufCad se (mBuf e)
      let ps := dPs ds (d.cadFs c)
      let pay := d.txPayload se st ds ps (d.cadFs c) m false
      dEn ds = true → opt d.au.stop c = none →
      ((d.dt : Int) < d.dtOf c ((m : Int) + ps) → Completes (.txPacket se st occ) s (fun t => t.sent = d.sent ∧ t.au = d.au)) ∧
      (d.dtOf c ((m : Int) + ps) ≤ (d.dt : Int) → pay.2 = false → Completes (.txPacket se st occ) s (fun t => t.sent = d.sent ∧
        opt t.au.txNext (stKey se st) = some (m + ps))) ∧
      (d.dtOf c ((m : Int) + ps) ≤ (d.dt : Int) → pay.2 = true → dDual ds = false → dPort ds false ≠ 42 → dAvtp ds = false →
        Completes (.txPacket se st occ) s (fun t => opt t.au.txNext (stKey se st) = some (m + ps) ∧
          t.sent = d.sent ++ [.packet (dPort ds false) (dDst ds false) (dUdp ds true false) (dLe ds 58 2) (dLe ds 60 2 % 64) pay.1 d.dt]))) ∧
    (∀ (p : Fin 16),
      let cfg := d.tdmPortCfg p
      let u := (tdmStat p).1
      let o := (tdmStat p).2
      let c := bits cfg 11 4
      bit cfg 0 = true →
      (∀ f : List Nat, bit cfg 1 = true → d.flag u o 0 = true →
        Completes (.tdmFrameReceived p f false) s (fun t => t.fld u o 8 16 = (d.fld u o 8 16 + 1) % 2 ^ 16 ∧ t.fifoIn p = d.fifoIn p) ∧
        (∀ g fo, (d.fifoIn p).length < 4 → d.fifoOut p = g :: fo → Completes (.tdmFrameReceived p f true) s (fun t =>
          t.fifoIn p = d.fifoIn p ++ [f] ∧ t.fifoOut p = fo ∧ t.fld u o 8 16 = d.fld u o 8 16)) ∧
        Completes (.tdmClockLost p) s (fun t => t.flag u o 0 = false ∧ t.fifoIn p = d.fifoIn p)) ∧
      (bit cfg 1 = true → d.flag u o 0 = false → Completes (.tdmClockRestored p) s (fun t => t.flag u o 0 = true ∧
        (t.fifoIn p).length = 2 ∧ (t.fifoOut p).length = 2)) ∧
      (∀ (b m : Nat) (f : List Nat), d.blkNow c = some b → d.mcAt c d.dt - 1 = (m : Int) → opt d.au.inCnt p.val ≠ some m →
        (bit cfg 1 = false → Completes (.tdmInputHandoff p f) s (fun t => ∃ x : Dev, d.SameMem x ∧ x.regs = d.regs ∧ t = x.tdmStore p m f ∧
          opt x.au.inCnt p.val = some m)) ∧
        (∀ g fi, bit cfg 1 = true → d.flag u o 0 = true → d.fifoIn p = g :: fi →
          Completes (.tdmInputHandoff p f) s (fun t => ∃ x : Dev, d.SameMem x ∧ t = x.tdmStore p m g ∧ x.fifoIn p = fi))) ∧
      (∀ b m : Nat, d.blkNow c = some b → d.mcAt c d.dt = (m : Int) → opt d.au.outCnt p.val ≠ some m →
        Completes (.tdmOutputHandoff p) s (fun t => opt t.au.outCnt p.val = some m ∧ d.SameMem t ∧
          (bit cfg 1 = true → (d.fifoOut p).length < 4 → ∃ fr : List Nat, fr.length = bits cfg 2 5 + 1 ∧
            t.fifoOut p = d.fifoOut p ++ [fr]))))

/-! Replicas, commit stage, rejoin (chapter 11). -/

/-- Fencing (R18, R80) and the takeover of a standby instance (R41); hashes, votes, deadlines and play blocks (R480, R482, R487 to R490); block
starts (R430); twin devices (R508 to R511); fencing a replica and writing LIVE (R484, R496); the stages of a rejoin (R498 to R503); a
replica's mailbox writes (R424, R546). -/
def Obligations.ReplicaCommands : Prop :=
  ∀ s : State,
    let d := s.dev
    (∀ u : Nat, unitKind u ≠ none →
      Completes (.fenceUnit u) s (fun t => t.fenced u = true ∧ t.cores = d.cores) ∧
      (d.fenced u = false → unitKind u = some .core ∨ unitKind u = some .l2 ∨ unitKind u = some .l3 ∨ unitKind u = some .cstop →
        Completes (.fenceUnit u) s (fun t => t.kp.lost.contains (uidClusterNo u) = true)) ∧
      (d.kp.toFence.contains u = true → Completes (.stallFence u) s (fun t => t.fenced u = true ∧ t.kp.toFence.contains u = false)) ∧
      (∀ other, other = mkUid (9 - uidDie u) 0 15 (uidType u) 0 →
        unitKind u = some .keeper ∨ unitKind u = some .evc ∨ unitKind u = some .mbx → d.fenced other = true → d.fenced u = false → d.role u = 1 →
        Completes (.standbyTakeover u) s (fun t => t.role u = 0 ∧ t.role other = 2))) ∧
    (∀ (se : Fin 4) (g : Fin 32) (b : Nat),
      let x := d.cgSt se g
      let tier := d.cgTier se g
      let a := 0x6010 + 32 * g.val
      let live := repsOf (d.liveFor se g b)
      (∀ (r : Fin 3) (e : Dev) (area : List Byte), d.cgEn se g = true → tier ≠ 0 → r.val ≤ tier → live.contains r.val = true → hashFor x b r = none →
        d.blockComplete (d.cgPart se g) (r.val + 1) (d.cgCad se g) b = true → (d.dt : Int) ≤ d.deadline se g b →
        d.engRead (d.slotAt se (d.cgBuf se g r) b + 512) (d.bufBytes se (d.cgBuf se g r)) = (e, .ok area) → e.voteFault se g r b = none →
        let h := blockHash b area
        Completes (.hashReady se g r b) s (fun t => (t.cgSt se g).hashes.contains (b, r.val, h) = true ∧
          (verdictOf x b = none → ∀ v, settle { x with hashes := (b, r.val, h) :: x.hashes.take 31 } b live = some v →
            verdictOf (t.cgSt se g) b = some v))) ∧
      (d.cgEn se g = true → x.closed.any (fun e => e.1 == b) = false →
        ((d.dt : Int) < d.deadline se g b → Completes (.commitDeadline se g b) s (fun t => t = d)) ∧
        (d.deadline se g b ≤ (d.dt : Int) → tier = 0 → Completes (.commitDeadline se g b) s (fun t =>
          if d.blockComplete (d.cgPart se g) 0 (d.cgCad se g) b then
            verdictOf (t.cgSt se g) b = some (.release 0 0) ∧ t.fld (seUid se) a 0 2 = 0 ∧ t.fld (seUid se) a 2 4 = 0
          else verdictOf (t.cgSt se g) b = some .conceal ∧ t.fld (seUid se) a 0 2 = 2)) ∧
        (d.deadline se g b ≤ (d.dt : Int) → tier ≠ 0 → Completes (.commitDeadline se g b) s (fun t =>
          (verdictOf x b = none → verdictOf (t.cgSt se g) b = some .conceal ∧ t.fld (seUid se) a 0 2 = 2) ∧
          (∀ r h, verdictOf x b = some (.release r h) → x.verdicts.head? = some (b, .release r h) → d.fld (seUid se) a 0 2 ≤ 1 →
            t.fld (seUid se) a 0 2 ≤ 1) ∧
          (t.cgSt se g).closed.any (fun e => e.1 == b) = true))) ∧
      (∀ pb, d.cgEn se g = true → d.blkNow (d.cgCad se g) = some pb →
        (x.plays.any (fun p => p.1 == pb) = true → Completes (.playBlock se g) s (fun t => t = d)) ∧
        (x.plays.any (fun p => p.1 == pb) = false → Completes (.playBlock se g) s (fun t =>
          (t.cgSt se g).plays.any (fun p => p.1 == pb) = true ∧ t.cores = d.cores)) ∧
        (∀ r h e q, x.plays.any (fun p => p.1 == pb) = false →
          let blk := pb - 1 - d.cgDefer se g
          let n := d.cgBuf se g (if tier = 0 then 0 else r)
          x.supp.contains blk = false → verdictOf x blk = some (.release r h) → x.run = 0 →
          d.engRead (d.slotAt se n blk + 512) (d.bufBytes se n) = (e, .ok q) →
          Completes (.playBlock se g) s (fun t => (t.cgSt se g).plays.head? = some (pb, q, true)))) ∧
      (∀ live3 : BitVec 3,
        let e := d.setLive se g live3.toNat (d.liveFrom (d.cgCad se g))
        let p := d.cgPart se g
        (d.rm.waiting = [] → Completes (.liveWrite se g live3) s (fun t => t.fld (seUid se) (0x6000 + 32 * g.val) 21 3 = live3.toNat ∧
          (t.cgSt se g).live.head? = some (d.liveFrom (d.cgCad se g), live3.toNat))) ∧
        (∀ (w : RepWrite) (m : Nat), d.rm.waiting = [w] → e.lcorePart w.lcore = some p → e.liveReps p = [w.rep] → m < 256 → w.off = mbxOff m 0 →
          e.mbxRight p m false = true → e.flag mbxU (mbxOff m 8) 0 = false →
          Completes (.liveWrite se g live3) s (fun t => t.reg mbxU (mbxOff m 0) = w.val ∧ t.rm.waiting = []))) ∧
      (d.flag (seUid se) 0x5810 12 = true → bit (d.cgCfg se g) 33 = true →
        (∀ hash : Option Nat, (d.dt : Int) < d.twinDue se g b → Completes (.twinDecisionArrival se g b hash) s (fun t =>
          t.flag (seUid se) 0x5810 13 = true ∧ (t.cgSt se g).peer.head? = some (b, hash))) ∧
        (∀ hash : Option Nat, d.twinDue se g b ≤ (d.dt : Int) → Completes (.twinDecisionArrival se g b hash) s (fun t => t = d)) ∧
        (x.acted.contains b = false → d.twinDue se g b ≤ (d.dt : Int) →
          Completes (.twinAction se g b) s (fun t => (t.cgSt se g).acted.contains b = true) ∧
          (∀ r h h', verdictOf x b = some (.release r h) → x.peer.find? (fun e => e.1 == b) = some (b, some h') →
            (h = h' → Completes (.twinAction se g b) s (fun t => (t.cgSt se g).supp = x.supp)) ∧
            (h ≠ h' → d.twinLower se = false → Completes (.twinAction se g b) s (fun t => (t.cgSt se g).supp.contains b = true))) ∧
          (∀ h', verdictOf x b = some .conceal → x.peer.find? (fun e => e.1 == b) = some (b, some h') →
            Completes (.twinAction se g b) s (fun t => (t.cgSt se g).supp.contains b = true ∧ t.fld (seUid se) a 0 2 = 3))))) ∧
    (∀ (c : Fin 16) (b : Nat), d.blkNext c = some b →
      ((d.dt : Int) < d.dtStart c b → Completes (.blockStart c) s (fun t => t = d)) ∧
      (d.dtStart c b ≤ (d.dt : Int) → Completes (.blockStart c) s (fun t => t.blkNow c = some b ∧ t.cores = d.cores))) ∧
    (∀ (se : Fin 4) (n : Fin 64) (k : Nat) (slot : List Byte),
      let due := d.dtStart (d.bufCad se n) ((k : Int) + 1 + d.bufLo se n) + d.cadGuard (d.bufCad se n) - 2000
      d.flag (seUid se) 0x5810 12 = true → d.flag (seUid se) 0x5818 n = true → opt d.au.merged (64 * se.val + n.val) ≠ some k →
      (∀ e own, (d.dt : Int) ≤ due → slot.length = 512 + d.bufBytes se n → d.engRead (d.slotAt se n k) 512 = (e, .ok own) →
        Completes (.twinInputArrival se n k slot) s (fun t => opt t.au.merged (64 * se.val + n.val) = some k ∧ t.flag (seUid se) 0x5810 14 = false)) ∧
      (due ≤ (d.dt : Int) → Completes (.twinInputDeadline se n k) s (fun t => t.flag (seUid se) 0x5810 14 = true ∧ d.SameMem t)) ∧
      ((d.dt : Int) < due → Completes (.twinInputDeadline se n k) s (fun t => t = d))) ∧
    (∀ p : Fin 256,
      (d.au.suspects.find? (fun x => x.1 == p.val) = none → Completes (.replicaFence p) s (fun t => t = d)) ∧
      (∀ x r, d.au.suspects.find? (fun x => x.1 == p.val) = some x → r = d.suspectOf p x.2.1 x.2.2 → r < 3 →
        d.rm.waiting = [] →
        Completes (.replicaFence p) s (fun t => t.repLive p r = false ∧ t.au.suspects = d.au.suspects.erase x)) ∧
      (∀ (ix : Fin 3) (rec_ : PartRec) (q : Nat), d.rejoinOf p = none → d.recOf p = some rec_ → d.donorOf p ix = some q → rec_.tier ≠ 0 →
        ix.val ≤ rec_.tier → d.repLive p ix = false → d.repCores p ix ≠ [] → (∀ c ∈ d.repCores p ix, (d.core c).run = .reset) →
        Completes (.rejoinStart p ix) s (fun t => t.rejoinOf p = some ⟨p, repAt rec_.tier ix, repAt rec_.tier q, 1, [], 0, d.dt⟩)) ∧
      (∀ j rec_, d.rejoinOf p = some j → d.recOf p = some rec_ →
        (j.stage = 0 →
          (d.deltaBytes j ≤ 1024 * rec_.rejoin → Completes (.rejoinPassEnd p) s (fun t => t.rejoinOf p = some { j with stage := 1 })) ∧
          (1024 * rec_.rejoin < d.deltaBytes j → j.pass < 8 → Completes (.rejoinPassEnd p) s (fun t =>
            t.rejoinOf p = some { j with pass := j.pass + 1, pages := [] })) ∧
          (1024 * rec_.rejoin < d.deltaBytes j → 8 ≤ j.pass → Completes (.rejoinPassEnd p) s (fun t =>
            t.rejoinOf p = some { j with stage := 3, at_ := d.dt + 1000000000, pages := [] }))) ∧
        (j.stage = 3 → (j.at_ ≤ d.dt → Completes (.rejoinRetry p) s (fun t => t = (d.putRejoin p none).rejoinStart p (repIx j.rep))) ∧
          (d.dt < j.at_ → Completes (.rejoinRetry p) s (fun t => t = d))) ∧
        (∀ b, j.stage = 1 → d.blkNow rec_.firstCad = some b → d.allWaitb p (repIx j.donor) = true → d.dtStart rec_.firstCad b = (d.dt : Int) →
          Completes (.rejoinFinalDelta p) s (fun t => t.rejoinOf p = some { j with stage := 2 } ∧
            ((∃ e ∈ d.groupsOf p, (d.blkNow (d.cgCad e.1 e.2)).isSome = true) → t.repLive p (repIx j.rep) = true))) ∧
        (j.stage = 2 → repIx j.rep ≠ repIx j.donor → d.rm.waiting = [] → Completes (.rejoinDone p) s (fun t => t.rejoinOf p = none ∧
          t.db.withdrawn.contains (p.val, repIx j.rep) = false ∧
          ∀ c ∈ d.repCores p (repIx j.rep), ∀ x, (d.repCores p (repIx j.donor)).find? (fun y => (d.core y).lcore == (d.core c).lcore) = some x →
            (d.core x).SameData (t.core c) ∧ (t.core c).pc = (d.core x).pc ∧ (t.core c).rep = (d.core c).rep)))) ∧
    (∀ (c : CoreId) (off : BitVec 16) (v : Word),
      let k := d.core c
      let ix := repIx k.rep
      let o := SMap.get (fun _ => 0) d.rm.ord (4 * k.lcore + ix) + 1
      k.placed = true → k.rep ≠ .none →
      (repMbxOff off.toNat = false → Completes (.replicaMailboxWrite c off v) s (fun t => t = d)) ∧
      (repMbxOff off.toNat = true → (d.liveReps k.part).contains ix = false → Completes (.replicaMailboxWrite c off v) s (fun t => t.regs = d.regs ∧
        SMap.get (fun _ => 0) t.rm.ord (4 * k.lcore + ix) = o)) ∧
      (repMbxOff off.toNat = true → (d.liveReps k.part).contains ix = true → d.rm.done.find? (fun x => x.lcore == k.lcore && x.ord == o) = none →
        (2 ≤ (d.liveReps k.part).length → (∀ w ∈ d.rm.waiting, w.lcore ≠ k.lcore) → Completes (.replicaMailboxWrite c off v) s (fun t =>
          t.regs = d.regs ∧ t.rm.waiting = d.rm.waiting ++ [⟨k.lcore, o, ix, off.toNat, v⟩])) ∧
        (∀ m, (d.liveReps k.part).length = 1 → (∀ w ∈ d.rm.waiting, w.lcore ≠ k.lcore) → m < 256 → off.toNat = mbxOff m 0 → d.mbxRight k.part m false = true →
          d.flag mbxU (mbxOff m 8) 0 = false → Completes (.replicaMailboxWrite c off v) s (fun t =>
            t.reg mbxU (mbxOff m 0) = v ∧ t.flag mbxU (mbxOff m 8) 0 = true))))

/-! Ports, links, proxies, remote memory, PCIe (chapter 12). -/

/-- Ethernet frames and rings (R520, R522 to R525), bring-up and loss of ports and links (R536 to R539), Trelub frames, NAKs and advertisements
(R533, R534, R541, R542), proxies (R545, R546), remote memory and time frames (R549 to R551), and PCIe (R555 to R560): what each command leaves. -/
def Obligations.LinkCommands : Prop :=
  ∀ s : State,
    let d := s.dev
    (∀ p : Fin 42,
      let u := (portUnit p).1
      let r := (portUnit p).2
      (∀ (b : List Byte) (ok unc : Bool) (occ : Nat), d.ethUp p = false → Completes (.ethRxFrame p b ok unc occ) s (fun t => t = d)) ∧
      (∀ (b : List Byte) (occ : Nat), d.ethUp p = true →
        (p.val < 40 → Completes (.ethRxFrame p b false false occ) s (fun t => d.SameMem t ∧
          t.fld (quadUid (p.val / 4)) (0x4080 + 8 * (p.val % 4)) 40 16 =
            min 0xFFFF (d.fld (quadUid (p.val / 4)) (0x4080 + 8 * (p.val % 4)) 40 16 + 1))) ∧
        (60 ≤ b.length → b.length ≤ 9212 → fBe b 12 2 ≠ 0x8808 → fBe b 0 6 = bits (d.portMac p) 0 48 → d.streamFor p b = none →
          d.isPtp p b = false →
          (d.ringFree u r = true → Completes (.ethRxFrame p b true false occ) s (fun t => t.nt.jobs = d.nt.jobs ++ [⟨u, r, b, 0, d.dt⟩] ∧
            t.regs = d.regs)) ∧
          (d.ringFree u r = false → Completes (.ethRxFrame p b true false occ) s (fun t => t.nt.jobs = d.nt.jobs ∧
            t.fld u (0x4208 + 16 * r) 32 32 = (d.fld u (0x4208 + 16 * r) 32 32 + 1) % 2 ^ 32)))) ∧
      (d.ethUp p = false ∨ d.ringFree u (r + 1) = false → Completes (.ethTxFrame p) s (fun t => t = d)) ∧
      (∀ e ds f bs, d.ethUp p = true → d.ringFree u (r + 1) = true →
        d.engRead (d.ringAt u (r + 1) (bits (d.ringI u (r + 1)) 16 16 + d.ringBusy u (r + 1))) 16 = (e, .ok ds) →
        e.inRange (leNat (ds.take 8)) (max 1 (dLe ds 8 2)) = true → e.engRead (leNat (ds.take 8)) (dLe ds 8 2) = (f, .ok bs) →
        Completes (.ethTxFrame p) s (fun t => t.sent = f.sent ++ [.frame p bs d.dt] ∧ t.nt.jobs = f.nt.jobs ++ [⟨u, r + 1, [], 0, d.dt⟩])) ∧
      (∀ (tx : Bool) (j : RingJob) (e : Dev) (ds : List Byte), d.nt.jobs.find? (fun j => j.unit == u && j.ring == r + tx.toNat) = some j →
        let head := bits (d.ringI u (r + tx.toNat)) 16 16
        let d0 := { d with nt := { d.nt with jobs := d.nt.jobs.erase j } }
        d0.engRead (d.ringAt u (r + tx.toNat) head) 16 = (e, .ok ds) → Completes (.ringDescriptorDone p tx) s (fun t =>
          t.nt.jobs = d.nt.jobs.erase j ∧ t.fld u (0x4208 + 16 * (r + tx.toNat)) 16 16 = (head + 1) % d.ringN u (r + tx.toNat)))) ∧
    (∀ (l : Fin 40) (n : Fin 46) (m : Fin 42) (speed : BitVec 3) (width : BitVec 4), n.val = l.val → m.val = l.val →
      let u := quadUid (l.val / 4)
      let o := offLink l
      (d.isLink l = true →
        (d.linkState l = 0 → Completes (.linkSignalDetect l) s (fun t => t.linkState l = 1 ∧ t.flag u o 35 = true)) ∧
        (d.linkState l = 1 →
          Completes (.linkTrainingDone n speed width) s (fun t => t.linkState l = (if d.isTrelub l then 2 else 4)) ∧
          Completes (.linkTrainingTimeout l) s (fun t => t.linkState l = 0 ∧ (t.link l).failed = d.dt + 1)) ∧
        (d.linkState l = 0 → (d.link l).failed ≠ 0 → (d.link l).failed - 1 + 1000000000 ≤ d.dt →
          Completes (.linkRetryTimer l) s (fun t => t.linkState l = 1 ∧ (t.link l).failed = 0)) ∧
        Completes (.linkSignalLoss m) s (fun t => t.linkState l = 0 ∧ t.flag u o 35 = false)) ∧
      (∀ (peer : BitVec 12) (lanes : BitVec 3), d.isTrelub l = true → d.linkState l = 2 →
        let wrong : Prop := peer.toNat = d.ownId ∨ peer.toNat ≠ d.fld u o 16 12 ∨ lanes.toNat ≠ d.linkWidth l
        (wrong → Completes (.linkIdentification l peer lanes) s (fun t => t.linkState l = 5 ∧ t.fld u o 36 12 = peer.toNat)) ∧
        (¬wrong → Completes (.linkIdentification l peer lanes) s (fun t => t.linkState l = 3 ∧ t.fld u o 36 12 = peer.toNat ∧
          (t.link l).echoes = 0))) ∧
      (∀ rtt turn : Nat, d.isTrelub l = true →
        (d.linkState l = 3 → (d.link l).echoes < 15 → Completes (.linkEchoReply l rtt turn) s (fun t => t.linkState l = 3 ∧
          (t.link l).echoes = (d.link l).echoes + 1)) ∧
        (d.linkState l = 3 → (d.link l).echoes = 15 → Completes (.linkEchoReply l rtt turn) s (fun t => t.linkState l = 4 ∧
          t.fld u o 48 16 = if rtt < (d.link l).rtt then measOf rtt turn else measOf (d.link l).rtt (d.link l).turnaround)) ∧
        (d.linkState l = 4 → Completes (.linkMeasurePeriod l rtt turn) s (fun t => t.linkState l = 4 ∧ t.fld u o 48 16 = measOf rtt turn) ∧
          Completes (.linkFrameTimeout l) s (fun t => t.linkState l = 0) ∧
          (∀ lseq : BitVec 16, let e := d.linkAck l lseq.toNat
            let k := e.link l
            ((if k.nakSeq = lseq.toNat then k.naks + 1 else 1) < 8 → Completes (.trelubNakRx l lseq) s (fun t =>
              t.sent = e.sent ++ k.replay.map (fun f => Sent.frame l f.2 d.dt) ∧ (t.link l).nakSeq = lseq.toNat)) ∧
            (8 ≤ (if k.nakSeq = lseq.toNat then k.naks + 1 else 1) → Completes (.trelubNakRx l lseq) s (fun t => t.linkState l = 0))) ∧
          (∀ b : List Byte, b.length = 256 →
            let f := parseFrame b
            (crc32c (b.take 252) ≠ dLe b 252 4 → (d.link l).naked = false → Completes (.trelubFrameRx l b false) s (fun t =>
              (t.link l).naked = true ∧ t.nt.got = d.nt.got)) ∧
            (crc32c (b.take 252) = dLe b 252 4 → frameTypeOk f.cls f.ty = true → f.cls = 2 ∨ f.cls = 3 → f.dst = d.ownId →
              (dLe b 2 2 = (d.link l).expect → Completes (.trelubFrameRx l b false) s (fun t => t.nt.got = d.nt.got ++ [b] ∧
                (t.link l).expect = ((d.link l).expect + 1) % 65536 ∧ (t.link l).naked = false)) ∧
              (dLe b 2 2 ≠ (d.link l).expect → Completes (.trelubFrameRx l b false) s (fun t => t.nt.got = d.nt.got ∧
                (t.link l).expect = (d.link l).expect)))) ∧
          ((d.link l).replay.length < 512 → (d.link l).waiting = [] → Completes (.trelubTimeFrameSend l) s (fun t =>
            ∃ b, t.sent = d.sent ++ [.frame l b d.dt] ∧ (t.link l).replay = (d.link l).replay ++ [((d.link l).next, b)]))))) ∧
    (∀ (l : Fin 46) (speed : BitVec 3) (width : BitVec 4),
      (∀ h : Fin 2, l.val = 40 + h.val → d.flag (mgtUid h) 0x4000 0 = true → speed.toNat < 3 → Completes (.linkTrainingDone l speed width) s (fun t =>
        t.flag (mgtUid h) 0x4000 3 = true ∧ t.fld (mgtUid h) 0x4000 4 2 = speed.toNat)) ∧
      (∀ g : Fin 4, l.val = 42 + g.val → d.flag (pcieUid g) 0x4000 0 = true → 1 ≤ speed.toNat → speed.toNat ≤ d.fld (pcieUid g) 0x4000 2 3 →
        width.toNat = 1 ∨ width.toNat = 2 ∨ width.toNat = 4 ∨ width.toNat = 8 → Completes (.linkTrainingDone l speed width) s (fun t =>
          t.flag (pcieUid g) 0x4000 7 = true ∧ t.fld (pcieUid g) 0x4000 8 3 = speed.toNat ∧ t.fld (pcieUid g) 0x4000 11 4 = width.toNat))) ∧
    (∀ h : Fin 2, d.flag (mgtUid h) 0x4000 3 = true → Completes (.linkSignalLoss ⟨40 + h.val, by omega⟩) s (fun t =>
      t.flag (mgtUid h) 0x4000 3 = false)) ∧
    Completes (.routeAdvertisement none false none) s (fun t =>
      t.sent = d.sent ++ [.advert (((List.range 40).filter d.isTrelub).map (fun l => (l, d.linkState l, d.linkDelay l))) d.dt]) ∧
    (∀ (x : BitVec 12) (sec : Bool) (sum : Option (BitVec 32)), Completes (.routeAdvertisement (some x) sec sum) s (fun t =>
      SMap.get (fun _ => 0) t.nt.adv (2 * x.toNat + sec.toNat) = (match sum with | some n => n.toNat + 1 | none => 2 ^ 32 + 1) ∧ d.SameMem t)) ∧
    (∀ r : Fin 16,
      let st := offProxy r + 0x10
      let dest := d.reg mbxU (offProxy r)
      let m := bits dest 25 9
      (∀ (src : BitVec 12) (far : Fin 16) (v : Word),
        let good : Bool := bit dest 0 && bits dest 9 12 == src.toNat && bits dest 21 4 == far.val
        (good = true → d.flag mbxU (mbxOff m 8) 0 = false → Completes (.proxyMessageRx src far r v) s (fun t =>
          t.reg mbxU (mbxOff m 0) = v ∧ t.flag mbxU (mbxOff m 8) 0 = true ∧ t.flag mbxU (mbxOff m 8) 16 = true)) ∧
        (good = false → Completes (.proxyMessageRx src far r v) s (fun t => t.regs = d.regs))) ∧
      (∀ (kind : Fin 3) (code : BitVec 32),
        (d.flag mbxU st 0 = false → Completes (.proxyAnswerRx r kind code) s (fun t => t = d)) ∧
        (d.flag mbxU st 0 = true →
          Completes (.proxyAnswerRx r 0 code) s (fun t => t.regs = d.regs ∧ SMap.get (fun _ => 0) t.nt.proxyAt r.val = 0) ∧
          Completes (.proxyAnswerRx r 1 code) s (fun t => t.flag mbxU st 3 = true ∧ t.flag mbxU st 0 = false) ∧
          Completes (.proxyAnswerRx r 2 code) s (fun t => t.fld mbxU st 32 32 = code.toNat ∧ t.flag mbxU st 1 = true ∧ t.flag mbxU st 0 = false ∧
            t.flag mbxU (mbxOff m 0x18) 29 = true))) ∧
      (d.flag mbxU st 0 = true → ∀ a, a = SMap.get (fun _ => 0) d.nt.proxyAt r.val →
        ((a ≠ 0 ∧ a - 1 + 100000 ≤ d.dt) ∨ d.routeDirs (bits dest 9 12) 3 = [] → Completes (.proxyTimeout r) s (fun t =>
          t.flag mbxU st 4 = true ∧ t.flag mbxU st 0 = false)) ∧
        (d.dt < a - 1 + 100000 → d.routeDirs (bits dest 9 12) 3 ≠ [] → Completes (.proxyTimeout r) s (fun t => t = d)))) ∧
    (∀ (src : BitVec 12) (ix : Fin 32) (off : BitVec 36),
      let e := d.reg (hubUid 0) (0x8200 + 8 * ix.val)
      let pa := bits e 8 27 * 2 ^ 21 + off.toNat / 64 * 64
      let open_ : Prop := bit e 0 = true ∧ bits e 35 12 = src.toNat ∧ off.toNat < 2 ^ bits e 1 6 ∧ (d.xrOf pa).isSome = true
      (∀ w, ¬open_ → Completes (.remoteMemoryRequest src ix off w) s (fun t => t.resp = .err errNotPermitted ∧ d.SameMem t)) ∧
      (∀ x y, open_ → d.homeLoad engRq pa = (x, .ok y) → Completes (.remoteMemoryRequest src ix off none) s (fun t =>
        t.resp = .data (natLe 64 y.toNat) ∧ x.SameMem t)) ∧
      (∀ w mask, bit e 7 = false → Completes (.remoteMemoryRequest src ix off (some (w, mask))) s (fun t =>
        t.resp = .err errNotPermitted ∧ d.SameMem t)) ∧
      (∀ (w : BitVec 512) (x : Dev), open_ → bit e 7 = true → d.engPut pa [byteOf w 0] = (x, .ok ()) →
        Completes (.remoteMemoryRequest src ix off (some (w, 1))) s (fun t => t.resp = .data [] ∧ x.SameMem t))) ∧
    (∀ pa : BitVec 48, (d.remWinOf pa.toNat).isSome = true → Completes (.remoteTimeout pa) s (fun t =>
      t.resp = .err errRemoteTimeout ∧ t.regs = d.regs ∧ d.SameMem t)) ∧
    (∀ (value : Word) (sub : BitVec 3) (trim : BitVec 32) (l : Nat), l = d.fld (hubUid 0) 0x8000 12 6 →
      let off : Int := value.toNat + (d.fld (quadUid (l / 4)) (offLink l) 48 16 + 240 : Nat) - (d.dt + sub.toNat + signedOf 64 (d.reg hbUid 0x8028).toNat)
      (d.fld hbUid 0x8000 0 3 ≠ 3 ∨ d.linkUp l = false → Completes (.trelubTimeFrame value sub trim) s (fun t => t = d)) ∧
      (d.fld hbUid 0x8000 0 3 = 3 → d.linkUp l = true → Completes (.trelubTimeFrame value sub trim) s (fun t =>
        (trim.toNat ≤ 51200000 → t.fld hbUid 0x8020 0 32 = trim.toNat) ∧ (d.anyCadence = true → t.reg hbUid 0x8028 = d.reg hbUid 0x8028) ∧
        (d.anyCadence = false → t.reg hbUid 0x8028 = BitVec.ofInt 64 (signedOf 64 (d.reg hbUid 0x8028).toNat + off))))) ∧
    (∀ g : Fin 4,
      let u := pcieUid g
      (∀ (status : Fin 4) (data : Word) (j : PcieReq), d.nt.pcie.find? (fun r => r.group == g.val) = some j →
        (j.kind = 0 → status = 0 → Completes (.pcieCompletion g status data) s (fun t => t.nt.pcie = d.nt.pcie.erase j ∧ t.fld u 0x4010 32 3 = 0 ∧
          t.reg u 0x4018 = BitVec.ofNat 64 (data.toNat % 2 ^ 32))) ∧
        (j.kind = 2 → status = 0 → Completes (.pcieCompletion g status data) s (fun t => t.nt.pcie = d.nt.pcie.erase j ∧
          t.resp = .data (natLe j.len data.toNat) ∧ t.regs = d.regs)) ∧
        (j.dt + d.pcieCto g ≤ d.dt →
          (j.kind = 0 → Completes (.pcieCompletionTimeout g) s (fun t => t.nt.pcie = d.nt.pcie.erase j ∧ t.fld u 0x4010 32 3 = 4 ∧
            t.reg u 0x4018 = 0xFFFFFFFF)) ∧
          (j.kind = 2 → Completes (.pcieCompletionTimeout g) s (fun t => t.nt.pcie = d.nt.pcie.erase j ∧ t.resp = .err errPcieTimeout))) ∧
        (d.dt < j.dt + d.pcieCto g → Completes (.pcieCompletionTimeout g) s (fun t => t = d))) ∧
      (∀ (pa : BitVec 48) (len : Fin 4097),
        (∀ w, d.xrOf pa.toNat = none → Completes (.pcieInboundAccess g pa len w) s (fun t => t.resp = .err errNotPermitted ∧ d.SameMem t)) ∧
        (∀ i e bs, d.xrOf pa.toNat = some i → d.inRange pa.toNat (max 1 len.val) = true → d.flag (hubUid 0) (0x5008 + 16 * i) 24 = true →
          d.engRead pa.toNat len.val = (e, .ok bs) → Completes (.pcieInboundAccess g pa len none) s (fun t => t.resp = .data bs ∧ e.SameMem t)) ∧
        (∀ i e bs x, d.xrOf pa.toNat = some i → d.inRange pa.toNat (max 1 bs.length) = true → d.flag (hubUid 0) (0x5008 + 16 * i) 24 = true →
          d.engWrite pa.toNat bs = (e, .ok x) → Completes (.pcieInboundAccess g pa len (some bs)) s (fun t => t.resp = .data [] ∧ e.SameMem t))) ∧
      (∀ data : BitVec 32,
        (data.toNat < 256 → d.flag (evcUid 0) (offEvSrc (0xC00 + 256 * g.val + data.toNat)) 1 = false → Completes (.pcieMsi g data) s (fun t =>
          t.flag (evcUid 0) (offEvSrc (0xC00 + 256 * g.val + data.toNat)) 40 = true)) ∧
        (256 ≤ data.toNat → d.flag u 0x2000 0 = false → Completes (.pcieMsi g data) s (fun t => t.flag u 0x2000 0 = true ∧
          t.fld u 0x2008 0 16 = 0x0504 ∧ t.fld u 0x2000 1 3 = 1))) ∧
      (d.flag u 0x2000 0 = false → Completes (.pcieAerError g) s (fun t => t.flag u 0x2000 0 = true ∧ t.fld u 0x2008 0 16 = 0x0503 ∧
        t.fld u 0x2000 1 3 = 2)) ∧
      (d.flag u 0x4000 7 = true → Completes (.pcieLinkLoss g) s (fun t => t.flag u 0x4000 7 = false ∧
        ∀ r, r ∈ t.nt.pcie ↔ r ∈ d.nt.pcie ∧ r.group ≠ g.val)))

/-! Boot, image and keys (chapters 13 and 16). -/

/-- The boot chain (R661, R667 to R669, R673, R678, R680 to R686, R807), the loading of an image (R587), key and revocation records and fuse
programming (R676, R677), loaders and release (R687 to R690): what each command leaves, and where it is turned away. -/
def Obligations.BootCommands : Prop :=
  ∀ s : State,
    let d := s.dev
    let extended (e t : Dev) (n : Nat) (b : List Byte) : Prop := t.measBytes n = shaBytes (e.measBytes n ++ shaBytes b)
    Completes .pwrGoodRise s (fun t => t.pw.good = true ∧ t.regs = d.regs ∧ d.SameMem t) ∧
    (∀ golden bench button : Bool, d.pw.good = true → d.stage = 0 → d.bt.dir = [] → d.pw.deep = .run →
      let why := d.whyB golden button
      let bn := if d.bt.strapped then d.bt.bench else bench
      (∀ b, dirOk b = true → Completes (.b0Start golden bench button (some b)) s (fun t => t.bt.dir = b ∧ t.bt.bench = bn ∧
        t.flag bootUid 0x4000 3 = decide (why ≠ 0) ∧ t.fld bootUid 0x4000 4 3 = why ∧ t.flag bootUid 0x4000 10 = bn ∧
        t.sv.sentAt = d.dt ∧ t.sv.sentMs = 10000 ∧ d.SameMem t)) ∧
      (∀ dir, why ≠ 0 → (∀ b, dir = some b → dirOk b = false) → Completes (.b0Start golden bench button dir) s (fun t => t.stage = 5)) ∧
      (∀ dir, why = 0 → (∀ b, dir = some b → dirOk b = false) → Completes (.b0Start golden bench button dir) s (fun t =>
        d.WarmStarted t 4))) ∧
    (∀ (e : Fin 62) (b : List Byte),
      let ent := d.dirEntry e
      let ty := iLe ent 0 1
      d.bt.dir ≠ [] → e.val < iLe d.bt.dir 6 2 → ty ≤ 7 → stageOf ty d.stage = true →
        (ty = 3 → b.length = iLe ent 8 4 → Completes (.copyEngineDone e (some b)) s (fun t => (e.val, b) ∈ t.bt.objs ∧ extended d t 3 b)) ∧
        (ty = 1 ∨ ty = 2 → iLe b 12 4 ≤ 6 * 65536 → objOk ent b = true → d.objTrust b false = 0 → Completes (.copyEngineDone e (some b)) s (fun t =>
          (e.val, b) ∈ t.bt.objs ∧ extended d t ty b ∧ t.stage = d.stage)) ∧
        (ty = 5 → objOk ent b = true → d.loaderFits b = true → d.objTrust b false = 0 → Completes (.copyEngineDone e (some b)) s (fun t =>
          (e.val, b) ∈ t.bt.objs ∧ t.regs = d.regs)) ∧
        (∀ code, ty = 6 ∨ ty = 7 → objOk ent b = true → code = d.objTrust b false → code ≠ 0 → Completes (.copyEngineDone e (some b)) s (fun t =>
          t.flag bootUid 0x4000 8 = true ∧ t.fld bootUid 0x4000 16 8 = e.val ∧ t.fld bootUid 0x4000 24 8 = code)) ∧
        (2 < ty → d.slotB = true → Completes (.copyEngineDone e none) s (fun t => t.bt.noRelease = true ∧ t.fld bootUid 0x4000 16 8 = e.val ∧
          t.fld bootUid 0x4000 24 8 = 4))) ∧
    (∀ o, d.stage = 0 → d.objOf 1 0 = some o → Completes .stageHandover s (fun t => t.stage = 1 ∧ t.bt.romOff = true)) ∧
    (∀ o, d.stage = 1 → d.objOf 2 0 = some o → Completes .stageHandover s (fun t => t.stage = 2 ∧ t.pw.vcoreEn = List.range 8 ∧
      ∀ g, g < 8 → t.railOf g = d.fallback g)) ∧
    (d.flag hbUid 0xB000 0 = true → Completes .harebellArm s (fun t => t = d)) ∧
    (∀ e b, d.flag hbUid 0xB000 0 = false → d.objOf 4 0 = some (e, b) → Completes .harebellArm s (fun t => t.flag hbUid 0xB000 0 = true ∧
      t.hb.msgs = bundleMsgs ((b.drop 128).take (iLe b 12 4)) ∧ extended d t 5 b ∧
      ∀ (ws : List Word) (i o : Nat) (w : Word), d.nv.hbRec = some ws → ws[i]? = some w → hbRecOffs[i]? = some o → t.reg hbUid o = w)) ∧
    (∀ e img, d.stage = 2 → d.objOf 3 0 = some (e, img) →
      (∀ code off, d.structCheck img (iLe (d.dirEntry e) 8 4) = some (code, off) →
        (d.slotB = true → Completes .imageLoad s (fun t => t.stage = 3 ∧ t.bt.noRelease = true ∧ t.fld bootUid 0x4800 0 16 = code % 65536 ∧
          t.kp = d.kp ∧ d.SameMem t)) ∧
        (d.slotB = false → Completes .imageLoad s (fun t => d.WarmStarted t 4))) ∧
      (d.structCheck img (iLe (d.dirEntry e) 8 4) = none → Completes .imageLoad s (fun t =>
        ∃ x : Dev, t = x.planLoad ∧ x.stage = 3 ∧ x.kp.image = img ∧ x.bt.staging = false))) ∧
    (∀ (e : Fin 62) (b : List Byte) (j : Nat), d.bt.objs.find? (fun x => x.1 == e.val) = some (j, b) → d.kp.image ≠ [] →
      let n := iLe b 128 1
      let k := iLe (objSig b) 4 1
      (iLe (d.dirEntry e) 0 1 = 6 →
        let ok : Prop := d.objTrust b false = 0 ∧ 1 ≤ n ∧ n ≤ 3 ∧ k ≠ n ∧ d.flag bootUid 0x4010 n = false ∧ zeros b 129 15 = true
        (ok → Completes (.keyRecord e) s (fun t => t.bt.fuseJobs = d.bt.fuseJobs ++ [(0, n, beNat ((b.drop 144).take 48))] ∧ t.nv = d.nv)) ∧
        (¬ok → Completes (.keyRecord e) s (fun t => t.bt = d.bt ∧ t.nv = d.nv))) ∧
      (iLe (d.dirEntry e) 0 1 = 7 → iLe b 129 1 = 0 → n ≤ 3 → zeros b 130 62 = true →
        let ok : Prop := d.objTrust b false = 0 ∧ k ≠ n ∧ iLe b 7 1 ≠ 0 ∧ ∃ j, j < 4 ∧ j ≠ n ∧ d.flag bootUid 0x4010 j = true ∧ d.fuseRevoked j = false
        (ok → Completes (.revocationRecord e) s (fun t => t.bt.fuseJobs = d.bt.fuseJobs ++ [(1, n, 0)] ∧ t.nv = d.nv)) ∧
        (¬ok → Completes (.revocationRecord e) s (fun t => t.bt = d.bt ∧ t.nv = d.nv)))) ∧
    (∀ kind n hash rest, d.bt.fuseJobs = (kind, n, hash) :: rest → n < 4 →
      (d.nvAllowed = false → Completes .fuseProgram s (fun t => t = d)) ∧
      (d.nvAllowed = true → Completes .fuseProgram s (fun t => t.bt.fuseJobs = rest ∧
        (kind = 0 → SMap.get (fun _ => 0) t.nv.keyHash n = hash + 1 ∧ t.flag bootUid 0x4010 n = true) ∧
        (kind = 1 → t.flag bootUid 0x4010 (n + 4) = true ∧ t.nv = d.nv) ∧ (kind = 2 → t.flag bootUid 0x4010 (n + 8) = true ∧ t.nv = d.nv)))) ∧
    (∀ (p : Fin 256) e b r d1, d.objOf 5 p.val = some (e, b) → d.recOf p.val = some r → d.kp.released.contains p.val = false →
      (∀ a, a ∈ d.loaderPlaces r b → a < 2 ^ 47 → d.extentReady a ((b.drop 128).take (iLe b 12 4)).length = true) →
      d.loaderWrite p.val (d.loaderPlaces r b) ((b.drop 128).take (iLe b 12 4)) = (d1, true) → Completes (.loaderCopy p) s (fun t =>
        t.bt.loaded.contains p.val = true ∧ extended d1 t (8 + p.val % 8) b ∧ d1.SameMem t)) ∧
    (∀ (p : Fin 256) r, d.bt.planDone = true → d.recOf p.val = some r →
      (d.hasLoader p.val = false → d.flag bootUid 0x2000 0 = false → Completes (.partitionRelease p) s (fun t => t.Recorded bootUid 0x0802 2)) ∧
      (d.hasLoader p.val = true → d.bt.loaded.contains p.val = true → d.releasable r = true →
        (∀ l, r.vectorBad = some l → d.flag bootUid 0x2000 0 = false → Completes (.partitionRelease p) s (fun t => t.Recorded bootUid 0x0803 4)) ∧
        (r.vectorBad = none → Completes (.partitionRelease p) s (fun t => t.kp.released.contains p.val = true)))) ∧
    (d.pw.good = true → d.pw.deep = .run → Completes .serviceButtonHeld s (fun t => d.WarmStarted t 9)) ∧
    (d.pw.good = false → Completes .serviceButtonHeld s (fun t => t = d)) ∧
    (d.bt.allAt ≠ 0 → d.bt.allAt + 60000000000 ≤ d.dt + 1 → Completes .slotSettled s (fun t => t.flag bootUid 0x4008 3 = true ∧
      t.fld bootUid 0x4008 0 2 = 0 ∧ t.bt = d.bt))

/-! Epochs, fences lifted, spares (chapters 2 and 14). -/

/-- The keeper's posts of the four phases (R594, R601 to R605, R415), the acknowledgements and the values that a unit takes (R597, R604), laggards
(R611, R612), a transaction sent again after "epoch retry" (R609), a fence lifted (R18) and a spare put in a failed cluster's place (R28, R29):
what each leaves, and where the post is out of turn. -/
def Obligations.EpochCommands : Prop :=
  ∀ s : State,
    let d := s.dev
    let next := (d.epNumber + 1) % 2 ^ 32
    let counted : List Nat := ((List.range 6).flatMap dieUnits).filter d.counted
    let posted (t : Dev) (e mode phase : Nat) : Prop := ∀ i, i < 6 → t.fld (dieUid i) 0x4100 0 32 = e ∧ t.fld (dieUid i) 0x4100 32 8 = mode ∧
      t.fld (dieUid i) 0x4100 40 2 = phase ∧ SMap.get (fun _ => 0) t.ep.postedAt i = d.dt + 1
    let same (i : Instr) : Prop := Completes i s (fun t => t = d)
    (∀ (mode part : BitVec 8) (all : Bool) (values : List (Nat × Nat × Word)),
      let rung (t : Dev) : Prop := ∀ l p, l < 256 → d.lcorePart l = some p → all = true ∨ p = part.toNat → t.flag mbxU (mbxOff l 0x18) 30 = true
      (d.ep.complete = true → 1 ≤ mode.toNat → mode.toNat ≤ 14 →
        (strictMode mode.toNat = false → Completes (.epochPostApplyDual mode part all values) s (fun t => posted t next mode.toNat 0 ∧
          t.ep.complete = false ∧ t.ep.pend = counted ∧ (∀ v, v ∈ t.ep.values → v ∈ values) ∧ rung t ∧ t.cores = d.cores ∧ d.SameMem t)) ∧
        (strictMode mode.toNat = true → Completes (.epochPostQuiesce mode part all) s (fun t => posted t next mode.toNat 1 ∧
          t.ep.complete = false ∧ t.ep.pend = counted ∧ rung t ∧ t.cores = d.cores ∧ d.SameMem t))) ∧
      (d.ep.complete = false ∨ strictMode mode.toNat = true → same (.epochPostApplyDual mode part all values)) ∧
      (d.ep.complete = false ∨ strictMode mode.toNat = false → same (.epochPostQuiesce mode part all))) ∧
    (d.ep.complete = false → d.epPend = [] → d.epStrict = true → ∀ mode, mode = bits d.epReg 32 8 →
      (∀ values, d.epPhase = 1 → Completes (.epochPostApplyStrict values) s (fun t => posted t d.epNumber mode 2 ∧ t.ep.complete = false ∧
        t.ep.pend = counted ∧ (∀ v, v ∈ t.ep.values → v ∈ values) ∧ t.cores = d.cores)) ∧
      (d.epPhase = 2 → Completes .epochPostResume s (fun t => posted t d.epNumber mode 3 ∧ t.ep.complete = true ∧ t.ep.pend = [] ∧
        t.ep.values = [] ∧ t.cores = d.cores))) ∧
    (d.ep.complete = true ∨ d.epPend ≠ [] ∨ d.epStrict = false → (∀ values, same (.epochPostApplyStrict values)) ∧ same .epochPostResume) ∧
    (∀ u : BitVec 16, d.ep.held = [] →
      (d.epPend.contains u.toNat = false → same (.epochUnitAck u)) ∧
      (d.epPend.contains u.toNat = true → (unitKind u.toNat = some .core → d.coreSafe (coreId (uidCore u.toNat)) = true) →
        Completes (.epochUnitAck u) s (fun t => ∀ x, t.ep.pend.contains x = (d.ep.pend.contains x && x != u.toNat)) ∧
        (∀ off v r i, unitKind u.toNat = some .l2 → d.epPhase ≠ 1 → d.ep.values = [(u.toNat, off, v)] → regAt u.toNat off = some (r, i) →
          Completes (.epochUnitAck u) s (fun t => ∀ j, j < 64 →
            t.flag u.toNat off j = (if (BitVec.ofNat 64 (rwMask r.fields) : Word).getLsbD j then bit v j else d.flag u.toNat off j)))) ∧
      (unitKind u.toNat = some .core → d.coreSafe (coreId (uidCore u.toNat)) = false → same (.epochUnitAck u))) ∧
    (∀ die : Fin 6,
      let p := SMap.get (fun _ => 0) d.ep.postedAt die
      let late : List Nat := d.epPend.filter (fun u => uidDie u == die.val)
      (p ≠ 0 → p + d.epBound die ≤ d.dt + 1 → late ≠ [] → Completes (.epochLaggardRetry die) s (fun t => t.flag (dieUid die) 0x4110 35 = true ∧
        t.ep = d.ep)) ∧
      (p = 0 ∨ d.dt + 1 < p + d.epBound die ∨ late = [] → same (.epochLaggardRetry die)) ∧
      (p ≠ 0 → p + 2 * d.epBound die ≤ d.dt + 1 → d.flag (dieUid die) 0x4110 35 = true → Completes (.epochLaggardFence die) s (fun t =>
        (∀ u, u ∈ late → unitKind u ≠ none → t.fenced u = true) ∧
        (late ≠ [] → d.flag (dieUid die) 0x2000 0 = false → t.Recorded (dieUid die) 0x0601 3))) ∧
      (p = 0 ∨ d.dt + 1 < p + 2 * d.epBound die ∨ d.flag (dieUid die) 0x4110 35 = false → same (.epochLaggardFence die))) ∧
    (∀ u : BitVec 16,
      (d.ep.retry.find? (fun e => e.1 == u.toNat) = none → same (.epochRetryResend u)) ∧
      (∀ e x a, d.ep.retry.find? (fun e => e.1 == u.toNat) = some e →
        (d.epNew u.toNat = false → d.epPend ≠ [] → same (.epochRetryResend u)) ∧
        (d.epPend = [] → ∀ d0 : Dev, d0 = { d with ep := { d.ep with retry := d.ep.retry.erase e } } → d0.reqWindow e.2 = true →
          d0.serve e.2 = (x, a) → Completes (.epochRetryResend u) s (fun t => t = x.answer a)))) ∧
    (∀ u : BitVec 16,
      (d.fenced u.toNat = false → same (.liftFence u)) ∧
      (d.fenced u.toNat = true → d.ep.values = [] → Completes (.liftFence u) s (fun t => t.fenced u.toNat = false ∧
        (∀ x, x ≠ u.toNat → t.fenced x = d.fenced x) ∧ t.ep.pend.contains u.toNat = false))) ∧
    (∀ k : Fin 72,
      (d.kp.lost.contains k.val = false ∨ d.ep.complete = false → same (.spareIn k)) ∧
      (d.kp.lost.contains k.val = true → d.ep.complete = true →
        (spareFor d.rolesNow d.spareUsable k = none → Completes (.spareIn k) s (fun t => t.kp.lost.contains k.val = false ∧
          (∀ u, u ∈ clusterUnits k → t.role u = 2) ∧ (d.flag d.keeperU 0x2000 0 = false → t.Recorded d.keeperU 0x0602 4))) ∧
        (∀ j, spareFor d.rolesNow d.spareUsable k = some j → usersOf d.kp.recs k = [] → Completes (.spareIn k) s (fun t =>
          t.kp.lost.contains k.val = false ∧ (∀ u, u ∈ clusterUnits k → t.role u = 2) ∧ (∀ u, u ∈ clusterUnits j → t.role u = 0) ∧
          t.kp.recs = d.kp.recs.map (fun r => r.moveCluster k j) ∧ ∀ c, c ∈ clusterCores k → (t.core c).placed = false))))

/-! Die temperature, pace, stalls and time (chapter 2). -/

/-- Die temperature (R42 to R44), pace and its governor (R61 to R63, R67 to R69), the SMBus timeout (R806), stalls (R80), time counters and marks
(R84, R86, R89), the PLL and the ticks (R90, R91), and the references of the time base (R93 to R95): what each command leaves. -/
def Obligations.DeviceTimeAndPace : Prop :=
  ∀ s : State,
    let d := s.dev
    let same (i : Instr) : Prop := Completes i s (fun t => t = d)
    (∀ (die : Fin 6) (temp : BitVec 12) (sensor : BitVec 4),
      let u := dieUid die
      let now := signedOf 12 temp.toNat
      let crit : Int := 8 * (d.fld u 0x4008 8 8 : Int)
      (now < crit → Completes (.tempConversion die temp sensor) s (fun t => t.reg u 0x4000 =
          BitVec.ofNat 64 (temp.toNat + 2 ^ 12 + 2 ^ 16 * sensor.toNat) ∧
        (d.pw.hot.contains die.val = false → 8 * (d.fld u 0x4008 0 8 : Int) ≤ now → t.pw.hot.contains die.val = true ∧
          (d.flag u 0x2000 0 = false → t.Recorded u 0x0205 1) ∧ (d.flag u 0x4008 16 = true → t.evLevel.contains (0x444 + die.val) = true)) ∧
        (d.pw.hot.contains die.val = true → now + 24 ≤ 8 * (d.fld u 0x4008 0 8 : Int) → t.pw.hot.contains die.val = false ∧
          t.evLevel.contains (0x444 + die.val) = false) ∧ t.cores = d.cores)) ∧
      (crit ≤ now → d.flag u 0x4000 12 = false → -2048 < crit → d.flag u 0x4008 17 = false → d.pw.hot.contains die.val = true →
        d.flag u 0x2000 0 = false → 8 * (d.fld u 0x4008 0 8 : Int) < now + 24 → Completes (.tempConversion die temp sensor) s (fun t =>
          t.Recorded u 0x0206 3 ∧ t.cores = d.cores)) ∧
      (crit ≤ now → d.flag u 0x4000 12 = false → -2048 < crit → d.flag u 0x4008 17 = true → die.val < 4 →
        Completes (.tempConversion die temp sensor) s (fun t => ∀ c : CoreId, c.val / 72 = die.val →
          (t.core c).pc = 0 ∧ (t.core c).run = .reset ∧ (t.core c).placed = (d.core c).placed))) ∧
    (∀ (k : Fin 72) (pace : BitVec 16),
      let u := regionUid (k.val / 9)
      let a := 0x4100 + 8 * (k.val % 9)
      (3 ≤ d.power (l2Uid k) → same (.paceWindow k pace)) ∧
      (d.power (l2Uid k) < 3 → Completes (.paceWindow k pace) s (fun t => t.fld u a 0 16 = pace.toNat ∧
        t.fld u a 16 16 = min (d.fld u a 16 16) pace.toNat ∧ t.flag u a 32 = true ∧
        (d.role (l2Uid k) = 0 → d.fld u 0x4000 0 16 ≠ 0 → 100 * pace.toNat < d.fld u 0x4000 0 16 * (100 + d.fld u 0x4000 16 8) →
          t.flag u 0x4000 32 = true ∧ t.evLevel.contains (0x44A + k.val / 9) = true)))) ∧
    (∀ (g : Fin 8) (fast : Bool),
      let u := regionUid g
      let req := d.fld u 0x4000 0 16
      let above : Prop := ∀ c, c < 9 → d.clusterActive (9 * g.val + c) = true →
        req * (100 + d.fld u 0x4000 24 8) ≤ 100 * d.fld u (0x4100 + 8 * c) 16 16
      let done (mv : Nat) : Prop := Completes (.governorEvaluation g fast) s (fun t => t.railOf g = mv ∧
        (∀ c, c < 9 → t.fld u (0x4100 + 8 * c) 16 16 = 0xFFFF ∧ t.fld u (0x4100 + 8 * c) 0 16 = d.fld u (0x4100 + 8 * c) 0 16) ∧
        ∀ h, h ≠ g.val → t.railOf h = d.railOf h)
      let mv := d.railOf g
      (mv = 0 → done 0) ∧ (mv ≠ 0 → d.kp.floorMode.contains g.val = true → done (max mv (d.fallback g))) ∧
      (mv ≠ 0 → d.kp.floorMode.contains g.val = false →
        (above → fast = true → 555 ≤ mv → done (mv - 5)) ∧ (above → fast = false ∨ mv < 555 → done mv) ∧
        (¬above → mv ≤ 895 → done (mv + 5)) ∧ (¬above → 895 < mv → done mv)) ∧
      (d.flag u 0x4000 32 = true → Completes (.paceAlarmResponse g) s (fun t => t.railOf g = max mv (d.fallback g) ∧ t.regs = d.regs)) ∧
      (d.flag u 0x4000 32 = false → same (.paceAlarmResponse g)) ∧
      (d.tm.noTick.contains g.val = true → same (.tickLoss g)) ∧
      (d.tm.noTick.contains g.val = false → Completes (.tickLoss g) s (fun t => t.tm.noTick.contains g.val = true ∧
        (d.flag u 0x2000 0 = false → t.Recorded u 0x0204 4))) ∧
      Completes (.tickRestore g) s (fun t => t.tm.noTick.contains g.val = false ∧ t.regs = d.regs)) ∧
    (∀ (target : BitVec 7) (cmd : BitVec 8) (point : Bool), Completes (.smbTimeout target cmd point) s (fun t =>
      (d.flag d.keeperU 0x2000 0 = false → t.Recorded d.keeperU 0x0208 2) ∧
      (∀ g, g < 8 → point = true → target.toNat = 0x40 + g → SMap.get (fun _ => 0) d.pw.railAt g ≠ 0 →
        t.railOf g = SMap.get (fun _ => 0) d.pw.railOld g) ∧ (point = false → t.pw = d.pw))) ∧
    (∀ (u : Nat) (p : Fin 64) (phase : BitVec 2) (holds : Bool),
      let q := (port u p).1
      (d.canStall u p = false → same (.stallExpiry u p phase holds)) ∧
      (d.canStall u p = true → u < 0xC000 → Completes (.stallExpiry u p phase holds) s (fun t => t.flag u 0x1008 p = true ∧
        t.fld u 0x1010 0 6 = p.val ∧ t.fld u 0x1010 6 2 = phase.toNat ∧ (d.flag u 0x2000 0 = false → t.Recorded u 0x0201 2) ∧
        (q ≠ u → t.kp.toFence.contains q = true) ∧ t.resp = if holds then .err errStalled else d.resp))) ∧
    (∀ k : Fin 72, Completes (.timeCounterLoad k) s (fun t => SMap.get (fun _ => 0) t.tm.tc k = (d.dt / 8192 + 1) * 8192 + 1 ∧
      t.regs = d.regs ∧ ∀ j, j ≠ k.val → SMap.get (fun _ => 0) t.tm.tc j = SMap.get (fun _ => 0) d.tm.tc j)) ∧
    (d.dt % 8192 ≠ 0 → ∀ bad, same (.dtMark bad)) ∧
    (d.dt % 8192 = 0 → d.tm.load = none → same (.dtMark []) ∧ ∀ k : Fin 72, d.counterValid k = true → Completes (.dtMark [k]) s (fun t =>
      SMap.get (fun _ => 0) t.tm.tc k = d.dt + 8192 + 1 ∧
      (d.flag (regionUid (k.val / 9)) 0x2000 0 = false → t.Recorded (regionUid (k.val / 9)) 0x0202 1))) ∧
    (∀ v bad, d.dt % 8192 = 0 → d.tm.load = some v → Completes (.dtMark bad) s (fun t => t.dt = v * 8192 ∧ t.tm.load = none ∧
      ∀ k, k < 72 → SMap.get (fun _ => 0) t.tm.tc k = (v + 1) * 8192 + 1)) ∧
    Completes .pllLockLoss s (fun t => t.flag hbUid 0x8008 5 = true ∧ (d.flag hbUid 0x2000 0 = false → t.Recorded hbUid 0x0203 2)) ∧
    (∀ (off : Int) (trim : BitVec 32) (net : Word),
      (d.fld hbUid 0x8000 0 3 ≠ 2 → same (.ptpEventMessage off trim net)) ∧
      (d.fld hbUid 0x8000 0 3 = 2 → Completes (.ptpEventMessage off trim net) s (fun t =>
        t.reg hbUid 0x8028 = (if d.anyCadence then d.reg hbUid 0x8028 else net) ∧
        (-51200000 ≤ trim.toInt → trim.toInt ≤ 51200000 → t.fld hbUid 0x8020 0 32 = trim.toNat) ∧
        t.tm.streak = (if off.natAbs < 100 then min 16 (d.tm.streak + 1) else 0) ∧
        t.fld hbUid 0x8008 0 2 = if t.tm.streak = 16 then 2 else 1))) ∧
    (∀ (sub : BitVec 3) (off : Int),
      let src := d.fld hbUid 0x8000 0 3
      Completes (.ppsEdge sub off) s (fun t => t.reg hbUid 0x8030 = BitVec.ofNat 64 (d.dt + sub.toNat) ∧ t.flag hbUid 0x8008 3 = true ∧
        t.tm.streak = (if src = 1 ∨ src = 4 then if off.natAbs < 100 then min 16 (d.tm.streak + 1) else 0 else d.tm.streak)) ∧
      (src = 0 → same .holdoverEntry) ∧
      (src ≠ 0 → Completes .holdoverEntry s (fun t => t.fld hbUid 0x8008 0 2 = 3 ∧ t.tm.streak = 0 ∧ t.reg hbUid 0x8020 = d.reg hbUid 0x8020)))

/-! Power states, resets, supplies and the journal (chapter 15). -/

/-- Nap (R621 to R624), Hold (R625 to R628, R637 to R639), a region switched off and on (R630), Deep and its exit (R631 to R635, R639, R660,
R694 to R696), the supply monitors and the reserve (R646 to R648), the journal (R649), the resets and what each leaves (R651 to R653, R822), and
the removal of power (R621). -/
def Obligations.PowerCommands : Prop :=
  ∀ s : State,
    let d := s.dev
    let same (i : Instr) : Prop := Completes i s (fun t => t = d)
    let halfway : Prop := d.pw.deep = .deep ∧ d.sv.sentAt + 500000 * d.sv.sentMs ≤ d.dt
    let wiped (t : Dev) (c : CoreId) : Prop := (t.core c).run = .reset ∧ (t.core c).pc = 0 ∧ ∀ x, (t.core c).rd x = 0 ∧ (t.core c).vrd x = 0
    let refused (t : Dev) (u o code by_ : Nat) : Prop := t.fld u o 0 16 = min 65535 (d.fld u o 0 16 + 1) ∧ t.fld u o 32 16 = by_ ∧ t.fld u o 48 8 = code
    let aborted (t : Dev) (u o code by_ : Nat) : Prop := t.fld u o 16 16 = min 65535 (d.fld u o 16 16 + 1) ∧ t.fld u o 32 16 = by_ ∧ t.fld u o 48 8 = code
    (∀ c : CoreId,
      let u := coreUid c
      let k := d.core c
      let w := SMap.get (fun _ => 0) d.pw.napWake c
      let due : Prop := d.flag u 0x4480 0 = true ∧ d.power u = 1 ∧ k.dozeAt + 1000 * d.fld u 0x4480 4 12 ≤ d.dt
      (¬due → same (.napEntry c)) ∧
      (due → d.inboxPending c = [] → Completes (.napEntry c) s (fun t => t.power u = 2 ∧ t.cores = d.cores ∧ d.SameMem t)) ∧
      (due → d.inboxPending c ≠ [] → Completes (.napEntry c) s (fun t => t.power u = 1 ∧ refused t u 0x4508 1 u ∧ t.cores = d.cores)) ∧
      (w = 0 ∨ d.dt + 1 < w + 4000 → same (.napExit c)) ∧
      (w ≠ 0 → w + 4000 ≤ d.dt + 1 → Completes (.napExit c) s (fun t => t.power u = 1 ∧ SMap.get (fun _ => 0) t.pw.napWake c = 0 ∧
        k.SameData (t.core c))) ∧
      (∀ cad rd, k.run = .waitb cad rd → d.cadEn cad = true → d.dtStart cad ((SMap.get (fun _ => 0) k.lastBlk cad : Nat) : Int) ≤ d.dt → d.power u = 2 → w = 0 →
        Completes (.napEarlyWake c) s (fun t => SMap.get (fun _ => 0) t.pw.napWake c = d.dt + 1 ∧ t.regs = d.regs ∧ t.cores = d.cores)) ∧
      (k.run = .run → same (.napEarlyWake c)) ∧
      Completes (.coreReset c) s (fun t => wiped t c ∧ (t.core c).placed = k.placed ∧ (t.core c).lcore = k.lcore ∧ (t.core c).part = k.part ∧
        (∀ x, x ≠ c → t.core x = d.core x) ∧ (∀ a, SMap.get zeroByte t.localStore a = if a / 2 ^ 17 = c.val then 0 else SMap.get zeroByte d.localStore a) ∧
        t.sdram = d.sdram ∧ t.l2 = d.l2 ∧ t.homes = d.homes)) ∧
    (∀ k : Fin 72,
      let g := regionUid (k.val / 9)
      let b := k.val % 9
      let o := 0x4200 + 8 * b
      let w := SMap.get (fun _ => 0) d.pw.holdWake k
      (∀ fail, 3 ≤ d.power (l2Uid k) → same (.holdRequest k fail)) ∧
      (∀ fail code, d.power (l2Uid k) < 3 → d.holdRefused k = some code → Completes (.holdRequest k fail) s (fun t => refused t g o code (l2Uid k) ∧
        t.flag g 0x4300 b = false ∧ t.cores = d.cores ∧ d.SameMem t)) ∧
      (∀ fail, d.power (l2Uid k) < 3 → d.holdRefused k = none →
        (d.allDoze k = false → Completes (.holdRequest k fail) s (fun t => t.flag g 0x4300 b = true ∧ t.power (l2Uid k) = d.power (l2Uid k) ∧
          t.cores = d.cores)) ∧
        (d.allDoze k = true → fail = 0x21 ∨ fail = 0x22 → Completes (.holdRequest k fail) s (fun t => t.flag g 0x4300 b = false ∧
          aborted t g o fail.toNat (l2Uid k) ∧ t.cores = d.cores)) ∧
        (d.allDoze k = true → fail ≠ 0x21 → fail ≠ 0x22 → Completes (.holdRequest k fail) s (fun t => t.flag g 0x4300 b = true ∧
          t.flag g 0x4300 (32 + b) = true ∧ t.pw.held.contains k.val = true ∧ (∀ u, u ∈ holdUnits k → t.power u = 3) ∧
          ∀ c, (d.core c).SameData (t.core c) ∧ (t.core c).pc = (d.core c).pc))) ∧
      (d.power (l2Uid k) = 3 → w = 0 → Completes (.holdExitRequest k) s (fun t => t.flag g 0x4300 b = false ∧
        SMap.get (fun _ => 0) t.pw.holdWake k = d.dt + 1 ∧ t.power (l2Uid k) = 3)) ∧
      (d.power (l2Uid k) = 3 → w ≠ 0 → same (.holdExitRequest k)) ∧
      (d.power (l2Uid k) < 3 → d.flag g 0x4300 b = true → Completes (.holdExitRequest k) s (fun t => t.flag g 0x4300 b = false ∧
        aborted t g o 0x20 (l2Uid k))) ∧
      (∀ ok, w = 0 ∨ d.dt + 1 < w + 20000 ∨ d.counterValid k = false → same (.holdExitComplete k ok)) ∧
      (w ≠ 0 → w + 20000 ≤ d.dt + 1 → d.counterValid k = true →
        Completes (.holdExitComplete k false) s (fun t => t.kp.lost.contains k.val = true ∧ (d.flag g 0x2000 0 = false → t.Recorded g 0x0409 3)) ∧
        (d.ep.values = [] → Completes (.holdExitComplete k true) s (fun t => t.power (l2Uid k) = 0 ∧ t.flag g 0x4300 (32 + b) = false ∧
          t.pw.held.contains k.val = false ∧ ∀ c, (d.core c).SameData (t.core c)))) ∧
      Completes (.clusterReset k) s (fun t => (∀ c : CoreId, c.val / 4 = k.val → wiped t c) ∧ t.pw.held.contains k.val = false)) ∧
    (∀ g : Fin 8,
      let u := regionUid g
      let w := SMap.get (fun _ => 0) d.pw.regionWake g
      let free : Prop := ∀ k, k ∈ regionClusters g → d.flag u 0x4300 (32 + k % 9) = true ∧ ∀ c, c ∈ clusterCores k → (d.core c).placed = false
      (d.flag u 0x4300 48 = true → same (.regionOffRequest g)) ∧
      (d.flag u 0x4300 48 = false → ¬free → Completes (.regionOffRequest g) s (fun t => refused t u 0x4248 0x0D u ∧ t.pw = d.pw)) ∧
      (d.flag u 0x4300 48 = false → free → Completes (.regionOffRequest g) s (fun t => t.flag u 0x4300 48 = true ∧ t.flag u 0x4300 16 = true ∧
        t.railOf g = 0 ∧ (∀ k x, k ∈ regionClusters g → x ∈ holdUnits k → t.power x = 4) ∧
        ∀ a, a / 2 ^ 17 / 36 = g.val → SMap.get zeroByte t.localStore a = 0)) ∧
      (d.flag u 0x4300 48 = true → w = 0 → Completes (.regionOnRequest g) s (fun t => t.railOf g = d.fallback g ∧ t.flag u 0x4300 16 = false ∧
        SMap.get (fun _ => 0) t.pw.regionWake g = d.dt + 1)) ∧
      (d.flag u 0x4300 48 = false ∨ w ≠ 0 → Completes (.regionOnRequest g) s (fun t => t.flag u 0x4300 16 = false ∧ t.pw = d.pw)) ∧
      (w = 0 ∨ d.dt + 1 < w + 200000 → same (.regionOnComplete g)) ∧
      (w ≠ 0 → w + 200000 ≤ d.dt + 1 → Completes (.regionOnComplete g) s (fun t => t.flag u 0x4300 48 = false ∧ ∀ k, k ∈ regionClusters g →
        t.power (l2Uid k) = 3 ∧ t.flag u 0x4300 (k % 9) = true ∧ t.flag u 0x4300 (32 + k % 9) = true)) ∧
      Completes (.regionReset g) s (fun t => (∀ c : CoreId, c.val / 36 = g.val → wiped t c) ∧
        ∀ a, a / 2 ^ 20 = g.val → SMap.get zeroByte t.regionSram a = 0)) ∧
    (d.pw.deep ≠ .entering → d.pw.keeperOnly = false → same .deepEnter) ∧
    (d.pw.deep = .entering → Completes .deepEnter s (fun t => t.pw.deep = .deep ∧ (∀ c, wiped t c ∧ (t.core c).placed = (d.core c).placed) ∧
      t.localStore = [] ∧ t.sdram = d.sdram ∧ t.retained = d.retained ∧ t.nv = d.nv ∧ (∀ g, t.railOf g = 0) ∧ t.fld hbUid 0x9010 0 10 = 0x3FF)) ∧
    (∀ src : BitVec 4,
      (d.wakeEnabled src.toNat = false ∨ d.pw.deep = .run → same (.deepWake src)) ∧
      (d.wakeEnabled src.toNat = true →
        (d.pw.deep = .entering → Completes (.deepWake src) s (fun t => t.pw.deep = .run ∧ t.bt.digest = none ∧ aborted t hbUid 0x9028 0x20 hbUid)) ∧
        (d.pw.deep = .deep → Completes (.deepWake src) s (fun t => t.pw.deep = .exiting ∧ t.pw.deepStep = 1 ∧ t.pw.deepAt = d.dt ∧
          t.pw.keeperOnly = false ∧ t.fld hbUid 0x9020 4 4 = src.toNat)))) ∧
    (¬halfway → same .deepSentinelWake) ∧
    (halfway → Completes .deepSentinelWake s (fun t => t.pw.deep = .exiting ∧ t.pw.keeperOnly = true ∧
        t.fld hbUid 0x9020 4 4 = 9)) ∧
    (∀ n, n = d.pw.deepStep + 1 → 2 ≤ n → n ≤ 7 →
      (∀ ok, d.pw.deep ≠ .exiting ∨ d.dt < d.pw.deepAt + deepTimes.getD (n - 1) 0 ∨ (d.pw.keeperOnly = true ∧ n = 4) → same (.deepExitStep ok)) ∧
      (d.pw.deep = .exiting → d.pw.deepAt + deepTimes.getD (n - 1) 0 ≤ d.dt → d.pw.keeperOnly = false →
        Completes (.deepExitStep true) s (fun t => t.pw.deepStep = n ∧ t.cores = d.cores ∧ d.SameMem t ∧
          (n = 4 → t.pw.vcoreEn = List.range 8 ∧ ∀ g, g < 8 → t.railOf g = d.fallback g) ∧
          (n = 6 → t.pw.held = List.range 72 ∧ ∀ k, k < 72 → t.power (l2Uid k) = 3)) ∧
        (n = 3 ∨ n = 5 → Completes (.deepExitStep false) s (fun t => d.WarmStarted t 8)))) ∧
    (∀ ok : Bool,
      (d.pw.deep ≠ .exiting ∨ d.pw.deepStep ≠ 7 → same (.fastPathRehash ok)) ∧
      (d.pw.deep = .exiting → d.pw.deepStep = 7 →
        (d.pw.warmWaits = true → Completes (.fastPathRehash ok) s (fun t => d.WarmStarted t 3)) ∧
        (d.pw.warmWaits = false → ok = false ∨ d.bt.digest = none → Completes (.fastPathRehash ok) s (fun t => d.WarmStarted t 7)) ∧
        (d.pw.warmWaits = false → ok = true → (∃ rs, d.bt.digest = some rs ∧ ∀ r, r ∈ rs → d.residentOk r = true) →
          Completes (.fastPathRehash ok) s (fun t => ∃ x : Dev, t = forAll (d.kp.recs.map (·.part)) (fun p e => e.partitionRelease p) x ∧
            x.pw.deep = .run ∧ x.stage = 3 ∧ x.flag bootUid 0x4000 7 = true ∧ x.nv = d.nv)))) ∧
    (∀ r : Fin 15,
      let b := railBit r
      let low : Prop := ∃ i, 1 ≤ i ∧ i ≤ 12 ∧ i ≠ b ∧ d.flag hbUid 0x9030 i = true
      (r.val < 8 ∨ 10 < r.val → Completes (.supplyMonitorTrip r false) s (fun t => t.flag hbUid 0x9030 b = true ∧ t.flag hbUid 0x9030 0 = true ∧
        t.cores = d.cores ∧ d.SameMem t)) ∧
      (8 ≤ r.val → r.val ≤ 10 → same (.supplyMonitorTrip r false)) ∧
      (r.val < 8 → Completes (.supplyMonitorTrip r true) s (fun t => (∀ c : CoreId, c.val / 36 = r.val → wiped t c) ∧
        (d.flag hbUid 0x2000 0 = false → t.Recorded hbUid 0x0207 3))) ∧
      (r.val = 8 → d.flag hbUid 0x2000 0 = false → Completes (.supplyMonitorTrip r true) s (fun t => t.Recorded hbUid 0x0207 4)) ∧
      (r.val = 9 ∨ r.val = 10 → Completes (.supplyMonitorTrip r true) s (fun t => ∀ l, l < 40 → d.isLink l = true → t.linkState l = 0)) ∧
      (r.val = 11 ∨ r.val = 12 → Completes (.supplyMonitorTrip r true) s (fun t => t.dt = 0 ∧ t.sdram = [] ∧ t.retained = d.retained ∧ t.nv = d.nv ∧
        ∀ c, t.core c = Core.initial)) ∧
      (12 < r.val → Completes (.supplyMonitorTrip r true) s (fun t => d.WarmStarted t 5 ∧ t.pw.vcoreEn = [])) ∧
      Completes (.supplyMonitorRecovery r) s (fun t => t.flag hbUid 0x9030 b = false ∧
        (¬low → d.flag hbUid 0x9030 15 = true → b ≠ 15 → t.flag hbUid 0x9030 0 = false) ∧ (low → t.flag hbUid 0x9030 0 = d.flag hbUid 0x9030 0))) ∧
    Completes .reserveCharged s (fun t => t.flag hbUid 0x9030 15 = true ∧ (d.fld hbUid 0x9030 1 12 = 0 → t.flag hbUid 0x9030 0 = false) ∧
      (d.fld hbUid 0x9030 1 12 ≠ 0 → t.flag hbUid 0x9030 0 = d.flag hbUid 0x9030 0)) ∧
    (∀ kind : Fin 6,
      (d.nvAllowed = false → same (.journalRecordWrite kind)) ∧
      (d.nvAllowed = true → Completes (.journalRecordWrite kind) s (fun t => t.regs = d.regs ∧ d.SameMem t ∧
        (kind = 0 → d.sv.rh.clusters = [] → ∀ e u, e ∈ d.regs → e.1 = u * 65536 + 8 → bit e.2 4 = true → u ∈ t.nv.fenced) ∧
        (kind = 1 → ∀ c m, c < 12 → m < 8 → d.flag (mcUid c) (0x4200 + 8 * m) 0 = true →
          (c, m, d.fld (mcUid c) (0x4200 + 8 * m) 1 4) ∈ t.nv.marks) ∧
        (kind = 2 → ∀ k, k ∈ d.failedNow ∨ k ∈ d.nv.failed → k ∈ t.nv.failed) ∧
        (kind = 3 → t.nv.overlay = some ((d.reg bootUid 0x4808).toNat, d.kp.recs, d.rolesNow)) ∧
        (kind = 4 → t.nv.hbRec = some (hbRecOffs.map (fun o => d.reg hbUid o))) ∧
        (kind = 5 → d.fld bootUid 0x4800 16 3 = 0 → t.nv.seq = max d.nv.seq (d.reg bootUid 0x4808).toNat)))) ∧
    Completes .powerOnReset s (fun t => t.dt = 0 ∧ t.sdram = [] ∧ t.retained = d.retained ∧ t.nv = d.nv ∧ (∀ c, t.core c = Core.initial) ∧
      ((∀ m, m ∈ d.nv.marks → m.1 < 12 ∧ m.2.1 < 8) → t.fld hbUid 0x9020 0 4 = 1)) ∧
    (∀ pin : Bool,
      (d.pw.deep = .run ∨ d.pw.deep = .entering → Completes (.warmReset pin) s (fun t => d.WarmStarted t (if pin then 3 else 4))) ∧
      (d.pw.deep = .deep → pin = true → Completes (.warmReset pin) s (fun t => t.pw.deep = .exiting ∧ t.pw.warmWaits = true)) ∧
      (d.pw.deep = .exiting → pin = true → Completes (.warmReset pin) s (fun t => t.pw.deep = .exiting ∧ t.pw.warmWaits = true)) ∧
      (d.pw.deep = .deep ∨ d.pw.deep = .exiting → pin = false → same (.warmReset pin))) ∧
    (∀ die : Fin 6, Completes (.dieReset die) s (fun t => (∀ c : CoreId, c.val / 72 = die.val → wiped t c) ∧
      (4 ≤ die.val → (∀ a, a / 2 ^ 19 = die.val - 4 → SMap.get zeroByte t.keeperSram a = 0) ∧
        ∀ l, l < 40 → l / 20 = die.val - 4 → t.link l = LinkSt.initial))) ∧
    (∀ p : Fin 256,
      (d.recOf p.val = none → same (.partitionReset p)) ∧
      (∀ r, d.recOf p.val = some r → d.objOf 5 p.val = none → d.bt.loaded.contains p.val = false → Completes (.partitionReset p) s (fun t =>
        t.kp.released.contains p.val = false ∧ t.pw.votes.contains p.val = false ∧ ∀ c, c ∈ d.partCores p.val → wiped t c))) ∧
    Completes .powerRemoval s (fun t => t.dt = 0 ∧ t.sdram = [] ∧ t.retained = [] ∧ t.elog = [] ∧ t.nv = d.nv ∧ t.sent = d.sent ∧
      ∀ c, t.core c = Core.initial)

/-! Faults, survival and Harebell (chapter 17). -/

/-- The A-class log (R723 to R725), the sentinel (R717, R719) and the partition watchdogs (R721), the input filters (R728), Crumble's lock
(R730), the rehearsal (R734 to R737), and Harebell (R709 to R711, R713, R714): what each command leaves, and where it has no effect. -/
def Obligations.FaultsAndHarebell : Prop :=
  ∀ s : State,
    let d := s.dev
    let same (i : Instr) : Prop := Completes i s (fun t => t = d)
    (∀ die : Fin 6,
      (d.logQ.find? (fun e => e.die == die.val) = none → same (.errorLogEntry die)) ∧
      (∀ e, d.logQ.find? (fun e => e.die == die.val) = some e →
        let full : Prop := d.flag hbUid 0xC000 0 = true ∧ d.flag hbUid 0xC000 27 = true
        (full → Completes (.errorLogEntry die) s (fun t => t.elog = d.elog ∧ t.logQ = d.logQ.erase e ∧
          t.fld hbUid 0xC000 32 16 = min 65535 (d.fld hbUid 0xC000 32 16 + 1))) ∧
        (¬full → Completes (.errorLogEntry die) s (fun t => t.logQ = d.logQ.erase e ∧ t.elogSeq = d.elogSeq + 1 ∧
          ∃ b : List Byte, b.length = 28 ∧ SMap.get (fun _ => []) t.elog (d.fld hbUid 0xC000 16 11) = b ++ natLe 4 (crc32c b) ∧
            iLe b 0 8 = e.dt % 2 ^ 64 ∧ iLe b 8 2 = e.uid % 2 ^ 16 ∧ iLe b 12 2 = e.code % 2 ^ 16 ∧ iLe b 14 2 = d.elogSeq % 2 ^ 16 ∧
            iLe b 16 8 = e.addr % 2 ^ 64 ∧ iLe b 24 2 = d.fld hbUid 0xC000 48 16)))) ∧
    (let waits : Prop := d.bt.strapped = false ∨ d.dt < d.sv.sentAt + 1000000 * d.sv.sentMs;
      (waits → same .sentinelExpiry) ∧
      (¬waits → Completes .sentinelExpiry s (fun t => t.sv.expired = true ∧ t.hb.latch.contains 0 = true ∧ t.logQ = [] ∧
        ∃ x : Dev, x.WarmStarted t 6 ∧ x.nv = d.nv ∧ x.sdram = d.sdram ∧ x.retained = d.retained ∧ x.dt = d.dt))) ∧
    (∀ l : Fin 256,
      (d.wdogDue l 0 = false → same (.watchdogFirstExpiry l)) ∧
      (d.wdogDue l 0 = true → Completes (.watchdogFirstExpiry l) s (fun t => t.fld mbxU (offWdog l) 36 2 = 1 ∧
        SMap.get (fun _ => 0) t.sv.wdogAt l = d.dt + 1 ∧ ∀ c v, (d.coresOf l).head? = some c → v = d.fld mbxU (offWdog l) 8 8 →
          t.flag (coreUid c) (inboxOff v) (v % 64) = true)) ∧
      (d.wdogDue l 1 = false → same (.watchdogSecondExpiry l)) ∧
      (d.wdogDue l 1 = true → d.fld mbxU (offWdog l) 2 2 ≠ 1 ∨ d.recOf ((d.lcorePart l).getD 0) = none → Completes (.watchdogSecondExpiry l) s (fun t =>
        t.fld mbxU (offWdog l) 36 2 = 2 ∧ SMap.get (fun _ => 0) t.sv.wdogAt l = 0 ∧
        (d.flag (mbxUid (d.activeHub 11)) 0x2000 0 = false → t.Recorded (mbxUid (d.activeHub 11)) 0x0702 2) ∧
        (d.flag (evcUid 0) (offEvSrc (0xA40 + l)) 1 = false → t.flag (evcUid 0) (offEvSrc (0xA40 + l)) 40 = true) ∧
        ∃ b, ((d.lcorePart l).getD 0, b) ∈ t.kp.notices))) ∧
    (∀ (n : Fin 64) (level : Bool),
      let o := 0xD000 + 8 * n.val
      let src := offEvSrc (0x400 + n.val)
      let on : Bool := level != d.flag (evcUid 0) src 2
      (d.flag hbUid o 10 = level → same (.gpioFilterSettle n level)) ∧
      (d.flag hbUid o 10 = !level → Completes (.gpioFilterSettle n level) s (fun t => t.flag hbUid o 10 = level ∧
        (d.flag (evcUid 0) src 1 = true → t.evLevel.contains (0x400 + n.val) = on) ∧
        (d.flag (evcUid 0) src 1 = false → on = true → t.flag (evcUid 0) src 40 = true) ∧ (d.pw.deep = .run → t.pw = d.pw)))) ∧
    (∀ (n : Fin 4) (level : Bool),
      let o := 0xD200 + 8 * n.val
      let src := offEvSrc (0x440 + n.val)
      let on : Bool := level != d.flag hbUid o 8
      (d.flag hbUid o 9 = on → same (.alarmFilterSettle n level)) ∧
      (d.flag hbUid o 9 = !on → Completes (.alarmFilterSettle n level) s (fun t => t.flag hbUid o 9 = on ∧
        t.hb.alarm.contains (n.val + 1) = on ∧ (on = true → d.trigLatched (n.val + 1) = true → t.hb.latch.contains (n.val + 1) = true) ∧
        (d.flag (evcUid 0) src 1 = true → t.evLevel.contains (0x440 + n.val) = (on != d.flag (evcUid 0) src 2))))) ∧
    (∀ u : BitVec 16,
      let at_ := SMap.get (fun _ => 0) d.sv.crbAt u.toNat
      let due : Prop := at_ ≠ 0 ∧ at_ + 1000000 * d.fld u.toNat 0x3000 16 16 ≤ d.dt + 1
      (¬due → same (.crumbleAutoLock u)) ∧
      (due → Completes (.crumbleAutoLock u) s (fun t => t.flag u.toNat 0x3000 0 = false ∧ t.flag u.toNat 0x3000 1 = false ∧
        t.fld u.toNat 0x3000 32 16 = d.fld u.toNat 0x3000 32 16 ∧ SMap.get (fun _ => 0) t.sv.crbAt u.toNat = 0))) ∧
    (∀ busy : Bool,
      let rh := d.sv.rh
      let due : Prop := rh.step = 0 ∧ (rh.peerAt ≠ 0 ∨ d.rehSecond = true)
      (¬due → same (.rehearsalStart busy)) ∧
      (due → busy = true → rh.peerAt ≠ 0 → same (.rehearsalStart busy)) ∧
      (due → busy = true → rh.peerAt = 0 → Completes (.rehearsalStart busy) s (fun t => t.sv.rh.peerAt = d.dt + 1 ∧ t.regs = d.regs)) ∧
      (due → busy = false → d.rehSkip = none → Completes (.rehearsalStart busy) s (fun t => t.sv.rh.step = 1 ∧ t.sv.rh.at_ = d.dt ∧
        t.fld hbUid 0xE000 35 4 = 1 ∧ t.fld hbUid 0xE000 0 32 = d.netSecond % 2 ^ 32)) ∧
      (∀ why, due → busy = false → d.rehSkip = some why → Completes (.rehearsalStart busy) s (fun t => t.sv.rh.step = 0 ∧
        t.fld hbUid 0xE000 32 3 = 2 ∧ t.fld hbUid 0xE000 40 8 = why))) ∧
    (let due : Prop := d.sv.rh.peerAt ≠ 0 ∧ d.sv.rh.peerAt + 300000000000 ≤ d.dt + 1;
      (¬due → same .rehearsalPeerTimeout) ∧
      (due → Completes .rehearsalPeerTimeout s (fun t => t.sv.rh.peerAt = 0 ∧ t.fld hbUid 0xE000 32 3 = 2 ∧ t.fld hbUid 0xE000 40 8 = 6))) ∧
    (∀ good : Bool,
      let rh := d.sv.rh
      let ended (result reason : Nat) : Prop := Completes (.rehearsalStep good) s (fun t => t.sv.rh.step = 0 ∧
        t.fld hbUid 0xE000 32 3 = result ∧ t.fld hbUid 0xE000 40 8 = reason)
      (rh.step = 0 ∨ d.au.rejoins ≠ [] → same (.rehearsalStep good)) ∧
      (rh.step ≠ 0 → d.au.rejoins = [] →
        (rh.abort ≠ 0 → rh.abort ≤ 256 → ended 3 (rh.abort - 1)) ∧
        (rh.abort = 0 → rh.concealed < d.concealedSum → ended 3 3) ∧
        (rh.abort = 0 → d.concealedSum ≤ rh.concealed →
          (rh.at_ + 240000000000 ≤ d.dt ∨ 7 ≤ rh.step → (rh.failed = 0 → ended 1 0) ∧ (rh.failed ≠ 0 → ended 4 6)) ∧
          (d.dt < rh.at_ + 240000000000 → rh.step < 7 →
            (d.rehParts rh.step ≤ rh.cursor → Completes (.rehearsalStep good) s (fun t => t.sv.rh.step = rh.step + 1 ∧ t.sv.rh.cursor = 0 ∧
              t.fld hbUid 0xE000 35 4 = rh.step + 1)) ∧
            (∀ x ok, rh.cursor < d.rehParts rh.step → d.rehPart rh.step rh.cursor = (x, ok) → Completes (.rehearsalStep good) s (fun t =>
              t.regs = x.regs ∧ t.cores = x.cores ∧ x.SameMem t ∧ t.sv.rh.cursor = x.sv.rh.cursor + 1 ∧
              (ok = true → good = true → t.sv.rh.failed = x.sv.rh.failed))))))) ∧
    (∀ (n : Fin 7) (on : Bool), Completes (.harebellTriggerActive n on) s (fun t => t.regs = d.regs ∧
      (1 ≤ n.val → n.val ≤ 4 → t.hb.alarm.contains n.val = on) ∧ (on = true → d.trigLatched n = true → t.hb.latch.contains n.val = true) ∧
      (on = false → t.hb.latch = d.hb.latch))) ∧
    (d.flag hbUid 0xB000 0 = false → same .harebellWinnerChange) ∧
    (d.flag hbUid 0xB000 0 = true →
      let now := d.fld hbUid 0xB000 6 3
      (∀ n, d.trigWinner = some n → now = n → same .harebellWinnerChange) ∧
      (∀ n, d.trigWinner = some n → now ≠ n → Completes .harebellWinnerChange s (fun t => t.hbPlaying = true ∧ t.fld hbUid 0xB000 6 3 = n ∧
        t.fld hbUid 0xB000 2 4 = d.trigMsg n % 16 ∧ t.fld hbUid 0xB000 16 16 = min 65535 (d.fld hbUid 0xB000 16 16 + 1) ∧
        t.hb.segs.head? = some (d.hbMs, some (d.trigMsg n)))) ∧
      (d.trigWinner = none → now = 7 → same .harebellWinnerChange) ∧
      (d.trigWinner = none → now ≠ 7 → Completes .harebellWinnerChange s (fun t => t.hbPlaying = false ∧ t.fld hbUid 0xB000 6 3 = 7 ∧
        t.pw.padWait = [] ∧ t.hb.segs.head? = some (d.hbMs, none)))) ∧
    (d.hbSeg d.hbCount = none → same .harebellMessageEnd) ∧
    (∀ (m0 : Int) (k : Nat) (m : HbMsg), d.hbSeg d.hbCount = some (m0, k) → d.hb.msgs[k]? = some m →
      let n := d.fld hbUid 0xB000 6 3
      let ended : Prop := m0 + m.samples.length ≤ d.hbCount
      (m.loop = true ∨ d.trigLatched n = false ∨ ¬ended → same .harebellMessageEnd) ∧
      (m.loop = false → d.trigLatched n = true → ended → Completes .harebellMessageEnd s (fun t => t.hb.latch.contains n = false ∧
        t.regs = d.regs)) ∧
      (m.loop = false → ended → d.hbSample d.hbCount = 0)) ∧
    (∀ p : Fin 16, d.hbTakes p = true → d.flag hbUid (0xB200 + 8 * p.val) 1 = false → 0 ≤ d.hbCount → d.hb.out = [] →
      bit (d.tdmPortCfg p) 0 = false ∨ bit (d.tdmPortCfg p) 1 = false →
      Completes (.tdmOutputHandoff p) s (fun t => t.sent = d.sent ++ [.tdm p (d.hbFrame p d.hbCount) (d.hbDtOf d.hbCount).toNat])) ∧
    (let sends : Prop := (d.hbSeg (d.hbMs - 48)).isSome = true ∧ d.flag hbUid 0xB300 63 = true ∧ d.flag (mgtUid 0) 0x4000 3 = true;
      (¬sends → same .harebellNetPacket) ∧
      (sends → Completes .harebellNetPacket s (fun t => t.regs = d.regs ∧ ∃ b : List Byte, b.length = 108 ∧
        t.sent = d.sent ++ [.packet 0x40 (d.fld hbUid 0xB300 0 32) (d.fld hbUid 0xB300 32 16) 0 (d.fld hbUid 0xB300 55 6) b d.dt])))

/-! Keeper services (chapter 9). -/

/-- The services of Table 9-3 (R419 to R421, R426): a call that waits in keeper mailbox 256 + m is carried out on the device left by the read of its
parameter block, and answered with a code of Table 9-4. What each does and when it is refused: R337, R614 to R616, R657 to R659, R692, R716,
R726. The contents of an INFO block and of a quote's key are free (the spec does not lay them out). -/
def Obligations.ServiceCalls : Prop :=
  ∀ s : State,
    let d := s.dev
    let same (i : Instr) : Prop := Completes i s (fun t => t = d)
    let acked (i : Instr) (e : Dev) (c : Call) (code : Nat) : Prop := Completes i s (fun t => t = e.ackCall c code)
    (∀ (e : Dev) (c : Call) (code : Nat), e.flag mbxU (mbxOff c.mbox 8) 0 = true → e.flag mbxU (mbxOff c.mbox 8) 16 = false → c.mbox < 260 →
      code < 2 ^ 32 →
      (e.ackCall c code).flag mbxU (mbxOff c.mbox 8) 0 = false ∧ (e.ackCall c code).fld mbxU (mbxOff c.mbox 0x10) 0 32 = code ∧
        (e.ackCall c code).flag mbxU (mbxOff c.mbox 8) 1 = true ∧
        (e.ackCall c code).fld mbxU (0xD000 + 8 * e.fld mbxU (mbxOff c.mbox 8) 8 8) 0 32 = code ∧ e.SameMem (e.ackCall c code)) ∧
    (∀ m : Fin 4,
      (∀ p ∈ ([(.svcInfo m, 0x001), (.svcNoticeRead m, 0x002), (.svcLogRead m, 0x003), (.svcLostClear m, 0x010), (.restructureGrow m, 0x020),
          (.restructureShrink m, 0x020), (.restructureChangeTier m, 0x020), (.svcPartReset m, 0x030), (.harebellStart m, 0x040),
          (.harebellStop m, 0x040), (.harebellWriteSetting m, 0x040), (.svcMeasRead m, 0x050), (.powerNapSetting m, 0x060), (.powerHold m, 0x060),
          (.powerDeepVote m, 0x060), (.powerPadRelease m, 0x060)] : List (Instr × Nat)),
        (∀ c, d.callIn m.val = some c → c.code ≠ p.2) → same p.1) ∧
      (∀ p ∈ ([(.svcInfo m, 0x001), (.svcNoticeRead m, 0x002), (.svcLogRead m, 0x003), (.svcLostClear m, 0x010), (.svcPartReset m, 0x030),
          (.svcMeasRead m, 0x050)] : List (Instr × Nat)), ∀ c, d.callIn m.val = some c → c.code = p.2 →
        c.pa % 64 ≠ 0 ∨ d.callerAt c (d.readRep c) c.pa 64 false = none → acked p.1 d c 3) ∧
      (d.callIn m.val = none → same (.svcUnknown m)) ∧
      (∀ c, d.callIn m.val = some c → (c.code ∈ knownServices → same (.svcUnknown m)) ∧ (c.code ∉ knownServices → acked (.svcUnknown m) d c 1)) ∧
      (∀ c e b, d.Called m.val 0x001 true c e b →
        acked (.svcInfo m) ({ e with freeCnt := e.freeCnt + 1 }.callWrite c c.pa (natLe 64 (Config.free e.freeCnt))) c 0) ∧
      (∀ c e b, d.Called m.val 0x002 true c e b →
        (e.kp.notices.find? (fun n => n.1 == c.part) = none → acked (.svcNoticeRead m) e c 8) ∧
        (∀ n x, e.kp.notices.find? (fun n => n.1 == c.part) = some n → x = { e with kp := { e.kp with notices := e.kp.notices.erase n } } →
          acked (.svcNoticeRead m) (x.callWrite c c.pa n.2) c 0)) ∧
      (∀ c e b, d.Called m.val 0x003 false c e b →
        let n := iLe b 2 1
        let area := iLe b 8 8
        let es := e.logFor c.part (iLe b 0 2)
        (n = 0 ∨ 31 < n ∨ e.areaOk c area = false → acked (.svcLogRead m) e c 4) ∧
        (n ≠ 0 → n ≤ 31 → e.areaOk c area = true → ∀ last, last = (match es.drop n with | x :: _ => iLe x 14 2 | [] => e.elogSeq % 65536) →
          acked (.svcLogRead m) ((e.callWrite c area (natLe 2 (es.take n).length ++ natLe 2 last)).callWrite c (area + 32) (es.take n).flatten) c
            (if es.take n = [] then 8 else 0))) ∧
      (∀ c e b, d.Called m.val 0x010 false c e b →
        (e.xrOf (iLe b 0 8) = none → acked (.svcLostClear m) e c 4) ∧
        (∀ n, e.xrOf (iLe b 0 8) = some n →
          (e.callerAt c (e.readRep c) (iLe b 0 8) 1 true = none → acked (.svcLostClear m) e c 2) ∧
          (∀ a, e.callerAt c (e.readRep c) (iLe b 0 8) 1 true = some a → Completes (.svcLostClear m) s (fun t =>
            t.flag (hubUid 0) (0x5008 + 16 * n) 25 = false ∧ t.flag (hubUid 1) (0x5008 + 16 * n) 25 = false ∧ e.SameMem t)))) ∧
      (∀ c e b, d.Called m.val 0x030 false c e b →
        (∀ r, e.recOf c.part = some r → r.tier = 0 → Completes (.svcPartReset m) s (fun t => t = (e.ackCall c 0).partitionReset c.part)) ∧
        ((∀ r, e.recOf c.part = some r → r.tier ≠ 0) → acked (.svcPartReset m) e c 2)) ∧
      (∀ c e b, d.Called m.val 0x050 false c e b →
        (e.areaOk c (iLe b 32 8) = false → acked (.svcMeasRead m) e c 4) ∧
        (e.areaOk c (iLe b 32 8) = true → ∃ q : List Byte, q.length = 1024 ∧ q.take 768 = (List.range 16).flatMap (fun n => e.measBytes n) ∧
          (q.drop 768).take 32 = b.take 32 ∧
          acked (.svcMeasRead m) ({ e with freeCnt := e.freeCnt + 1 }.callWrite c (iLe b 32 8) q) c (if e.flag bootUid 0x4000 9 then 7 else 0))) ∧
      (∀ c e b, d.Called m.val 0x020 false c e b →
        let op := iLe b 0 1
        let answers (i : Instr) (out : Dev × Option Nat) : Prop := Completes i s (fun t => t = match out.2 with
          | some code => out.1.ackCall c code
          | none => out.1)
        ∀ (q l : Fin 256) (x y z : BitVec 16), ∀ p ∈ ([(.restructureGrow m, 1, e.resizeWin c.part (iLe b 2 2) (iLe b 8 1) false),
            (.restructureShrink m, 2, e.resizeWin c.part (iLe b 2 2) (iLe b 8 1) true),
            (.restructureMove (some m) q l x y z, 3, e.moveOp c.part (iLe b 2 2) [iLe b 16 2, iLe b 18 2, iLe b 20 2])] :
            List (Instr × Nat × (Dev × Option Nat))),
          (op ≠ p.2.1 → 1 ≤ op → op ≤ 4 → same p.1) ∧
          (op = p.2.1 →
            (e.granted c.part 5 = false → acked p.1 e c 2) ∧
            (e.granted c.part 5 = true → restructBad op b = true → acked p.1 e c 4) ∧
            (e.granted c.part 5 = true → restructBad op b = false →
              (e.kp.op ≠ 0 → e.kp.op ≠ c.part + 1 ∨ op < 3 → acked p.1 e c 5) ∧ (e.kp.op = 0 → answers p.1 p.2.2)))) ∧
      (∀ c e b x, d.Called m.val 0x020 false c e b → iLe b 0 1 = 4 → e.granted c.part 5 = true → restructBad 4 b = false → e.kp.op = 0 →
        (e.callRead c (iLe b 24 8) 64 = (x, none) → acked (.restructureChangeTier m) x c 4) ∧
        (∀ h y rb, e.callRead c (iLe b 24 8) 64 = (x, some h) →
          x.callRead c (iLe b 24 8) (64 + 8 * iLe h 4 1 + 32 * iLe h 2 2 + 32 * iLe h 5 1 + 4 * iLe h 6 1 + 4 * iLe h 7 1) = (y, some rb) →
          ((parseRec rb).tier ≠ iLe b 2 2 ∨ 2 < (parseRec rb).tier → acked (.restructureChangeTier m) y c 4) ∧
          ((parseRec rb).tier = iLe b 2 2 → (parseRec rb).tier ≤ 2 → ∀ z o, y.tierOp c.part (parseRec rb) = (z, o) →
            Completes (.restructureChangeTier m) s (fun t => t = match o with | some code => z.ackCall c code | none => z)))) ∧
      (∀ c e b, d.Called m.val 0x040 false c e b →
        let k := iLe b 1 1
        let v : Word := BitVec.ofNat 64 (iLe b 8 8)
        ∀ p ∈ ([(.harebellStart m, 1), (.harebellStop m, 2), (.harebellWriteSetting m, 3)] : List (Instr × Nat)),
          (iLe b 0 1 ≠ p.2 → 1 ≤ iLe b 0 1 → iLe b 0 1 ≤ 3 → same p.1) ∧
          (iLe b 0 1 = p.2 →
            (e.granted c.part 4 = false → acked p.1 e c 2) ∧
            (e.granted c.part 4 = true → harebellBad p.2 b = true → acked p.1 e c 4) ∧
            (e.granted c.part 4 = true → harebellBad p.2 b = false →
              (p.2 = 1 → ∀ x, e.hb.msgs[k]? = some x → x.samples ≠ [] → k < 16 → Completes p.1 s (fun t => t.hb.msg6 = k ∧ t.hb.latch.contains 6 = true)) ∧
              (p.2 = 2 → k ≤ 6 → Completes p.1 s (fun t => t.hb.latch.contains k = false)) ∧
              (p.2 = 2 → 6 < k → acked p.1 e c 4) ∧
              (p.2 = 3 → (hbSetting k).bind (fun o => regAt hbUid o) = none → acked p.1 e c 4) ∧
              (∀ r i, p.2 = 3 → (hbSetting k).bind (fun o => regAt hbUid o) = some (r, i) →
                (writeFields r.fields (e.reg hbUid (r.off + r.stride * i)) v).2 = false → acked p.1 ((e.regStore hbUid r i v).journal 4) c 0)))) ∧
      (∀ c e b, d.Called m.val 0x060 false c e b →
        ∀ p ∈ ([(.powerNapSetting m, 1), (.powerHold m, 2), (.powerDeepVote m, 3), (.powerPadRelease m, 4)] : List (Instr × Nat)),
          (iLe b 0 1 ≠ p.2 → 1 ≤ iLe b 0 1 → iLe b 0 1 ≤ 4 → same p.1) ∧
          (iLe b 0 1 = p.2 → (powerBad p.2 b = true → acked p.1 e c 4) ∧
            (powerBad p.2 b = false → p.2 ≤ 3 → e.granted c.part 6 = false → acked p.1 e c 2))) ∧
      (∀ c e b, d.Called m.val 0x060 false c e b → e.granted c.part 6 = true →
        (iLe b 0 1 = 1 → powerBad 1 b = false → e.lcorePart (iLe b 2 2) = some c.part → 8 ≤ iLe b 8 4 → iLe b 8 4 ≤ 4000 →
          Completes (.powerNapSetting m) s (fun t => ∀ k, k ∈ e.coresOf (iLe b 2 2) → t.flag (coreUid k) 0x4480 0 = decide (iLe b 4 1 = 1) ∧
            t.fld (coreUid k) 0x4480 4 12 = iLe b 8 4)) ∧
        (∀ r, iLe b 0 1 = 2 → powerBad 2 b = false → e.recOf c.part = some r →
          (r.tier = 0 → Completes (.powerHold m) s (fun t => t.pw.holdAsked.contains c.part = true)) ∧ (r.tier ≠ 0 → acked (.powerHold m) e c 4)) ∧
        (iLe b 0 1 = 3 → powerBad 3 b = false →
          (iLe b 4 1 = 0 → Completes (.powerDeepVote m) s (fun t => t.pw.votes.contains c.part = false ∧ t.pw.deep = e.pw.deep)) ∧
          (∀ q, iLe b 4 1 = 1 → q ∈ e.kp.released → q ≠ c.part → q ∉ e.pw.votes → Completes (.powerDeepVote m) s (fun t =>
            t.pw.votes.contains c.part = true ∧ t.pw.deep = e.pw.deep)) ∧
          (∀ x : Dev, iLe b 4 1 = 1 → (∀ q, q ∈ e.kp.released → q = c.part ∨ q ∈ e.pw.votes) →
            x = { e with pw := { e.pw with votes := c.part :: e.pw.votes.filter (fun q => q != c.part) } } →
            Completes (.powerDeepVote m) s (fun t => t = (x.ackCall c 0).deepBegin)))) ∧
      (∀ c e b, d.Called m.val 0x060 false c e b → iLe b 0 1 = 4 → powerBad 4 b = false →
        let mask := iLe b 16 2
        (256 ≤ mask → acked (.powerPadRelease m) e c 4) ∧
        (∀ g, mask < 256 → g < 8 → mask / 2 ^ g % 2 = 1 → e.mayRelease c.part g = false → acked (.powerPadRelease m) e c 2) ∧
        (mask < 256 → (∀ g, g < 8 → mask / 2 ^ g % 2 = 1 → e.mayRelease c.part g = true) → acked (.powerPadRelease m) (e.padRelease mask) c 0))) ∧
    (∀ (p l : Fin 256) (a b c : BitVec 16),
      (d.kp.op ≠ 0 → d.kp.op ≠ p.val + 1 → same (.restructureMove none p l a b c)) ∧
      (d.kp.op = 0 ∨ d.kp.op = p.val + 1 → Completes (.restructureMove none p l a b c) s (fun t => t = (d.moveOp p l [a.toNat, b.toNat, c.toNat]).1)))
end

