-- ==== Sys2Proof/Laws/Bits.lean ====
section
/-!
SUPPORT. Bit fields: what a field reads as after a field is written.
-/
namespace Sys2Proof.Machine

/-- A bit after a write of a field. -/
theorem setBits_getLsbD {n : Nat} (v : BitVec n) (lo w x i : Nat) :
    (setBits v lo w x).getLsbD i =
      (if lo ≤ i ∧ i < lo + w then decide (i < n) && x.testBit (i - lo) else v.getLsbD i) := by
  by_cases hn : i < n
  · simp only [setBits, BitVec.getLsbD_or, BitVec.getLsbD_and, BitVec.getLsbD_not, BitVec.getLsbD_ofNat, hn,
      decide_true, Bool.true_and, Nat.testBit_mul_two_pow, Nat.testBit_two_pow_sub_one, Nat.testBit_mod_two_pow]
    by_cases h1 : lo ≤ i
    · by_cases h2 : i < lo + w
      · have h3 : i - lo < w := by omega
        simp [h1, h2, h3]
      · have h3 : ¬ i - lo < w := by omega
        simp [h1, h2, h3]
    · simp [h1]
  · have h : n ≤ i := by omega
    rw [BitVec.getLsbD_of_ge _ _ h, BitVec.getLsbD_of_ge _ _ h]
    simp [hn]

/-- A bit read as a field is a bit. -/
theorem bit_setBits {n : Nat} (v : BitVec n) (lo w x i : Nat) :
    bit (setBits v lo w x) i = (if lo ≤ i ∧ i < lo + w then decide (i < n) && x.testBit (i - lo) else bit v i) :=
  setBits_getLsbD v lo w x i

/-- The bits of a field as a number. -/
theorem testBit_bits {n : Nat} (v : BitVec n) (lo w i : Nat) :
    (bits v lo w).testBit i = (decide (i < w) && v.getLsbD (lo + i)) := by
  simp [bits, BitVec.testBit_toNat]

/-- A field is smaller than 2 to its width. -/
theorem bits_lt {n : Nat} (v : BitVec n) (lo w : Nat) : bits v lo w < 2 ^ w := (v.extractLsb' lo w).isLt

/-- A field reads as what was written to it. -/
theorem bits_setBits {n : Nat} (v : BitVec n) (lo w x : Nat) (h : lo + w ≤ n) : bits (setBits v lo w x) lo w = x % 2 ^ w := by
  refine Nat.eq_of_testBit_eq (fun i => ?_)
  rw [testBit_bits, setBits_getLsbD, Nat.testBit_mod_two_pow]
  by_cases hi : i < w
  · have h1 : lo ≤ lo + i ∧ lo + i < lo + w := by omega
    have h2 : lo + i < n := by omega
    simp [hi, h2]
  · simp [hi]

/-- A field is untouched by a write of a field apart from it. -/
theorem bits_setBits_other {n : Nat} (v : BitVec n) (lo w x lo' w' : Nat) (h : lo' + w' ≤ lo ∨ lo + w ≤ lo') :
    bits (setBits v lo w x) lo' w' = bits v lo' w' := by
  refine Nat.eq_of_testBit_eq (fun i => ?_)
  rw [testBit_bits, testBit_bits, setBits_getLsbD]
  by_cases hi : i < w'
  · have h1 : ¬ (lo ≤ lo' + i ∧ lo' + i < lo + w) := by omega
    simp [h1]
  · simp [hi]

/-- A bit reads as what was written to it. -/
theorem bit_setBit {n : Nat} (v : BitVec n) (i : Nat) (b : Bool) (h : i < n) : bit (setBit v i b) i = b := by
  rw [setBit, bit_setBits]; cases b <;> simp [h]

/-- A bit is untouched by a write of another. -/
theorem bit_setBit_other {n : Nat} (v : BitVec n) (i j : Nat) (b : Bool) (h : j ≠ i) : bit (setBit v i b) j = bit v j := by
  rw [setBit, bit_setBits, if_neg (by omega)]

end Sys2Proof.Machine
end

