-- ==== Sys2Proof/Laws/SMap.lean ====
section
/-!
SUPPORT. The sparse map: read after write, and the operations keep its canonical form.
-/
namespace Sys2Proof.Machine

@[simp] theorem SMap.get_nil {α : Type} (d : Nat → α) (k : Nat) : SMap.get d [] k = d k := rfl

/-- Reading a map by its first entry. -/
theorem SMap.get_cons {α : Type} (d : Nat → α) (a : Nat) (v : α) (m : SMap α) (k : Nat) :
    SMap.get d ((a, v) :: m) k = if k = a then v else SMap.get d m k := rfl

/-- Reading after an erase. -/
theorem SMap.get_erase {α : Type} (d : Nat → α) (m : SMap α) (k j : Nat) :
    SMap.get d (SMap.erase m k) j = if j = k then d j else SMap.get d m j := by
  induction m with
  | nil => simp [SMap.erase]
  | cons e m ih =>
    obtain ⟨a, v⟩ := e
    unfold SMap.erase at ih ⊢
    by_cases h : a = k
    · subst h
      simp only [List.filter_cons, bne_self_eq_false, Bool.false_eq_true, if_false, ih, SMap.get_cons]
      grind
    · have hb : (a != k) = true := by simpa using h
      simp only [List.filter_cons, hb, if_true, SMap.get_cons, ih]
      grind

/-- Reading after an insert of a key that is not listed. -/
theorem SMap.get_insert {α : Type} (d : Nat → α) (k : Nat) (v : α) (m : SMap α) (h : ∀ e ∈ m, e.1 ≠ k) (j : Nat) :
    SMap.get d (SMap.insert k v m) j = if j = k then v else SMap.get d m j := by
  induction m with
  | nil => rfl
  | cons e m ih =>
    obtain ⟨a, w⟩ := e
    have h1 : a ≠ k := h (a, w) (List.mem_cons_self ..)
    have h2 := ih (fun e he => h e (List.mem_cons_of_mem _ he))
    unfold SMap.insert
    split
    · rfl
    · rw [SMap.get_cons, SMap.get_cons, h2]; grind

/-- An erased key is not listed. -/
theorem SMap.mem_erase {α : Type} (m : SMap α) (k : Nat) (e : Nat × α) : e ∈ SMap.erase m k ↔ e ∈ m ∧ e.1 ≠ k := by
  simp [SMap.erase]

/-- Reading after a write. -/
theorem SMap.get_set {α : Type} [DecidableEq α] (d : Nat → α) (m : SMap α) (k : Nat) (v : α) (j : Nat) :
    SMap.get d (SMap.set d m k v) j = if j = k then v else SMap.get d m j := by
  unfold SMap.set
  split
  · next h => rw [SMap.get_erase]; grind
  · rw [SMap.get_insert d k v _ (fun e he => ((SMap.mem_erase m k e).1 he).2), SMap.get_erase]; grind

/-- Rising keys, by pairs. -/
theorem SMap.rising_iff {α : Type} (m : SMap α) : SMap.rising m = true ↔ m.Pairwise (fun a b => a.1 < b.1) := by
  induction m with
  | nil => simp [SMap.rising]
  | cons a m ih =>
    cases m with
    | nil => simp [SMap.rising]
    | cons b m =>
      simp only [SMap.rising, Bool.and_eq_true, decide_eq_true_eq, ih, List.pairwise_cons, List.mem_cons]
      constructor
      · rintro ⟨h, h1, h2⟩
        refine ⟨?_, h1, h2⟩
        rintro c (rfl | hc)
        · exact h
        · exact Nat.lt_trans h (h1 c hc)
      · rintro ⟨h, h1, h2⟩
        exact ⟨h b (Or.inl rfl), h1, h2⟩

/-- The canonical form, by pairs. -/
theorem SMap.wf_iff {α : Type} [DecidableEq α] (d : Nat → α) (m : SMap α) :
    SMap.wf d m = true ↔ m.Pairwise (fun a b => a.1 < b.1) ∧ ∀ e ∈ m, e.2 ≠ d e.1 := by
  simp [SMap.wf, SMap.rising_iff]

/-- Keeping some of the entries keeps the canonical form. -/
theorem SMap.wf_filter {α : Type} [DecidableEq α] (d : Nat → α) (m : SMap α) (p : Nat × α → Bool) (h : SMap.wf d m = true) :
    SMap.wf d (m.filter p) = true := by
  rw [SMap.wf_iff] at h ⊢
  exact ⟨h.1.sublist List.filter_sublist, fun e he => h.2 e (List.mem_filter.1 he).1⟩

/-- An erase keeps the canonical form. -/
theorem SMap.wf_erase {α : Type} [DecidableEq α] (d : Nat → α) (m : SMap α) (k : Nat) (h : SMap.wf d m = true) :
    SMap.wf d (SMap.erase m k) = true := SMap.wf_filter d m _ h

/-- Keeping a set of keys keeps the canonical form. -/
theorem SMap.wf_keep {α : Type} [DecidableEq α] (d : Nat → α) (m : SMap α) (p : Nat → Bool) (h : SMap.wf d m = true) :
    SMap.wf d (SMap.keep p m) = true := SMap.wf_filter d m _ h

/-- What an insert lists. -/
theorem SMap.mem_insert {α : Type} (k : Nat) (v : α) (m : SMap α) (e : Nat × α) :
    e ∈ SMap.insert k v m ↔ e = (k, v) ∨ e ∈ m := by
  induction m with
  | nil => simp [SMap.insert]
  | cons a m ih => grind [SMap.insert]

/-- An insert of a key that is not listed keeps the keys rising. -/
theorem SMap.pairwise_insert {α : Type} (k : Nat) (v : α) (m : SMap α) (h : m.Pairwise (fun a b => a.1 < b.1))
    (hk : ∀ e ∈ m, e.1 ≠ k) : (SMap.insert k v m).Pairwise (fun a b => a.1 < b.1) := by
  induction m with
  | nil => simp [SMap.insert]
  | cons a m ih =>
    obtain ⟨x, w⟩ := a
    have h2 := List.pairwise_cons.1 h
    unfold SMap.insert
    split
    · next hx =>
      refine List.pairwise_cons.2 ⟨?_, h⟩
      intro e he
      rcases List.mem_cons.1 he with rfl | he
      · exact hx
      · exact Nat.lt_trans hx (h2.1 e he)
    · next hx =>
      refine List.pairwise_cons.2 ⟨?_, ih h2.2 (fun e he => hk e (List.mem_cons_of_mem _ he))⟩
      intro e he
      have hne := hk (x, w) (List.mem_cons_self ..)
      rcases (SMap.mem_insert k v m e).1 he with rfl | he
      · simp only at hne ⊢; omega
      · exact h2.1 e he

/-- A write keeps the canonical form. -/
theorem SMap.wf_set {α : Type} [DecidableEq α] (d : Nat → α) (m : SMap α) (k : Nat) (v : α) (h : SMap.wf d m = true) :
    SMap.wf d (SMap.set d m k v) = true := by
  unfold SMap.set
  split
  · exact SMap.wf_erase d m k h
  · next hv =>
    have he := (SMap.wf_iff d _).1 (SMap.wf_erase d m k h)
    rw [SMap.wf_iff]
    refine ⟨SMap.pairwise_insert k v _ he.1 (fun e x => ((SMap.mem_erase m k e).1 x).2), ?_⟩
    intro e x
    rcases (SMap.mem_insert k v _ e).1 x with rfl | x
    · exact hv
    · exact he.2 e x

/-- Changing every value keeps the canonical form. -/
theorem SMap.wf_mapVals {α : Type} [DecidableEq α] (d : Nat → α) (f : Nat → α → α) (m : SMap α) (h : SMap.wf d m = true) :
    SMap.wf d (SMap.mapVals d f m) = true := by
  rw [SMap.wf_iff] at h ⊢
  refine ⟨?_, by simp [SMap.mapVals]⟩
  refine List.Pairwise.sublist List.filter_sublist ?_
  rw [List.pairwise_map]
  exact h.1

/-- A write of a list of bytes keeps the canonical form of a memory. -/
theorem writeBytes_wf (m : SMap Byte) (a : Nat) (bs : List Byte) (h : SMap.wf zeroByte m = true) :
    SMap.wf zeroByte (writeBytes m a bs) = true := by
  induction bs generalizing m a with
  | nil => exact h
  | cons b bs ih => exact ih _ _ (SMap.wf_set zeroByte m a b h)

/-- One byte after a write of a list of bytes. -/
theorem get_writeBytes (m : SMap Byte) (a : Nat) (bs : List Byte) (j : Nat) :
    SMap.get zeroByte (writeBytes m a bs) j =
      if a ≤ j ∧ j < a + bs.length then bs.getD (j - a) 0 else SMap.get zeroByte m j := by
  induction bs generalizing m a with
  | nil =>
    have : ¬ (a ≤ j ∧ j < a + ([] : List Byte).length) := by simp
    simp only [writeBytes, if_neg this]
  | cons b bs ih =>
    simp only [writeBytes, ih, SMap.get_set, List.length_cons]
    by_cases h1 : j = a
    · subst h1
      have : ¬ (j + 1 ≤ j ∧ j < j + 1 + bs.length) := by omega
      simp [this]
    · by_cases h2 : a + 1 ≤ j ∧ j < a + 1 + bs.length
      · have h3 : a ≤ j ∧ j < a + (bs.length + 1) := by omega
        have h4 : j - a = (j - (a + 1)) + 1 := by omega
        simp only [h2, h3, if_pos, and_self, h4]
        simp
      · have h3 : ¬ (a ≤ j ∧ j < a + (bs.length + 1)) := by omega
        simp only [if_neg h2, if_neg h3, if_neg h1]

/-- The bytes just written are the bytes read. -/
theorem readBytes_writeBytes (m : SMap Byte) (a : Nat) (bs : List Byte) : readBytes (writeBytes m a bs) a bs.length = bs := by
  suffices h : ∀ (n k : Nat), k + n = bs.length → readBytes (writeBytes m a bs) (a + k) n = bs.drop k by
    simpa using h bs.length 0 (by omega)
  intro n
  induction n with
  | zero => intro k hk; simp [readBytes, List.drop_eq_nil_of_le (show bs.length ≤ k by omega)]
  | succ n ih =>
    intro k hk
    have hlt : k < bs.length := by omega
    rw [readBytes, get_writeBytes, if_pos (by omega), Nat.add_assoc a k 1, ih (k + 1) (by omega),
      List.drop_eq_getElem_cons hlt]
    simp [List.getD_eq_getElem?_getD, hlt]

end Sys2Proof.Machine
end

