-- ==== Sys2Proof/Laws/State.lean ====
section
/-!
SUPPORT. Every field of the device after each elementary update, and every field of a core after an update of its registers.
Each holds by unfolding, and is a simplification rule so that no later proof unfolds a record update.
-/
namespace Sys2Proof.Machine

/-! `setReg` changes only `regs`. -/

@[simp] theorem Dev.setReg_dt (d : Dev) (u o : Nat) (v : Word) : (d.setReg u o v).dt = d.dt := rfl
@[simp] theorem Dev.setReg_freeCnt (d : Dev) (u o : Nat) (v : Word) : (d.setReg u o v).freeCnt = d.freeCnt := rfl
@[simp] theorem Dev.setReg_resp (d : Dev) (u o : Nat) (v : Word) : (d.setReg u o v).resp = d.resp := rfl
@[simp] theorem Dev.setReg_cores (d : Dev) (u o : Nat) (v : Word) : (d.setReg u o v).cores = d.cores := rfl
@[simp] theorem Dev.setReg_resv (d : Dev) (u o : Nat) (v : Word) : (d.setReg u o v).resv = d.resv := rfl
@[simp] theorem Dev.setReg_sdram (d : Dev) (u o : Nat) (v : Word) : (d.setReg u o v).sdram = d.sdram := rfl
@[simp] theorem Dev.setReg_sdramErr (d : Dev) (u o : Nat) (v : Word) : (d.setReg u o v).sdramErr = d.sdramErr := rfl
@[simp] theorem Dev.setReg_retained (d : Dev) (u o : Nat) (v : Word) : (d.setReg u o v).retained = d.retained := rfl
@[simp] theorem Dev.setReg_localStore (d : Dev) (u o : Nat) (v : Word) : (d.setReg u o v).localStore = d.localStore := rfl
@[simp] theorem Dev.setReg_localErr (d : Dev) (u o : Nat) (v : Word) : (d.setReg u o v).localErr = d.localErr := rfl
@[simp] theorem Dev.setReg_l2 (d : Dev) (u o : Nat) (v : Word) : (d.setReg u o v).l2 = d.l2 := rfl
@[simp] theorem Dev.setReg_homes (d : Dev) (u o : Nat) (v : Word) : (d.setReg u o v).homes = d.homes := rfl
@[simp] theorem Dev.setReg_mcCount (d : Dev) (u o : Nat) (v : Word) : (d.setReg u o v).mcCount = d.mcCount := rfl
@[simp] theorem Dev.setReg_routes (d : Dev) (u o : Nat) (v : Word) : (d.setReg u o v).routes = d.routes := rfl
@[simp] theorem Dev.setReg_evLevel (d : Dev) (u o : Nat) (v : Word) : (d.setReg u o v).evLevel = d.evLevel := rfl
@[simp] theorem Dev.setReg_evRot (d : Dev) (u o : Nat) (v : Word) : (d.setReg u o v).evRot = d.evRot := rfl
@[simp] theorem Dev.setReg_logQ (d : Dev) (u o : Nat) (v : Word) : (d.setReg u o v).logQ = d.logQ := rfl
@[simp] theorem Dev.setReg_elog (d : Dev) (u o : Nat) (v : Word) : (d.setReg u o v).elog = d.elog := rfl
@[simp] theorem Dev.setReg_elogSeq (d : Dev) (u o : Nat) (v : Word) : (d.setReg u o v).elogSeq = d.elogSeq := rfl
@[simp] theorem Dev.setReg_sent (d : Dev) (u o : Nat) (v : Word) : (d.setReg u o v).sent = d.sent := rfl
@[simp] theorem Dev.setReg_tm (d : Dev) (u o : Nat) (v : Word) : (d.setReg u o v).tm = d.tm := rfl
@[simp] theorem Dev.setReg_pw (d : Dev) (u o : Nat) (v : Word) : (d.setReg u o v).pw = d.pw := rfl
@[simp] theorem Dev.setReg_kp (d : Dev) (u o : Nat) (v : Word) : (d.setReg u o v).kp = d.kp := rfl
@[simp] theorem Dev.setReg_ch (d : Dev) (u o : Nat) (v : Word) : (d.setReg u o v).ch = d.ch := rfl
@[simp] theorem Dev.setReg_nv (d : Dev) (u o : Nat) (v : Word) : (d.setReg u o v).nv = d.nv := rfl
@[simp] theorem Dev.setReg_hb (d : Dev) (u o : Nat) (v : Word) : (d.setReg u o v).hb = d.hb := rfl
@[simp] theorem Dev.setReg_au (d : Dev) (u o : Nat) (v : Word) : (d.setReg u o v).au = d.au := rfl
@[simp] theorem Dev.setReg_ep (d : Dev) (u o : Nat) (v : Word) : (d.setReg u o v).ep = d.ep := rfl
@[simp] theorem Dev.setReg_rm (d : Dev) (u o : Nat) (v : Word) : (d.setReg u o v).rm = d.rm := rfl
@[simp] theorem Dev.setReg_nt (d : Dev) (u o : Nat) (v : Word) : (d.setReg u o v).nt = d.nt := rfl
@[simp] theorem Dev.setReg_tr (d : Dev) (u o : Nat) (v : Word) : (d.setReg u o v).tr = d.tr := rfl
@[simp] theorem Dev.setReg_snaps (d : Dev) (u o : Nat) (v : Word) : (d.setReg u o v).snaps = d.snaps := rfl
@[simp] theorem Dev.setReg_sv (d : Dev) (u o : Nat) (v : Word) : (d.setReg u o v).sv = d.sv := rfl
@[simp] theorem Dev.setReg_bt (d : Dev) (u o : Nat) (v : Word) : (d.setReg u o v).bt = d.bt := rfl
@[simp] theorem Dev.setReg_db (d : Dev) (u o : Nat) (v : Word) : (d.setReg u o v).db = d.db := rfl
@[simp] theorem Dev.setReg_keeperSram (d : Dev) (u o : Nat) (v : Word) : (d.setReg u o v).keeperSram = d.keeperSram := rfl
@[simp] theorem Dev.setReg_regionSram (d : Dev) (u o : Nat) (v : Word) : (d.setReg u o v).regionSram = d.regionSram := rfl
@[simp] theorem Dev.setReg_evKept (d : Dev) (u o : Nat) (v : Word) : (d.setReg u o v).evKept = d.evKept := rfl

/-! `setFld` changes only `regs`. -/

@[simp] theorem Dev.setFld_dt (d : Dev) (u o lo w x : Nat) : (d.setFld u o lo w x).dt = d.dt := rfl
@[simp] theorem Dev.setFld_freeCnt (d : Dev) (u o lo w x : Nat) : (d.setFld u o lo w x).freeCnt = d.freeCnt := rfl
@[simp] theorem Dev.setFld_resp (d : Dev) (u o lo w x : Nat) : (d.setFld u o lo w x).resp = d.resp := rfl
@[simp] theorem Dev.setFld_cores (d : Dev) (u o lo w x : Nat) : (d.setFld u o lo w x).cores = d.cores := rfl
@[simp] theorem Dev.setFld_resv (d : Dev) (u o lo w x : Nat) : (d.setFld u o lo w x).resv = d.resv := rfl
@[simp] theorem Dev.setFld_sdram (d : Dev) (u o lo w x : Nat) : (d.setFld u o lo w x).sdram = d.sdram := rfl
@[simp] theorem Dev.setFld_sdramErr (d : Dev) (u o lo w x : Nat) : (d.setFld u o lo w x).sdramErr = d.sdramErr := rfl
@[simp] theorem Dev.setFld_retained (d : Dev) (u o lo w x : Nat) : (d.setFld u o lo w x).retained = d.retained := rfl
@[simp] theorem Dev.setFld_localStore (d : Dev) (u o lo w x : Nat) : (d.setFld u o lo w x).localStore = d.localStore := rfl
@[simp] theorem Dev.setFld_localErr (d : Dev) (u o lo w x : Nat) : (d.setFld u o lo w x).localErr = d.localErr := rfl
@[simp] theorem Dev.setFld_l2 (d : Dev) (u o lo w x : Nat) : (d.setFld u o lo w x).l2 = d.l2 := rfl
@[simp] theorem Dev.setFld_homes (d : Dev) (u o lo w x : Nat) : (d.setFld u o lo w x).homes = d.homes := rfl
@[simp] theorem Dev.setFld_mcCount (d : Dev) (u o lo w x : Nat) : (d.setFld u o lo w x).mcCount = d.mcCount := rfl
@[simp] theorem Dev.setFld_routes (d : Dev) (u o lo w x : Nat) : (d.setFld u o lo w x).routes = d.routes := rfl
@[simp] theorem Dev.setFld_evLevel (d : Dev) (u o lo w x : Nat) : (d.setFld u o lo w x).evLevel = d.evLevel := rfl
@[simp] theorem Dev.setFld_evRot (d : Dev) (u o lo w x : Nat) : (d.setFld u o lo w x).evRot = d.evRot := rfl
@[simp] theorem Dev.setFld_logQ (d : Dev) (u o lo w x : Nat) : (d.setFld u o lo w x).logQ = d.logQ := rfl
@[simp] theorem Dev.setFld_elog (d : Dev) (u o lo w x : Nat) : (d.setFld u o lo w x).elog = d.elog := rfl
@[simp] theorem Dev.setFld_elogSeq (d : Dev) (u o lo w x : Nat) : (d.setFld u o lo w x).elogSeq = d.elogSeq := rfl
@[simp] theorem Dev.setFld_sent (d : Dev) (u o lo w x : Nat) : (d.setFld u o lo w x).sent = d.sent := rfl
@[simp] theorem Dev.setFld_tm (d : Dev) (u o lo w x : Nat) : (d.setFld u o lo w x).tm = d.tm := rfl
@[simp] theorem Dev.setFld_pw (d : Dev) (u o lo w x : Nat) : (d.setFld u o lo w x).pw = d.pw := rfl
@[simp] theorem Dev.setFld_kp (d : Dev) (u o lo w x : Nat) : (d.setFld u o lo w x).kp = d.kp := rfl
@[simp] theorem Dev.setFld_ch (d : Dev) (u o lo w x : Nat) : (d.setFld u o lo w x).ch = d.ch := rfl
@[simp] theorem Dev.setFld_nv (d : Dev) (u o lo w x : Nat) : (d.setFld u o lo w x).nv = d.nv := rfl
@[simp] theorem Dev.setFld_hb (d : Dev) (u o lo w x : Nat) : (d.setFld u o lo w x).hb = d.hb := rfl
@[simp] theorem Dev.setFld_au (d : Dev) (u o lo w x : Nat) : (d.setFld u o lo w x).au = d.au := rfl
@[simp] theorem Dev.setFld_ep (d : Dev) (u o lo w x : Nat) : (d.setFld u o lo w x).ep = d.ep := rfl
@[simp] theorem Dev.setFld_rm (d : Dev) (u o lo w x : Nat) : (d.setFld u o lo w x).rm = d.rm := rfl
@[simp] theorem Dev.setFld_nt (d : Dev) (u o lo w x : Nat) : (d.setFld u o lo w x).nt = d.nt := rfl
@[simp] theorem Dev.setFld_tr (d : Dev) (u o lo w x : Nat) : (d.setFld u o lo w x).tr = d.tr := rfl
@[simp] theorem Dev.setFld_snaps (d : Dev) (u o lo w x : Nat) : (d.setFld u o lo w x).snaps = d.snaps := rfl
@[simp] theorem Dev.setFld_sv (d : Dev) (u o lo w x : Nat) : (d.setFld u o lo w x).sv = d.sv := rfl
@[simp] theorem Dev.setFld_bt (d : Dev) (u o lo w x : Nat) : (d.setFld u o lo w x).bt = d.bt := rfl
@[simp] theorem Dev.setFld_db (d : Dev) (u o lo w x : Nat) : (d.setFld u o lo w x).db = d.db := rfl
@[simp] theorem Dev.setFld_keeperSram (d : Dev) (u o lo w x : Nat) : (d.setFld u o lo w x).keeperSram = d.keeperSram := rfl
@[simp] theorem Dev.setFld_regionSram (d : Dev) (u o lo w x : Nat) : (d.setFld u o lo w x).regionSram = d.regionSram := rfl
@[simp] theorem Dev.setFld_evKept (d : Dev) (u o lo w x : Nat) : (d.setFld u o lo w x).evKept = d.evKept := rfl

/-! `setFlag` changes only `regs`. -/

@[simp] theorem Dev.setFlag_dt (d : Dev) (u o i : Nat) (b : Bool) : (d.setFlag u o i b).dt = d.dt := rfl
@[simp] theorem Dev.setFlag_freeCnt (d : Dev) (u o i : Nat) (b : Bool) : (d.setFlag u o i b).freeCnt = d.freeCnt := rfl
@[simp] theorem Dev.setFlag_resp (d : Dev) (u o i : Nat) (b : Bool) : (d.setFlag u o i b).resp = d.resp := rfl
@[simp] theorem Dev.setFlag_cores (d : Dev) (u o i : Nat) (b : Bool) : (d.setFlag u o i b).cores = d.cores := rfl
@[simp] theorem Dev.setFlag_resv (d : Dev) (u o i : Nat) (b : Bool) : (d.setFlag u o i b).resv = d.resv := rfl
@[simp] theorem Dev.setFlag_sdram (d : Dev) (u o i : Nat) (b : Bool) : (d.setFlag u o i b).sdram = d.sdram := rfl
@[simp] theorem Dev.setFlag_sdramErr (d : Dev) (u o i : Nat) (b : Bool) : (d.setFlag u o i b).sdramErr = d.sdramErr := rfl
@[simp] theorem Dev.setFlag_retained (d : Dev) (u o i : Nat) (b : Bool) : (d.setFlag u o i b).retained = d.retained := rfl
@[simp] theorem Dev.setFlag_localStore (d : Dev) (u o i : Nat) (b : Bool) : (d.setFlag u o i b).localStore = d.localStore := rfl
@[simp] theorem Dev.setFlag_localErr (d : Dev) (u o i : Nat) (b : Bool) : (d.setFlag u o i b).localErr = d.localErr := rfl
@[simp] theorem Dev.setFlag_l2 (d : Dev) (u o i : Nat) (b : Bool) : (d.setFlag u o i b).l2 = d.l2 := rfl
@[simp] theorem Dev.setFlag_homes (d : Dev) (u o i : Nat) (b : Bool) : (d.setFlag u o i b).homes = d.homes := rfl
@[simp] theorem Dev.setFlag_mcCount (d : Dev) (u o i : Nat) (b : Bool) : (d.setFlag u o i b).mcCount = d.mcCount := rfl
@[simp] theorem Dev.setFlag_routes (d : Dev) (u o i : Nat) (b : Bool) : (d.setFlag u o i b).routes = d.routes := rfl
@[simp] theorem Dev.setFlag_evLevel (d : Dev) (u o i : Nat) (b : Bool) : (d.setFlag u o i b).evLevel = d.evLevel := rfl
@[simp] theorem Dev.setFlag_evRot (d : Dev) (u o i : Nat) (b : Bool) : (d.setFlag u o i b).evRot = d.evRot := rfl
@[simp] theorem Dev.setFlag_logQ (d : Dev) (u o i : Nat) (b : Bool) : (d.setFlag u o i b).logQ = d.logQ := rfl
@[simp] theorem Dev.setFlag_elog (d : Dev) (u o i : Nat) (b : Bool) : (d.setFlag u o i b).elog = d.elog := rfl
@[simp] theorem Dev.setFlag_elogSeq (d : Dev) (u o i : Nat) (b : Bool) : (d.setFlag u o i b).elogSeq = d.elogSeq := rfl
@[simp] theorem Dev.setFlag_sent (d : Dev) (u o i : Nat) (b : Bool) : (d.setFlag u o i b).sent = d.sent := rfl
@[simp] theorem Dev.setFlag_tm (d : Dev) (u o i : Nat) (b : Bool) : (d.setFlag u o i b).tm = d.tm := rfl
@[simp] theorem Dev.setFlag_pw (d : Dev) (u o i : Nat) (b : Bool) : (d.setFlag u o i b).pw = d.pw := rfl
@[simp] theorem Dev.setFlag_kp (d : Dev) (u o i : Nat) (b : Bool) : (d.setFlag u o i b).kp = d.kp := rfl
@[simp] theorem Dev.setFlag_ch (d : Dev) (u o i : Nat) (b : Bool) : (d.setFlag u o i b).ch = d.ch := rfl
@[simp] theorem Dev.setFlag_nv (d : Dev) (u o i : Nat) (b : Bool) : (d.setFlag u o i b).nv = d.nv := rfl
@[simp] theorem Dev.setFlag_hb (d : Dev) (u o i : Nat) (b : Bool) : (d.setFlag u o i b).hb = d.hb := rfl
@[simp] theorem Dev.setFlag_au (d : Dev) (u o i : Nat) (b : Bool) : (d.setFlag u o i b).au = d.au := rfl
@[simp] theorem Dev.setFlag_ep (d : Dev) (u o i : Nat) (b : Bool) : (d.setFlag u o i b).ep = d.ep := rfl
@[simp] theorem Dev.setFlag_rm (d : Dev) (u o i : Nat) (b : Bool) : (d.setFlag u o i b).rm = d.rm := rfl
@[simp] theorem Dev.setFlag_nt (d : Dev) (u o i : Nat) (b : Bool) : (d.setFlag u o i b).nt = d.nt := rfl
@[simp] theorem Dev.setFlag_tr (d : Dev) (u o i : Nat) (b : Bool) : (d.setFlag u o i b).tr = d.tr := rfl
@[simp] theorem Dev.setFlag_snaps (d : Dev) (u o i : Nat) (b : Bool) : (d.setFlag u o i b).snaps = d.snaps := rfl
@[simp] theorem Dev.setFlag_sv (d : Dev) (u o i : Nat) (b : Bool) : (d.setFlag u o i b).sv = d.sv := rfl
@[simp] theorem Dev.setFlag_bt (d : Dev) (u o i : Nat) (b : Bool) : (d.setFlag u o i b).bt = d.bt := rfl
@[simp] theorem Dev.setFlag_db (d : Dev) (u o i : Nat) (b : Bool) : (d.setFlag u o i b).db = d.db := rfl
@[simp] theorem Dev.setFlag_keeperSram (d : Dev) (u o i : Nat) (b : Bool) : (d.setFlag u o i b).keeperSram = d.keeperSram := rfl
@[simp] theorem Dev.setFlag_regionSram (d : Dev) (u o i : Nat) (b : Bool) : (d.setFlag u o i b).regionSram = d.regionSram := rfl
@[simp] theorem Dev.setFlag_evKept (d : Dev) (u o i : Nat) (b : Bool) : (d.setFlag u o i b).evKept = d.evKept := rfl

/-! `incFld` changes only `regs`. -/

@[simp] theorem Dev.incFld_dt (d : Dev) (u o lo w : Nat) : (d.incFld u o lo w).dt = d.dt := rfl
@[simp] theorem Dev.incFld_freeCnt (d : Dev) (u o lo w : Nat) : (d.incFld u o lo w).freeCnt = d.freeCnt := rfl
@[simp] theorem Dev.incFld_resp (d : Dev) (u o lo w : Nat) : (d.incFld u o lo w).resp = d.resp := rfl
@[simp] theorem Dev.incFld_cores (d : Dev) (u o lo w : Nat) : (d.incFld u o lo w).cores = d.cores := rfl
@[simp] theorem Dev.incFld_resv (d : Dev) (u o lo w : Nat) : (d.incFld u o lo w).resv = d.resv := rfl
@[simp] theorem Dev.incFld_sdram (d : Dev) (u o lo w : Nat) : (d.incFld u o lo w).sdram = d.sdram := rfl
@[simp] theorem Dev.incFld_sdramErr (d : Dev) (u o lo w : Nat) : (d.incFld u o lo w).sdramErr = d.sdramErr := rfl
@[simp] theorem Dev.incFld_retained (d : Dev) (u o lo w : Nat) : (d.incFld u o lo w).retained = d.retained := rfl
@[simp] theorem Dev.incFld_localStore (d : Dev) (u o lo w : Nat) : (d.incFld u o lo w).localStore = d.localStore := rfl
@[simp] theorem Dev.incFld_localErr (d : Dev) (u o lo w : Nat) : (d.incFld u o lo w).localErr = d.localErr := rfl
@[simp] theorem Dev.incFld_l2 (d : Dev) (u o lo w : Nat) : (d.incFld u o lo w).l2 = d.l2 := rfl
@[simp] theorem Dev.incFld_homes (d : Dev) (u o lo w : Nat) : (d.incFld u o lo w).homes = d.homes := rfl
@[simp] theorem Dev.incFld_mcCount (d : Dev) (u o lo w : Nat) : (d.incFld u o lo w).mcCount = d.mcCount := rfl
@[simp] theorem Dev.incFld_routes (d : Dev) (u o lo w : Nat) : (d.incFld u o lo w).routes = d.routes := rfl
@[simp] theorem Dev.incFld_evLevel (d : Dev) (u o lo w : Nat) : (d.incFld u o lo w).evLevel = d.evLevel := rfl
@[simp] theorem Dev.incFld_evRot (d : Dev) (u o lo w : Nat) : (d.incFld u o lo w).evRot = d.evRot := rfl
@[simp] theorem Dev.incFld_logQ (d : Dev) (u o lo w : Nat) : (d.incFld u o lo w).logQ = d.logQ := rfl
@[simp] theorem Dev.incFld_elog (d : Dev) (u o lo w : Nat) : (d.incFld u o lo w).elog = d.elog := rfl
@[simp] theorem Dev.incFld_elogSeq (d : Dev) (u o lo w : Nat) : (d.incFld u o lo w).elogSeq = d.elogSeq := rfl
@[simp] theorem Dev.incFld_sent (d : Dev) (u o lo w : Nat) : (d.incFld u o lo w).sent = d.sent := rfl
@[simp] theorem Dev.incFld_tm (d : Dev) (u o lo w : Nat) : (d.incFld u o lo w).tm = d.tm := rfl
@[simp] theorem Dev.incFld_pw (d : Dev) (u o lo w : Nat) : (d.incFld u o lo w).pw = d.pw := rfl
@[simp] theorem Dev.incFld_kp (d : Dev) (u o lo w : Nat) : (d.incFld u o lo w).kp = d.kp := rfl
@[simp] theorem Dev.incFld_ch (d : Dev) (u o lo w : Nat) : (d.incFld u o lo w).ch = d.ch := rfl
@[simp] theorem Dev.incFld_nv (d : Dev) (u o lo w : Nat) : (d.incFld u o lo w).nv = d.nv := rfl
@[simp] theorem Dev.incFld_hb (d : Dev) (u o lo w : Nat) : (d.incFld u o lo w).hb = d.hb := rfl
@[simp] theorem Dev.incFld_au (d : Dev) (u o lo w : Nat) : (d.incFld u o lo w).au = d.au := rfl
@[simp] theorem Dev.incFld_ep (d : Dev) (u o lo w : Nat) : (d.incFld u o lo w).ep = d.ep := rfl
@[simp] theorem Dev.incFld_rm (d : Dev) (u o lo w : Nat) : (d.incFld u o lo w).rm = d.rm := rfl
@[simp] theorem Dev.incFld_nt (d : Dev) (u o lo w : Nat) : (d.incFld u o lo w).nt = d.nt := rfl
@[simp] theorem Dev.incFld_tr (d : Dev) (u o lo w : Nat) : (d.incFld u o lo w).tr = d.tr := rfl
@[simp] theorem Dev.incFld_snaps (d : Dev) (u o lo w : Nat) : (d.incFld u o lo w).snaps = d.snaps := rfl
@[simp] theorem Dev.incFld_sv (d : Dev) (u o lo w : Nat) : (d.incFld u o lo w).sv = d.sv := rfl
@[simp] theorem Dev.incFld_bt (d : Dev) (u o lo w : Nat) : (d.incFld u o lo w).bt = d.bt := rfl
@[simp] theorem Dev.incFld_db (d : Dev) (u o lo w : Nat) : (d.incFld u o lo w).db = d.db := rfl
@[simp] theorem Dev.incFld_keeperSram (d : Dev) (u o lo w : Nat) : (d.incFld u o lo w).keeperSram = d.keeperSram := rfl
@[simp] theorem Dev.incFld_regionSram (d : Dev) (u o lo w : Nat) : (d.incFld u o lo w).regionSram = d.regionSram := rfl
@[simp] theorem Dev.incFld_evKept (d : Dev) (u o lo w : Nat) : (d.incFld u o lo w).evKept = d.evKept := rfl

/-! `wrapFld` changes only `regs`. -/

@[simp] theorem Dev.wrapFld_dt (d : Dev) (u o lo w : Nat) : (d.wrapFld u o lo w).dt = d.dt := rfl
@[simp] theorem Dev.wrapFld_freeCnt (d : Dev) (u o lo w : Nat) : (d.wrapFld u o lo w).freeCnt = d.freeCnt := rfl
@[simp] theorem Dev.wrapFld_resp (d : Dev) (u o lo w : Nat) : (d.wrapFld u o lo w).resp = d.resp := rfl
@[simp] theorem Dev.wrapFld_cores (d : Dev) (u o lo w : Nat) : (d.wrapFld u o lo w).cores = d.cores := rfl
@[simp] theorem Dev.wrapFld_resv (d : Dev) (u o lo w : Nat) : (d.wrapFld u o lo w).resv = d.resv := rfl
@[simp] theorem Dev.wrapFld_sdram (d : Dev) (u o lo w : Nat) : (d.wrapFld u o lo w).sdram = d.sdram := rfl
@[simp] theorem Dev.wrapFld_sdramErr (d : Dev) (u o lo w : Nat) : (d.wrapFld u o lo w).sdramErr = d.sdramErr := rfl
@[simp] theorem Dev.wrapFld_retained (d : Dev) (u o lo w : Nat) : (d.wrapFld u o lo w).retained = d.retained := rfl
@[simp] theorem Dev.wrapFld_localStore (d : Dev) (u o lo w : Nat) : (d.wrapFld u o lo w).localStore = d.localStore := rfl
@[simp] theorem Dev.wrapFld_localErr (d : Dev) (u o lo w : Nat) : (d.wrapFld u o lo w).localErr = d.localErr := rfl
@[simp] theorem Dev.wrapFld_l2 (d : Dev) (u o lo w : Nat) : (d.wrapFld u o lo w).l2 = d.l2 := rfl
@[simp] theorem Dev.wrapFld_homes (d : Dev) (u o lo w : Nat) : (d.wrapFld u o lo w).homes = d.homes := rfl
@[simp] theorem Dev.wrapFld_mcCount (d : Dev) (u o lo w : Nat) : (d.wrapFld u o lo w).mcCount = d.mcCount := rfl
@[simp] theorem Dev.wrapFld_routes (d : Dev) (u o lo w : Nat) : (d.wrapFld u o lo w).routes = d.routes := rfl
@[simp] theorem Dev.wrapFld_evLevel (d : Dev) (u o lo w : Nat) : (d.wrapFld u o lo w).evLevel = d.evLevel := rfl
@[simp] theorem Dev.wrapFld_evRot (d : Dev) (u o lo w : Nat) : (d.wrapFld u o lo w).evRot = d.evRot := rfl
@[simp] theorem Dev.wrapFld_logQ (d : Dev) (u o lo w : Nat) : (d.wrapFld u o lo w).logQ = d.logQ := rfl
@[simp] theorem Dev.wrapFld_elog (d : Dev) (u o lo w : Nat) : (d.wrapFld u o lo w).elog = d.elog := rfl
@[simp] theorem Dev.wrapFld_elogSeq (d : Dev) (u o lo w : Nat) : (d.wrapFld u o lo w).elogSeq = d.elogSeq := rfl
@[simp] theorem Dev.wrapFld_sent (d : Dev) (u o lo w : Nat) : (d.wrapFld u o lo w).sent = d.sent := rfl
@[simp] theorem Dev.wrapFld_tm (d : Dev) (u o lo w : Nat) : (d.wrapFld u o lo w).tm = d.tm := rfl
@[simp] theorem Dev.wrapFld_pw (d : Dev) (u o lo w : Nat) : (d.wrapFld u o lo w).pw = d.pw := rfl
@[simp] theorem Dev.wrapFld_kp (d : Dev) (u o lo w : Nat) : (d.wrapFld u o lo w).kp = d.kp := rfl
@[simp] theorem Dev.wrapFld_ch (d : Dev) (u o lo w : Nat) : (d.wrapFld u o lo w).ch = d.ch := rfl
@[simp] theorem Dev.wrapFld_nv (d : Dev) (u o lo w : Nat) : (d.wrapFld u o lo w).nv = d.nv := rfl
@[simp] theorem Dev.wrapFld_hb (d : Dev) (u o lo w : Nat) : (d.wrapFld u o lo w).hb = d.hb := rfl
@[simp] theorem Dev.wrapFld_au (d : Dev) (u o lo w : Nat) : (d.wrapFld u o lo w).au = d.au := rfl
@[simp] theorem Dev.wrapFld_ep (d : Dev) (u o lo w : Nat) : (d.wrapFld u o lo w).ep = d.ep := rfl
@[simp] theorem Dev.wrapFld_rm (d : Dev) (u o lo w : Nat) : (d.wrapFld u o lo w).rm = d.rm := rfl
@[simp] theorem Dev.wrapFld_nt (d : Dev) (u o lo w : Nat) : (d.wrapFld u o lo w).nt = d.nt := rfl
@[simp] theorem Dev.wrapFld_tr (d : Dev) (u o lo w : Nat) : (d.wrapFld u o lo w).tr = d.tr := rfl
@[simp] theorem Dev.wrapFld_snaps (d : Dev) (u o lo w : Nat) : (d.wrapFld u o lo w).snaps = d.snaps := rfl
@[simp] theorem Dev.wrapFld_sv (d : Dev) (u o lo w : Nat) : (d.wrapFld u o lo w).sv = d.sv := rfl
@[simp] theorem Dev.wrapFld_bt (d : Dev) (u o lo w : Nat) : (d.wrapFld u o lo w).bt = d.bt := rfl
@[simp] theorem Dev.wrapFld_db (d : Dev) (u o lo w : Nat) : (d.wrapFld u o lo w).db = d.db := rfl
@[simp] theorem Dev.wrapFld_keeperSram (d : Dev) (u o lo w : Nat) : (d.wrapFld u o lo w).keeperSram = d.keeperSram := rfl
@[simp] theorem Dev.wrapFld_regionSram (d : Dev) (u o lo w : Nat) : (d.wrapFld u o lo w).regionSram = d.regionSram := rfl
@[simp] theorem Dev.wrapFld_evKept (d : Dev) (u o lo w : Nat) : (d.wrapFld u o lo w).evKept = d.evKept := rfl

/-! `setPower` changes only `regs`. -/

@[simp] theorem Dev.setPower_dt (d : Dev) (u p : Nat) : (d.setPower u p).dt = d.dt := rfl
@[simp] theorem Dev.setPower_freeCnt (d : Dev) (u p : Nat) : (d.setPower u p).freeCnt = d.freeCnt := rfl
@[simp] theorem Dev.setPower_resp (d : Dev) (u p : Nat) : (d.setPower u p).resp = d.resp := rfl
@[simp] theorem Dev.setPower_cores (d : Dev) (u p : Nat) : (d.setPower u p).cores = d.cores := rfl
@[simp] theorem Dev.setPower_resv (d : Dev) (u p : Nat) : (d.setPower u p).resv = d.resv := rfl
@[simp] theorem Dev.setPower_sdram (d : Dev) (u p : Nat) : (d.setPower u p).sdram = d.sdram := rfl
@[simp] theorem Dev.setPower_sdramErr (d : Dev) (u p : Nat) : (d.setPower u p).sdramErr = d.sdramErr := rfl
@[simp] theorem Dev.setPower_retained (d : Dev) (u p : Nat) : (d.setPower u p).retained = d.retained := rfl
@[simp] theorem Dev.setPower_localStore (d : Dev) (u p : Nat) : (d.setPower u p).localStore = d.localStore := rfl
@[simp] theorem Dev.setPower_localErr (d : Dev) (u p : Nat) : (d.setPower u p).localErr = d.localErr := rfl
@[simp] theorem Dev.setPower_l2 (d : Dev) (u p : Nat) : (d.setPower u p).l2 = d.l2 := rfl
@[simp] theorem Dev.setPower_homes (d : Dev) (u p : Nat) : (d.setPower u p).homes = d.homes := rfl
@[simp] theorem Dev.setPower_mcCount (d : Dev) (u p : Nat) : (d.setPower u p).mcCount = d.mcCount := rfl
@[simp] theorem Dev.setPower_routes (d : Dev) (u p : Nat) : (d.setPower u p).routes = d.routes := rfl
@[simp] theorem Dev.setPower_evLevel (d : Dev) (u p : Nat) : (d.setPower u p).evLevel = d.evLevel := rfl
@[simp] theorem Dev.setPower_evRot (d : Dev) (u p : Nat) : (d.setPower u p).evRot = d.evRot := rfl
@[simp] theorem Dev.setPower_logQ (d : Dev) (u p : Nat) : (d.setPower u p).logQ = d.logQ := rfl
@[simp] theorem Dev.setPower_elog (d : Dev) (u p : Nat) : (d.setPower u p).elog = d.elog := rfl
@[simp] theorem Dev.setPower_elogSeq (d : Dev) (u p : Nat) : (d.setPower u p).elogSeq = d.elogSeq := rfl
@[simp] theorem Dev.setPower_sent (d : Dev) (u p : Nat) : (d.setPower u p).sent = d.sent := rfl
@[simp] theorem Dev.setPower_tm (d : Dev) (u p : Nat) : (d.setPower u p).tm = d.tm := rfl
@[simp] theorem Dev.setPower_pw (d : Dev) (u p : Nat) : (d.setPower u p).pw = d.pw := rfl
@[simp] theorem Dev.setPower_kp (d : Dev) (u p : Nat) : (d.setPower u p).kp = d.kp := rfl
@[simp] theorem Dev.setPower_ch (d : Dev) (u p : Nat) : (d.setPower u p).ch = d.ch := rfl
@[simp] theorem Dev.setPower_nv (d : Dev) (u p : Nat) : (d.setPower u p).nv = d.nv := rfl
@[simp] theorem Dev.setPower_hb (d : Dev) (u p : Nat) : (d.setPower u p).hb = d.hb := rfl
@[simp] theorem Dev.setPower_au (d : Dev) (u p : Nat) : (d.setPower u p).au = d.au := rfl
@[simp] theorem Dev.setPower_ep (d : Dev) (u p : Nat) : (d.setPower u p).ep = d.ep := rfl
@[simp] theorem Dev.setPower_rm (d : Dev) (u p : Nat) : (d.setPower u p).rm = d.rm := rfl
@[simp] theorem Dev.setPower_nt (d : Dev) (u p : Nat) : (d.setPower u p).nt = d.nt := rfl
@[simp] theorem Dev.setPower_tr (d : Dev) (u p : Nat) : (d.setPower u p).tr = d.tr := rfl
@[simp] theorem Dev.setPower_snaps (d : Dev) (u p : Nat) : (d.setPower u p).snaps = d.snaps := rfl
@[simp] theorem Dev.setPower_sv (d : Dev) (u p : Nat) : (d.setPower u p).sv = d.sv := rfl
@[simp] theorem Dev.setPower_bt (d : Dev) (u p : Nat) : (d.setPower u p).bt = d.bt := rfl
@[simp] theorem Dev.setPower_db (d : Dev) (u p : Nat) : (d.setPower u p).db = d.db := rfl
@[simp] theorem Dev.setPower_keeperSram (d : Dev) (u p : Nat) : (d.setPower u p).keeperSram = d.keeperSram := rfl
@[simp] theorem Dev.setPower_regionSram (d : Dev) (u p : Nat) : (d.setPower u p).regionSram = d.regionSram := rfl
@[simp] theorem Dev.setPower_evKept (d : Dev) (u p : Nat) : (d.setPower u p).evKept = d.evKept := rfl

/-! `setRole` changes only `regs`. -/

@[simp] theorem Dev.setRole_dt (d : Dev) (u r : Nat) : (d.setRole u r).dt = d.dt := rfl
@[simp] theorem Dev.setRole_freeCnt (d : Dev) (u r : Nat) : (d.setRole u r).freeCnt = d.freeCnt := rfl
@[simp] theorem Dev.setRole_resp (d : Dev) (u r : Nat) : (d.setRole u r).resp = d.resp := rfl
@[simp] theorem Dev.setRole_cores (d : Dev) (u r : Nat) : (d.setRole u r).cores = d.cores := rfl
@[simp] theorem Dev.setRole_resv (d : Dev) (u r : Nat) : (d.setRole u r).resv = d.resv := rfl
@[simp] theorem Dev.setRole_sdram (d : Dev) (u r : Nat) : (d.setRole u r).sdram = d.sdram := rfl
@[simp] theorem Dev.setRole_sdramErr (d : Dev) (u r : Nat) : (d.setRole u r).sdramErr = d.sdramErr := rfl
@[simp] theorem Dev.setRole_retained (d : Dev) (u r : Nat) : (d.setRole u r).retained = d.retained := rfl
@[simp] theorem Dev.setRole_localStore (d : Dev) (u r : Nat) : (d.setRole u r).localStore = d.localStore := rfl
@[simp] theorem Dev.setRole_localErr (d : Dev) (u r : Nat) : (d.setRole u r).localErr = d.localErr := rfl
@[simp] theorem Dev.setRole_l2 (d : Dev) (u r : Nat) : (d.setRole u r).l2 = d.l2 := rfl
@[simp] theorem Dev.setRole_homes (d : Dev) (u r : Nat) : (d.setRole u r).homes = d.homes := rfl
@[simp] theorem Dev.setRole_mcCount (d : Dev) (u r : Nat) : (d.setRole u r).mcCount = d.mcCount := rfl
@[simp] theorem Dev.setRole_routes (d : Dev) (u r : Nat) : (d.setRole u r).routes = d.routes := rfl
@[simp] theorem Dev.setRole_evLevel (d : Dev) (u r : Nat) : (d.setRole u r).evLevel = d.evLevel := rfl
@[simp] theorem Dev.setRole_evRot (d : Dev) (u r : Nat) : (d.setRole u r).evRot = d.evRot := rfl
@[simp] theorem Dev.setRole_logQ (d : Dev) (u r : Nat) : (d.setRole u r).logQ = d.logQ := rfl
@[simp] theorem Dev.setRole_elog (d : Dev) (u r : Nat) : (d.setRole u r).elog = d.elog := rfl
@[simp] theorem Dev.setRole_elogSeq (d : Dev) (u r : Nat) : (d.setRole u r).elogSeq = d.elogSeq := rfl
@[simp] theorem Dev.setRole_sent (d : Dev) (u r : Nat) : (d.setRole u r).sent = d.sent := rfl
@[simp] theorem Dev.setRole_tm (d : Dev) (u r : Nat) : (d.setRole u r).tm = d.tm := rfl
@[simp] theorem Dev.setRole_pw (d : Dev) (u r : Nat) : (d.setRole u r).pw = d.pw := rfl
@[simp] theorem Dev.setRole_kp (d : Dev) (u r : Nat) : (d.setRole u r).kp = d.kp := rfl
@[simp] theorem Dev.setRole_ch (d : Dev) (u r : Nat) : (d.setRole u r).ch = d.ch := rfl
@[simp] theorem Dev.setRole_nv (d : Dev) (u r : Nat) : (d.setRole u r).nv = d.nv := rfl
@[simp] theorem Dev.setRole_hb (d : Dev) (u r : Nat) : (d.setRole u r).hb = d.hb := rfl
@[simp] theorem Dev.setRole_au (d : Dev) (u r : Nat) : (d.setRole u r).au = d.au := rfl
@[simp] theorem Dev.setRole_ep (d : Dev) (u r : Nat) : (d.setRole u r).ep = d.ep := rfl
@[simp] theorem Dev.setRole_rm (d : Dev) (u r : Nat) : (d.setRole u r).rm = d.rm := rfl
@[simp] theorem Dev.setRole_nt (d : Dev) (u r : Nat) : (d.setRole u r).nt = d.nt := rfl
@[simp] theorem Dev.setRole_tr (d : Dev) (u r : Nat) : (d.setRole u r).tr = d.tr := rfl
@[simp] theorem Dev.setRole_snaps (d : Dev) (u r : Nat) : (d.setRole u r).snaps = d.snaps := rfl
@[simp] theorem Dev.setRole_sv (d : Dev) (u r : Nat) : (d.setRole u r).sv = d.sv := rfl
@[simp] theorem Dev.setRole_bt (d : Dev) (u r : Nat) : (d.setRole u r).bt = d.bt := rfl
@[simp] theorem Dev.setRole_db (d : Dev) (u r : Nat) : (d.setRole u r).db = d.db := rfl
@[simp] theorem Dev.setRole_keeperSram (d : Dev) (u r : Nat) : (d.setRole u r).keeperSram = d.keeperSram := rfl
@[simp] theorem Dev.setRole_regionSram (d : Dev) (u r : Nat) : (d.setRole u r).regionSram = d.regionSram := rfl
@[simp] theorem Dev.setRole_evKept (d : Dev) (u r : Nat) : (d.setRole u r).evKept = d.evKept := rfl

/-! `setCore` changes only `cores`. -/

@[simp] theorem Dev.setCore_dt (d : Dev) (c : CoreId) (k : Core) : (d.setCore c k).dt = d.dt := rfl
@[simp] theorem Dev.setCore_freeCnt (d : Dev) (c : CoreId) (k : Core) : (d.setCore c k).freeCnt = d.freeCnt := rfl
@[simp] theorem Dev.setCore_resp (d : Dev) (c : CoreId) (k : Core) : (d.setCore c k).resp = d.resp := rfl
@[simp] theorem Dev.setCore_regs (d : Dev) (c : CoreId) (k : Core) : (d.setCore c k).regs = d.regs := rfl
@[simp] theorem Dev.setCore_resv (d : Dev) (c : CoreId) (k : Core) : (d.setCore c k).resv = d.resv := rfl
@[simp] theorem Dev.setCore_sdram (d : Dev) (c : CoreId) (k : Core) : (d.setCore c k).sdram = d.sdram := rfl
@[simp] theorem Dev.setCore_sdramErr (d : Dev) (c : CoreId) (k : Core) : (d.setCore c k).sdramErr = d.sdramErr := rfl
@[simp] theorem Dev.setCore_retained (d : Dev) (c : CoreId) (k : Core) : (d.setCore c k).retained = d.retained := rfl
@[simp] theorem Dev.setCore_localStore (d : Dev) (c : CoreId) (k : Core) : (d.setCore c k).localStore = d.localStore := rfl
@[simp] theorem Dev.setCore_localErr (d : Dev) (c : CoreId) (k : Core) : (d.setCore c k).localErr = d.localErr := rfl
@[simp] theorem Dev.setCore_l2 (d : Dev) (c : CoreId) (k : Core) : (d.setCore c k).l2 = d.l2 := rfl
@[simp] theorem Dev.setCore_homes (d : Dev) (c : CoreId) (k : Core) : (d.setCore c k).homes = d.homes := rfl
@[simp] theorem Dev.setCore_mcCount (d : Dev) (c : CoreId) (k : Core) : (d.setCore c k).mcCount = d.mcCount := rfl
@[simp] theorem Dev.setCore_routes (d : Dev) (c : CoreId) (k : Core) : (d.setCore c k).routes = d.routes := rfl
@[simp] theorem Dev.setCore_evLevel (d : Dev) (c : CoreId) (k : Core) : (d.setCore c k).evLevel = d.evLevel := rfl
@[simp] theorem Dev.setCore_evRot (d : Dev) (c : CoreId) (k : Core) : (d.setCore c k).evRot = d.evRot := rfl
@[simp] theorem Dev.setCore_logQ (d : Dev) (c : CoreId) (k : Core) : (d.setCore c k).logQ = d.logQ := rfl
@[simp] theorem Dev.setCore_elog (d : Dev) (c : CoreId) (k : Core) : (d.setCore c k).elog = d.elog := rfl
@[simp] theorem Dev.setCore_elogSeq (d : Dev) (c : CoreId) (k : Core) : (d.setCore c k).elogSeq = d.elogSeq := rfl
@[simp] theorem Dev.setCore_sent (d : Dev) (c : CoreId) (k : Core) : (d.setCore c k).sent = d.sent := rfl
@[simp] theorem Dev.setCore_tm (d : Dev) (c : CoreId) (k : Core) : (d.setCore c k).tm = d.tm := rfl
@[simp] theorem Dev.setCore_pw (d : Dev) (c : CoreId) (k : Core) : (d.setCore c k).pw = d.pw := rfl
@[simp] theorem Dev.setCore_kp (d : Dev) (c : CoreId) (k : Core) : (d.setCore c k).kp = d.kp := rfl
@[simp] theorem Dev.setCore_ch (d : Dev) (c : CoreId) (k : Core) : (d.setCore c k).ch = d.ch := rfl
@[simp] theorem Dev.setCore_nv (d : Dev) (c : CoreId) (k : Core) : (d.setCore c k).nv = d.nv := rfl
@[simp] theorem Dev.setCore_hb (d : Dev) (c : CoreId) (k : Core) : (d.setCore c k).hb = d.hb := rfl
@[simp] theorem Dev.setCore_au (d : Dev) (c : CoreId) (k : Core) : (d.setCore c k).au = d.au := rfl
@[simp] theorem Dev.setCore_ep (d : Dev) (c : CoreId) (k : Core) : (d.setCore c k).ep = d.ep := rfl
@[simp] theorem Dev.setCore_rm (d : Dev) (c : CoreId) (k : Core) : (d.setCore c k).rm = d.rm := rfl
@[simp] theorem Dev.setCore_nt (d : Dev) (c : CoreId) (k : Core) : (d.setCore c k).nt = d.nt := rfl
@[simp] theorem Dev.setCore_tr (d : Dev) (c : CoreId) (k : Core) : (d.setCore c k).tr = d.tr := rfl
@[simp] theorem Dev.setCore_snaps (d : Dev) (c : CoreId) (k : Core) : (d.setCore c k).snaps = d.snaps := rfl
@[simp] theorem Dev.setCore_sv (d : Dev) (c : CoreId) (k : Core) : (d.setCore c k).sv = d.sv := rfl
@[simp] theorem Dev.setCore_bt (d : Dev) (c : CoreId) (k : Core) : (d.setCore c k).bt = d.bt := rfl
@[simp] theorem Dev.setCore_db (d : Dev) (c : CoreId) (k : Core) : (d.setCore c k).db = d.db := rfl
@[simp] theorem Dev.setCore_keeperSram (d : Dev) (c : CoreId) (k : Core) : (d.setCore c k).keeperSram = d.keeperSram := rfl
@[simp] theorem Dev.setCore_regionSram (d : Dev) (c : CoreId) (k : Core) : (d.setCore c k).regionSram = d.regionSram := rfl
@[simp] theorem Dev.setCore_evKept (d : Dev) (c : CoreId) (k : Core) : (d.setCore c k).evKept = d.evKept := rfl

/-! `modCore` changes only `cores`. -/

@[simp] theorem Dev.modCore_dt (d : Dev) (c : CoreId) (f : Core → Core) : (d.modCore c f).dt = d.dt := rfl
@[simp] theorem Dev.modCore_freeCnt (d : Dev) (c : CoreId) (f : Core → Core) : (d.modCore c f).freeCnt = d.freeCnt := rfl
@[simp] theorem Dev.modCore_resp (d : Dev) (c : CoreId) (f : Core → Core) : (d.modCore c f).resp = d.resp := rfl
@[simp] theorem Dev.modCore_regs (d : Dev) (c : CoreId) (f : Core → Core) : (d.modCore c f).regs = d.regs := rfl
@[simp] theorem Dev.modCore_resv (d : Dev) (c : CoreId) (f : Core → Core) : (d.modCore c f).resv = d.resv := rfl
@[simp] theorem Dev.modCore_sdram (d : Dev) (c : CoreId) (f : Core → Core) : (d.modCore c f).sdram = d.sdram := rfl
@[simp] theorem Dev.modCore_sdramErr (d : Dev) (c : CoreId) (f : Core → Core) : (d.modCore c f).sdramErr = d.sdramErr := rfl
@[simp] theorem Dev.modCore_retained (d : Dev) (c : CoreId) (f : Core → Core) : (d.modCore c f).retained = d.retained := rfl
@[simp] theorem Dev.modCore_localStore (d : Dev) (c : CoreId) (f : Core → Core) : (d.modCore c f).localStore = d.localStore := rfl
@[simp] theorem Dev.modCore_localErr (d : Dev) (c : CoreId) (f : Core → Core) : (d.modCore c f).localErr = d.localErr := rfl
@[simp] theorem Dev.modCore_l2 (d : Dev) (c : CoreId) (f : Core → Core) : (d.modCore c f).l2 = d.l2 := rfl
@[simp] theorem Dev.modCore_homes (d : Dev) (c : CoreId) (f : Core → Core) : (d.modCore c f).homes = d.homes := rfl
@[simp] theorem Dev.modCore_mcCount (d : Dev) (c : CoreId) (f : Core → Core) : (d.modCore c f).mcCount = d.mcCount := rfl
@[simp] theorem Dev.modCore_routes (d : Dev) (c : CoreId) (f : Core → Core) : (d.modCore c f).routes = d.routes := rfl
@[simp] theorem Dev.modCore_evLevel (d : Dev) (c : CoreId) (f : Core → Core) : (d.modCore c f).evLevel = d.evLevel := rfl
@[simp] theorem Dev.modCore_evRot (d : Dev) (c : CoreId) (f : Core → Core) : (d.modCore c f).evRot = d.evRot := rfl
@[simp] theorem Dev.modCore_logQ (d : Dev) (c : CoreId) (f : Core → Core) : (d.modCore c f).logQ = d.logQ := rfl
@[simp] theorem Dev.modCore_elog (d : Dev) (c : CoreId) (f : Core → Core) : (d.modCore c f).elog = d.elog := rfl
@[simp] theorem Dev.modCore_elogSeq (d : Dev) (c : CoreId) (f : Core → Core) : (d.modCore c f).elogSeq = d.elogSeq := rfl
@[simp] theorem Dev.modCore_sent (d : Dev) (c : CoreId) (f : Core → Core) : (d.modCore c f).sent = d.sent := rfl
@[simp] theorem Dev.modCore_tm (d : Dev) (c : CoreId) (f : Core → Core) : (d.modCore c f).tm = d.tm := rfl
@[simp] theorem Dev.modCore_pw (d : Dev) (c : CoreId) (f : Core → Core) : (d.modCore c f).pw = d.pw := rfl
@[simp] theorem Dev.modCore_kp (d : Dev) (c : CoreId) (f : Core → Core) : (d.modCore c f).kp = d.kp := rfl
@[simp] theorem Dev.modCore_ch (d : Dev) (c : CoreId) (f : Core → Core) : (d.modCore c f).ch = d.ch := rfl
@[simp] theorem Dev.modCore_nv (d : Dev) (c : CoreId) (f : Core → Core) : (d.modCore c f).nv = d.nv := rfl
@[simp] theorem Dev.modCore_hb (d : Dev) (c : CoreId) (f : Core → Core) : (d.modCore c f).hb = d.hb := rfl
@[simp] theorem Dev.modCore_au (d : Dev) (c : CoreId) (f : Core → Core) : (d.modCore c f).au = d.au := rfl
@[simp] theorem Dev.modCore_ep (d : Dev) (c : CoreId) (f : Core → Core) : (d.modCore c f).ep = d.ep := rfl
@[simp] theorem Dev.modCore_rm (d : Dev) (c : CoreId) (f : Core → Core) : (d.modCore c f).rm = d.rm := rfl
@[simp] theorem Dev.modCore_nt (d : Dev) (c : CoreId) (f : Core → Core) : (d.modCore c f).nt = d.nt := rfl
@[simp] theorem Dev.modCore_tr (d : Dev) (c : CoreId) (f : Core → Core) : (d.modCore c f).tr = d.tr := rfl
@[simp] theorem Dev.modCore_snaps (d : Dev) (c : CoreId) (f : Core → Core) : (d.modCore c f).snaps = d.snaps := rfl
@[simp] theorem Dev.modCore_sv (d : Dev) (c : CoreId) (f : Core → Core) : (d.modCore c f).sv = d.sv := rfl
@[simp] theorem Dev.modCore_bt (d : Dev) (c : CoreId) (f : Core → Core) : (d.modCore c f).bt = d.bt := rfl
@[simp] theorem Dev.modCore_db (d : Dev) (c : CoreId) (f : Core → Core) : (d.modCore c f).db = d.db := rfl
@[simp] theorem Dev.modCore_keeperSram (d : Dev) (c : CoreId) (f : Core → Core) : (d.modCore c f).keeperSram = d.keeperSram := rfl
@[simp] theorem Dev.modCore_regionSram (d : Dev) (c : CoreId) (f : Core → Core) : (d.modCore c f).regionSram = d.regionSram := rfl
@[simp] theorem Dev.modCore_evKept (d : Dev) (c : CoreId) (f : Core → Core) : (d.modCore c f).evKept = d.evKept := rfl

/-! `answer` changes only `resp`. -/

@[simp] theorem Dev.answer_dt (d : Dev) (a : Answer) : (d.answer a).dt = d.dt := rfl
@[simp] theorem Dev.answer_freeCnt (d : Dev) (a : Answer) : (d.answer a).freeCnt = d.freeCnt := rfl
@[simp] theorem Dev.answer_regs (d : Dev) (a : Answer) : (d.answer a).regs = d.regs := rfl
@[simp] theorem Dev.answer_cores (d : Dev) (a : Answer) : (d.answer a).cores = d.cores := rfl
@[simp] theorem Dev.answer_resv (d : Dev) (a : Answer) : (d.answer a).resv = d.resv := rfl
@[simp] theorem Dev.answer_sdram (d : Dev) (a : Answer) : (d.answer a).sdram = d.sdram := rfl
@[simp] theorem Dev.answer_sdramErr (d : Dev) (a : Answer) : (d.answer a).sdramErr = d.sdramErr := rfl
@[simp] theorem Dev.answer_retained (d : Dev) (a : Answer) : (d.answer a).retained = d.retained := rfl
@[simp] theorem Dev.answer_localStore (d : Dev) (a : Answer) : (d.answer a).localStore = d.localStore := rfl
@[simp] theorem Dev.answer_localErr (d : Dev) (a : Answer) : (d.answer a).localErr = d.localErr := rfl
@[simp] theorem Dev.answer_l2 (d : Dev) (a : Answer) : (d.answer a).l2 = d.l2 := rfl
@[simp] theorem Dev.answer_homes (d : Dev) (a : Answer) : (d.answer a).homes = d.homes := rfl
@[simp] theorem Dev.answer_mcCount (d : Dev) (a : Answer) : (d.answer a).mcCount = d.mcCount := rfl
@[simp] theorem Dev.answer_routes (d : Dev) (a : Answer) : (d.answer a).routes = d.routes := rfl
@[simp] theorem Dev.answer_evLevel (d : Dev) (a : Answer) : (d.answer a).evLevel = d.evLevel := rfl
@[simp] theorem Dev.answer_evRot (d : Dev) (a : Answer) : (d.answer a).evRot = d.evRot := rfl
@[simp] theorem Dev.answer_logQ (d : Dev) (a : Answer) : (d.answer a).logQ = d.logQ := rfl
@[simp] theorem Dev.answer_elog (d : Dev) (a : Answer) : (d.answer a).elog = d.elog := rfl
@[simp] theorem Dev.answer_elogSeq (d : Dev) (a : Answer) : (d.answer a).elogSeq = d.elogSeq := rfl
@[simp] theorem Dev.answer_sent (d : Dev) (a : Answer) : (d.answer a).sent = d.sent := rfl
@[simp] theorem Dev.answer_tm (d : Dev) (a : Answer) : (d.answer a).tm = d.tm := rfl
@[simp] theorem Dev.answer_pw (d : Dev) (a : Answer) : (d.answer a).pw = d.pw := rfl
@[simp] theorem Dev.answer_kp (d : Dev) (a : Answer) : (d.answer a).kp = d.kp := rfl
@[simp] theorem Dev.answer_ch (d : Dev) (a : Answer) : (d.answer a).ch = d.ch := rfl
@[simp] theorem Dev.answer_nv (d : Dev) (a : Answer) : (d.answer a).nv = d.nv := rfl
@[simp] theorem Dev.answer_hb (d : Dev) (a : Answer) : (d.answer a).hb = d.hb := rfl
@[simp] theorem Dev.answer_au (d : Dev) (a : Answer) : (d.answer a).au = d.au := rfl
@[simp] theorem Dev.answer_ep (d : Dev) (a : Answer) : (d.answer a).ep = d.ep := rfl
@[simp] theorem Dev.answer_rm (d : Dev) (a : Answer) : (d.answer a).rm = d.rm := rfl
@[simp] theorem Dev.answer_nt (d : Dev) (a : Answer) : (d.answer a).nt = d.nt := rfl
@[simp] theorem Dev.answer_tr (d : Dev) (a : Answer) : (d.answer a).tr = d.tr := rfl
@[simp] theorem Dev.answer_snaps (d : Dev) (a : Answer) : (d.answer a).snaps = d.snaps := rfl
@[simp] theorem Dev.answer_sv (d : Dev) (a : Answer) : (d.answer a).sv = d.sv := rfl
@[simp] theorem Dev.answer_bt (d : Dev) (a : Answer) : (d.answer a).bt = d.bt := rfl
@[simp] theorem Dev.answer_db (d : Dev) (a : Answer) : (d.answer a).db = d.db := rfl
@[simp] theorem Dev.answer_keeperSram (d : Dev) (a : Answer) : (d.answer a).keeperSram = d.keeperSram := rfl
@[simp] theorem Dev.answer_regionSram (d : Dev) (a : Answer) : (d.answer a).regionSram = d.regionSram := rfl
@[simp] theorem Dev.answer_evKept (d : Dev) (a : Answer) : (d.answer a).evKept = d.evKept := rfl

/-! `setLevel` changes only `evLevel`. -/

@[simp] theorem Dev.setLevel_dt (d : Dev) (n : Nat) (on : Bool) : (d.setLevel n on).dt = d.dt := rfl
@[simp] theorem Dev.setLevel_freeCnt (d : Dev) (n : Nat) (on : Bool) : (d.setLevel n on).freeCnt = d.freeCnt := rfl
@[simp] theorem Dev.setLevel_resp (d : Dev) (n : Nat) (on : Bool) : (d.setLevel n on).resp = d.resp := rfl
@[simp] theorem Dev.setLevel_regs (d : Dev) (n : Nat) (on : Bool) : (d.setLevel n on).regs = d.regs := rfl
@[simp] theorem Dev.setLevel_cores (d : Dev) (n : Nat) (on : Bool) : (d.setLevel n on).cores = d.cores := rfl
@[simp] theorem Dev.setLevel_resv (d : Dev) (n : Nat) (on : Bool) : (d.setLevel n on).resv = d.resv := rfl
@[simp] theorem Dev.setLevel_sdram (d : Dev) (n : Nat) (on : Bool) : (d.setLevel n on).sdram = d.sdram := rfl
@[simp] theorem Dev.setLevel_sdramErr (d : Dev) (n : Nat) (on : Bool) : (d.setLevel n on).sdramErr = d.sdramErr := rfl
@[simp] theorem Dev.setLevel_retained (d : Dev) (n : Nat) (on : Bool) : (d.setLevel n on).retained = d.retained := rfl
@[simp] theorem Dev.setLevel_localStore (d : Dev) (n : Nat) (on : Bool) : (d.setLevel n on).localStore = d.localStore := rfl
@[simp] theorem Dev.setLevel_localErr (d : Dev) (n : Nat) (on : Bool) : (d.setLevel n on).localErr = d.localErr := rfl
@[simp] theorem Dev.setLevel_l2 (d : Dev) (n : Nat) (on : Bool) : (d.setLevel n on).l2 = d.l2 := rfl
@[simp] theorem Dev.setLevel_homes (d : Dev) (n : Nat) (on : Bool) : (d.setLevel n on).homes = d.homes := rfl
@[simp] theorem Dev.setLevel_mcCount (d : Dev) (n : Nat) (on : Bool) : (d.setLevel n on).mcCount = d.mcCount := rfl
@[simp] theorem Dev.setLevel_routes (d : Dev) (n : Nat) (on : Bool) : (d.setLevel n on).routes = d.routes := rfl
@[simp] theorem Dev.setLevel_evRot (d : Dev) (n : Nat) (on : Bool) : (d.setLevel n on).evRot = d.evRot := rfl
@[simp] theorem Dev.setLevel_logQ (d : Dev) (n : Nat) (on : Bool) : (d.setLevel n on).logQ = d.logQ := rfl
@[simp] theorem Dev.setLevel_elog (d : Dev) (n : Nat) (on : Bool) : (d.setLevel n on).elog = d.elog := rfl
@[simp] theorem Dev.setLevel_elogSeq (d : Dev) (n : Nat) (on : Bool) : (d.setLevel n on).elogSeq = d.elogSeq := rfl
@[simp] theorem Dev.setLevel_sent (d : Dev) (n : Nat) (on : Bool) : (d.setLevel n on).sent = d.sent := rfl
@[simp] theorem Dev.setLevel_tm (d : Dev) (n : Nat) (on : Bool) : (d.setLevel n on).tm = d.tm := rfl
@[simp] theorem Dev.setLevel_pw (d : Dev) (n : Nat) (on : Bool) : (d.setLevel n on).pw = d.pw := rfl
@[simp] theorem Dev.setLevel_kp (d : Dev) (n : Nat) (on : Bool) : (d.setLevel n on).kp = d.kp := rfl
@[simp] theorem Dev.setLevel_ch (d : Dev) (n : Nat) (on : Bool) : (d.setLevel n on).ch = d.ch := rfl
@[simp] theorem Dev.setLevel_nv (d : Dev) (n : Nat) (on : Bool) : (d.setLevel n on).nv = d.nv := rfl
@[simp] theorem Dev.setLevel_hb (d : Dev) (n : Nat) (on : Bool) : (d.setLevel n on).hb = d.hb := rfl
@[simp] theorem Dev.setLevel_au (d : Dev) (n : Nat) (on : Bool) : (d.setLevel n on).au = d.au := rfl
@[simp] theorem Dev.setLevel_ep (d : Dev) (n : Nat) (on : Bool) : (d.setLevel n on).ep = d.ep := rfl
@[simp] theorem Dev.setLevel_rm (d : Dev) (n : Nat) (on : Bool) : (d.setLevel n on).rm = d.rm := rfl
@[simp] theorem Dev.setLevel_nt (d : Dev) (n : Nat) (on : Bool) : (d.setLevel n on).nt = d.nt := rfl
@[simp] theorem Dev.setLevel_tr (d : Dev) (n : Nat) (on : Bool) : (d.setLevel n on).tr = d.tr := rfl
@[simp] theorem Dev.setLevel_snaps (d : Dev) (n : Nat) (on : Bool) : (d.setLevel n on).snaps = d.snaps := rfl
@[simp] theorem Dev.setLevel_sv (d : Dev) (n : Nat) (on : Bool) : (d.setLevel n on).sv = d.sv := rfl
@[simp] theorem Dev.setLevel_bt (d : Dev) (n : Nat) (on : Bool) : (d.setLevel n on).bt = d.bt := rfl
@[simp] theorem Dev.setLevel_db (d : Dev) (n : Nat) (on : Bool) : (d.setLevel n on).db = d.db := rfl
@[simp] theorem Dev.setLevel_keeperSram (d : Dev) (n : Nat) (on : Bool) : (d.setLevel n on).keeperSram = d.keeperSram := rfl
@[simp] theorem Dev.setLevel_regionSram (d : Dev) (n : Nat) (on : Bool) : (d.setLevel n on).regionSram = d.regionSram := rfl
@[simp] theorem Dev.setLevel_evKept (d : Dev) (n : Nat) (on : Bool) : (d.setLevel n on).evKept = d.evKept := rfl

/-! Drawing a free value changes only the counter. -/

@[simp] theorem Dev.draw_dt (d : Dev) : (d.draw).2.dt = d.dt := rfl
@[simp] theorem Dev.draw_resp (d : Dev) : (d.draw).2.resp = d.resp := rfl
@[simp] theorem Dev.draw_regs (d : Dev) : (d.draw).2.regs = d.regs := rfl
@[simp] theorem Dev.draw_cores (d : Dev) : (d.draw).2.cores = d.cores := rfl
@[simp] theorem Dev.draw_resv (d : Dev) : (d.draw).2.resv = d.resv := rfl
@[simp] theorem Dev.draw_sdram (d : Dev) : (d.draw).2.sdram = d.sdram := rfl
@[simp] theorem Dev.draw_sdramErr (d : Dev) : (d.draw).2.sdramErr = d.sdramErr := rfl
@[simp] theorem Dev.draw_retained (d : Dev) : (d.draw).2.retained = d.retained := rfl
@[simp] theorem Dev.draw_localStore (d : Dev) : (d.draw).2.localStore = d.localStore := rfl
@[simp] theorem Dev.draw_localErr (d : Dev) : (d.draw).2.localErr = d.localErr := rfl
@[simp] theorem Dev.draw_l2 (d : Dev) : (d.draw).2.l2 = d.l2 := rfl
@[simp] theorem Dev.draw_homes (d : Dev) : (d.draw).2.homes = d.homes := rfl
@[simp] theorem Dev.draw_mcCount (d : Dev) : (d.draw).2.mcCount = d.mcCount := rfl
@[simp] theorem Dev.draw_routes (d : Dev) : (d.draw).2.routes = d.routes := rfl
@[simp] theorem Dev.draw_evLevel (d : Dev) : (d.draw).2.evLevel = d.evLevel := rfl
@[simp] theorem Dev.draw_evRot (d : Dev) : (d.draw).2.evRot = d.evRot := rfl
@[simp] theorem Dev.draw_logQ (d : Dev) : (d.draw).2.logQ = d.logQ := rfl
@[simp] theorem Dev.draw_elog (d : Dev) : (d.draw).2.elog = d.elog := rfl
@[simp] theorem Dev.draw_elogSeq (d : Dev) : (d.draw).2.elogSeq = d.elogSeq := rfl
@[simp] theorem Dev.draw_sent (d : Dev) : (d.draw).2.sent = d.sent := rfl
@[simp] theorem Dev.draw_tm (d : Dev) : (d.draw).2.tm = d.tm := rfl
@[simp] theorem Dev.draw_pw (d : Dev) : (d.draw).2.pw = d.pw := rfl
@[simp] theorem Dev.draw_kp (d : Dev) : (d.draw).2.kp = d.kp := rfl
@[simp] theorem Dev.draw_ch (d : Dev) : (d.draw).2.ch = d.ch := rfl
@[simp] theorem Dev.draw_nv (d : Dev) : (d.draw).2.nv = d.nv := rfl
@[simp] theorem Dev.draw_hb (d : Dev) : (d.draw).2.hb = d.hb := rfl
@[simp] theorem Dev.draw_au (d : Dev) : (d.draw).2.au = d.au := rfl
@[simp] theorem Dev.draw_ep (d : Dev) : (d.draw).2.ep = d.ep := rfl
@[simp] theorem Dev.draw_rm (d : Dev) : (d.draw).2.rm = d.rm := rfl
@[simp] theorem Dev.draw_nt (d : Dev) : (d.draw).2.nt = d.nt := rfl
@[simp] theorem Dev.draw_tr (d : Dev) : (d.draw).2.tr = d.tr := rfl
@[simp] theorem Dev.draw_snaps (d : Dev) : (d.draw).2.snaps = d.snaps := rfl
@[simp] theorem Dev.draw_sv (d : Dev) : (d.draw).2.sv = d.sv := rfl
@[simp] theorem Dev.draw_bt (d : Dev) : (d.draw).2.bt = d.bt := rfl
@[simp] theorem Dev.draw_db (d : Dev) : (d.draw).2.db = d.db := rfl
@[simp] theorem Dev.draw_keeperSram (d : Dev) : (d.draw).2.keeperSram = d.keeperSram := rfl
@[simp] theorem Dev.draw_regionSram (d : Dev) : (d.draw).2.regionSram = d.regionSram := rfl
@[simp] theorem Dev.draw_evKept (d : Dev) : (d.draw).2.evKept = d.evKept := rfl
@[simp] theorem Dev.draw_freeCnt (d : Dev) : (d.draw).2.freeCnt = d.freeCnt + 1 := rfl
@[simp] theorem Dev.draw_fst (d : Dev) : (d.draw).1 = Config.free d.freeCnt := rfl


end Sys2Proof.Machine
end

