-- ==== Sys2Proof/Laws/Regs.lean ====
section
/-!
SUPPORT. Registers of units, cores and the registers of a core: what is read after a write.
-/
namespace Sys2Proof.Machine

/-! Unit registers. -/

/-- A register after a write of a register. -/
theorem Dev.reg_setReg (d : Dev) (u o : Nat) (v : Word) (u' o' : Nat) :
    (d.setReg u o v).reg u' o' = if regKey u' o' = regKey u o then v else d.reg u' o' := by
  simp only [Dev.reg, Dev.setReg, SMap.get_set]

/-- A register reads as what was written to it. -/
@[simp] theorem Dev.reg_setReg_same (d : Dev) (u o : Nat) (v : Word) : (d.setReg u o v).reg u o = v := by
  simp [Dev.reg_setReg]

/-- A register with another key is untouched. -/
theorem Dev.reg_setReg_other (d : Dev) (u o : Nat) (v : Word) (u' o' : Nat) (h : regKey u' o' ≠ regKey u o) :
    (d.setReg u o v).reg u' o' = d.reg u' o' := by simp [Dev.reg_setReg, h]

/-- A register after a write of a field. -/
theorem Dev.reg_setFld (d : Dev) (u o lo w x u' o' : Nat) :
    (d.setFld u o lo w x).reg u' o' = if regKey u' o' = regKey u o then setBits (d.reg u o) lo w x else d.reg u' o' := by
  simp only [Dev.setFld, Dev.reg_setReg]

/-- A register with another key is untouched by a write of a field. -/
theorem Dev.reg_setFld_other (d : Dev) (u o lo w x u' o' : Nat) (h : regKey u' o' ≠ regKey u o) :
    (d.setFld u o lo w x).reg u' o' = d.reg u' o' := by simp [Dev.reg_setFld, h]

/-- A field reads as what was written to it. -/
theorem Dev.fld_setFld (d : Dev) (u o lo w x : Nat) (h : lo + w ≤ 64) : (d.setFld u o lo w x).fld u o lo w = x % 2 ^ w := by
  simp [Dev.fld, Dev.reg_setFld, bits_setBits _ _ _ _ h]

/-- A field apart from the one written is untouched. -/
theorem Dev.fld_setFld_apart (d : Dev) (u o lo w x lo' w' : Nat) (h : lo' + w' ≤ lo ∨ lo + w ≤ lo') :
    (d.setFld u o lo w x).fld u o lo' w' = d.fld u o lo' w' := by
  simp [Dev.fld, Dev.reg_setFld, bits_setBits_other _ _ _ _ _ _ h]

/-- A field of another register is untouched. -/
theorem Dev.fld_setFld_other (d : Dev) (u o lo w x u' o' lo' w' : Nat) (h : regKey u' o' ≠ regKey u o) :
    (d.setFld u o lo w x).fld u' o' lo' w' = d.fld u' o' lo' w' := by
  simp [Dev.fld, Dev.reg_setFld_other _ _ _ _ _ _ _ _ h]

/-- A field of another register is untouched by a write of a whole register. -/
theorem Dev.fld_setReg_other (d : Dev) (u o : Nat) (v : Word) (u' o' lo' w' : Nat) (h : regKey u' o' ≠ regKey u o) :
    (d.setReg u o v).fld u' o' lo' w' = d.fld u' o' lo' w' := by
  simp [Dev.fld, Dev.reg_setReg_other _ _ _ _ _ _ h]

/-- A bit reads as what was written to it. -/
theorem Dev.flag_setFlag (d : Dev) (u o i : Nat) (b : Bool) (h : i < 64) : (d.setFlag u o i b).flag u o i = b := by
  have := bit_setBit (d.reg u o) i b h
  simpa [Dev.flag, Dev.setFlag, Dev.reg_setFld, setBit] using this

/-- A bit of another register is untouched. -/
theorem Dev.flag_setFld_other (d : Dev) (u o lo w x u' o' i : Nat) (h : regKey u' o' ≠ regKey u o) :
    (d.setFld u o lo w x).flag u' o' i = d.flag u' o' i := by
  simp [Dev.flag, Dev.reg_setFld_other _ _ _ _ _ _ _ _ h]

/-- A bit outside the field written is untouched. -/
theorem Dev.flag_setFld_apart (d : Dev) (u o lo w x i : Nat) (h : i < lo ∨ lo + w ≤ i) :
    (d.setFld u o lo w x).flag u o i = d.flag u o i := by
  simp only [Dev.flag, Dev.reg_setFld, if_true]
  rw [bit_setBits, if_neg (by omega)]

/-- A bit of another register is untouched by a write of a whole register. -/
theorem Dev.flag_setReg_other (d : Dev) (u o : Nat) (v : Word) (u' o' i : Nat) (h : regKey u' o' ≠ regKey u o) :
    (d.setReg u o v).flag u' o' i = d.flag u' o' i := by
  simp [Dev.flag, Dev.reg_setReg_other _ _ _ _ _ _ h]

/-- The registers keep their canonical form under a write. -/
theorem Dev.setReg_wf (d : Dev) (u o : Nat) (v : Word) (h : SMap.wf regReset d.regs = true) :
    SMap.wf regReset (d.setReg u o v).regs = true := SMap.wf_set _ _ _ _ h

/-! Cores. -/

/-- A core after a core is replaced. -/
theorem Dev.core_setCore (d : Dev) (c x : CoreId) (k : Core) : (d.setCore c k).core x = if x = c then k else d.core x := by
  unfold Dev.core Dev.setCore
  by_cases h : x = c
  · subst h; simp
  · have h1 : c.val ≠ x.val := fun e => h (Fin.ext e.symm)
    simp [h, Vector.getElem_set_ne _ _ h1]

/-- A core reads as what replaced it. -/
@[simp] theorem Dev.core_setCore_same (d : Dev) (c : CoreId) (k : Core) : (d.setCore c k).core c = k := by
  simp [Dev.core_setCore]

/-- Another core is untouched. -/
theorem Dev.core_setCore_other (d : Dev) (c x : CoreId) (k : Core) (h : x ≠ c) : (d.setCore c k).core x = d.core x := by
  simp [Dev.core_setCore, h]

/-- A core after a change of it. -/
@[simp] theorem Dev.core_modCore_same (d : Dev) (c : CoreId) (f : Core → Core) : (d.modCore c f).core c = f (d.core c) := by
  simp [Dev.modCore]

/-- Another core is untouched by a change of a core. -/
theorem Dev.core_modCore_other (d : Dev) (c x : CoreId) (f : Core → Core) (h : x ≠ c) : (d.modCore c f).core x = d.core x := by
  simp [Dev.modCore, Dev.core_setCore_other _ _ _ _ h]

/-- Every update that leaves the cores alone leaves each core alone. -/
theorem Dev.core_of_cores {d d' : Dev} (h : d'.cores = d.cores) (c : CoreId) : d'.core c = d.core c := by
  simp [Dev.core, h]

@[simp] theorem Dev.core_setReg (d : Dev) (u o : Nat) (v : Word) (c : CoreId) : (d.setReg u o v).core c = d.core c := rfl
@[simp] theorem Dev.core_setFld (d : Dev) (u o lo w x : Nat) (c : CoreId) : (d.setFld u o lo w x).core c = d.core c := rfl
@[simp] theorem Dev.core_setFlag (d : Dev) (u o i : Nat) (b : Bool) (c : CoreId) : (d.setFlag u o i b).core c = d.core c := rfl
@[simp] theorem Dev.core_answer (d : Dev) (a : Answer) (c : CoreId) : (d.answer a).core c = d.core c := rfl
@[simp] theorem Dev.core_draw (d : Dev) (c : CoreId) : (d.draw).2.core c = d.core c := rfl
@[simp] theorem Dev.reg_modCore (d : Dev) (c : CoreId) (f : Core → Core) (u o : Nat) : (d.modCore c f).reg u o = d.reg u o := rfl
@[simp] theorem Dev.fld_modCore (d : Dev) (c : CoreId) (f : Core → Core) (u o lo w : Nat) :
    (d.modCore c f).fld u o lo w = d.fld u o lo w := rfl
@[simp] theorem Dev.flag_modCore (d : Dev) (c : CoreId) (f : Core → Core) (u o i : Nat) :
    (d.modCore c f).flag u o i = d.flag u o i := rfl
@[simp] theorem Dev.reg_answer (d : Dev) (a : Answer) (u o : Nat) : (d.answer a).reg u o = d.reg u o := rfl
@[simp] theorem Dev.fld_answer (d : Dev) (a : Answer) (u o lo w : Nat) : (d.answer a).fld u o lo w = d.fld u o lo w := rfl
@[simp] theorem Dev.flag_answer (d : Dev) (a : Answer) (u o i : Nat) : (d.answer a).flag u o i = d.flag u o i := rfl
@[simp] theorem Dev.resp_answer (d : Dev) (a : Answer) : (d.answer a).resp = a := rfl

/-! Registers of a core. -/

/-- w0 reads as 0 (R97). -/
@[simp] theorem Core.rd_zero (k : Core) : k.rd 0 = 0 := rfl

/-- A general register after a write of one: w0 discards it (R97). -/
theorem Core.rd_wr (k : Core) (r x : RIx) (v : Word) : (k.wr r v).rd x = if x = r ∧ r ≠ 0 then v else k.rd x := by
  unfold Core.rd Core.wr
  by_cases hr : r.val = 0
  · have h : r = 0 := Fin.ext hr
    simp [h]
  · have h : r ≠ 0 := fun e => hr (by simp [e])
    by_cases hx : x = r
    · subst hx; simp [hr, h]
    · have h1 : r.val ≠ x.val := fun e => hx (Fin.ext e.symm)
      simp [hr, hx, Vector.getElem_set_ne _ _ h1]

/-- A vector register after a write of one (R165). -/
theorem Core.vrd_vwr (k : Core) (r x : RIx) (v : BitVec 512) : (k.vwr r v).vrd x = if x = r then v else k.vrd x := by
  unfold Core.vrd Core.vwr
  by_cases hx : x = r
  · subst hx; simp
  · have h1 : r.val ≠ x.val := fun e => hx (Fin.ext e.symm)
    simp [hx, Vector.getElem_set_ne _ _ h1]

/-- An accumulator after a write of one (R166). -/
theorem Core.qrd_qwr (k : Core) (r x : QIx) (v : BitVec 1536) : (k.qwr r v).qrd x = if x = r then v else k.qrd x := by
  unfold Core.qrd Core.qwr
  by_cases hx : x = r
  · subst hx; simp
  · have h1 : r.val ≠ x.val := fun e => hx (Fin.ext e.symm)
    simp [hx, Vector.getElem_set_ne _ _ h1]

@[simp] theorem Core.wr_pc (k : Core) (r : RIx) (v : Word) : (k.wr r v).pc = k.pc := by unfold Core.wr; split <;> rfl
@[simp] theorem Core.wr_astat (k : Core) (r : RIx) (v : Word) : (k.wr r v).astat = k.astat := by unfold Core.wr; split <;> rfl
@[simp] theorem Core.wr_vstat (k : Core) (r : RIx) (v : Word) : (k.wr r v).vstat = k.vstat := by unfold Core.wr; split <;> rfl
@[simp] theorem Core.wr_v (k : Core) (r : RIx) (v : Word) : (k.wr r v).v = k.v := by unfold Core.wr; split <;> rfl
@[simp] theorem Core.wr_q (k : Core) (r : RIx) (v : Word) : (k.wr r v).q = k.q := by unfold Core.wr; split <;> rfl
@[simp] theorem Core.wr_sStatus (k : Core) (r : RIx) (v : Word) : (k.wr r v).sStatus = k.sStatus := by unfold Core.wr; split <;> rfl
@[simp] theorem Core.wr_staged (k : Core) (r : RIx) (v : Word) : (k.wr r v).staged = k.staged := by unfold Core.wr; split <;> rfl

end Sys2Proof.Machine
end

