-- ==== Sys2Proof/Laws/Retire.lean ====
section
/-!
SUPPORT. What the counters and the retirement of an instruction can do (R117, R135, R154, R161): in a core that no debugger and no
trace watches, they change counts, pending staged writes, the return stack, the reservation and pending bits of event sources,
beside what the instruction asks for.
-/
namespace Sys2Proof.Machine

/-- A core without its counts, its pending staged writes and its return stack. -/
def Core.bare (k : Core) : Core :=
  { k with stepCnt := 0, retCnt := 0, wpfCnt := 0, pmc := Vector.replicate 8 0, pmcSel := Vector.replicate 8 0, staged := [], ras := [] }

/-- The device without unit registers, reservations, the free-value counter and what `Core.bare` leaves out of core `c`. -/
def Dev.bare (d : Dev) (c : CoreId) : Dev :=
  { d with freeCnt := 0, regs := [], resv := [], db := { d.db with skipCmp := [] }, cores := d.cores.set c (d.core c).bare c.2 }

/-- `t` differs from `d` only in what `Dev.bare` leaves out, and in unit registers from the event controllers on. -/
structure Dev.Light (c : CoreId) (d t : Dev) : Prop where
  bare : t.bare c = d.bare c
  unit : ∀ u o, u < evcUid 0 → o < 65536 → t.reg u o = d.reg u o

theorem Dev.Light.refl (c : CoreId) (d : Dev) : Dev.Light c d d := ⟨rfl, fun _ _ _ _ => rfl⟩

theorem Dev.Light.trans {c : CoreId} {d e t : Dev} (h1 : Dev.Light c d e) (h2 : Dev.Light c e t) : Dev.Light c d t :=
  ⟨h2.bare.trans h1.bare, fun u o hu ho => (h2.unit u o hu ho).trans (h1.unit u o hu ho)⟩

/-- A loop of light steps is light. -/
theorem Dev.Light.forAll {α : Type} {c : CoreId} (xs : List α) (f : α → Dev → Dev) (h : ∀ x d, Dev.Light c d (f x d)) (d : Dev) :
    Dev.Light c d (forAll xs f d) := by
  unfold Machine.forAll
  induction xs generalizing d with
  | nil => exact Dev.Light.refl c d
  | cons x xs ih => exact (h x d).trans (ih (f x d))

theorem Dev.Light.forUpto {c : CoreId} (n : Nat) (f : Nat → Dev → Dev) (h : ∀ x d, Dev.Light c d (f x d)) (d : Dev) :
    Dev.Light c d (forUpto n f d) := Dev.Light.forAll (List.range n) f h d

/-- A change of a core that `Core.bare` leaves out is light. -/
theorem Dev.Light.modCore (c : CoreId) (d : Dev) (f : Core → Core) (h : ∀ k, (f k).bare = k.bare) : Dev.Light c d (d.modCore c f) := by
  refine ⟨?_, fun _ _ _ _ => rfl⟩
  have hc : (d.modCore c f).core c = f (d.core c) := Dev.core_modCore_same d c f
  unfold Dev.bare
  rw [hc, h]
  simp [Dev.modCore, Dev.setCore]

theorem Dev.Light.draw (c : CoreId) (d : Dev) : Dev.Light c d (d.draw).2 := ⟨rfl, fun _ _ _ _ => rfl⟩

/-- A unit below the event controllers has its own registers. -/
theorem regKey_below (u o : Nat) (h : u < evcUid 0) : regKey u o = u * 65536 + o := by
  have h0 : u < 36768 := h
  unfold regKey
  rw [if_neg (by rintro ⟨rfl, _⟩; revert h; decide), if_neg (by rintro ⟨rfl, _⟩; revert h; decide),
    if_neg (by rintro ⟨rfl, _⟩; revert h; decide)]

/-- The pending bits of event sources lie behind every unit below the event controllers. -/
theorem regKey_source (n : Nat) : evcUid 0 * 65536 ≤ regKey (evcUid 0) (offEvSrc n) := by
  unfold regKey
  rw [if_neg (by rintro ⟨h, _⟩; revert h; decide), if_neg (by rintro ⟨h, _⟩; revert h; decide),
    if_neg (by rintro ⟨h, _⟩; revert h; decide)]
  omega

theorem Dev.Light.raiseEdge (c : CoreId) (d : Dev) (n : Nat) : Dev.Light c d (d.raiseEdge n) := by
  unfold Dev.raiseEdge
  split
  · exact Dev.Light.refl c d
  · refine ⟨rfl, fun u o hu ho => ?_⟩
    refine Dev.reg_setFld_other _ _ _ _ _ _ _ _ ?_
    have h1 := regKey_source n
    rw [regKey_below u o hu]
    omega

/-- Either of two light steps is light. -/
theorem Dev.Light.ite {c : CoreId} {d a b : Dev} {p : Prop} [Decidable p] (ha : Dev.Light c d a) (hb : Dev.Light c d b) :
    Dev.Light c d (if p then a else b) := by split <;> assumption

/-- Counting an event is light (R162). -/
theorem Dev.countEvt_light (d : Dev) (c : CoreId) (e n : Nat) : Dev.Light c d (d.countEvt c e n) := by
  unfold Dev.countEvt
  refine Dev.Light.ite (Dev.Light.refl c d) ?_
  refine Dev.Light.forUpto _ _ (fun i d => ?_) d
  refine Dev.Light.ite ?_ (Dev.Light.refl c d)
  refine Dev.Light.ite (Dev.Light.trans (Dev.Light.modCore c d _ ?_) (Dev.Light.raiseEdge c _ _)) (Dev.Light.modCore c d _ ?_)
  · intro k; rfl
  · intro k; rfl

/-- Counting steps is light (R161). -/
theorem Dev.countSteps_light (d : Dev) (c : CoreId) (steps retired : Nat) : Dev.Light c d (d.countSteps c steps retired) := by
  unfold Dev.countSteps
  refine Dev.Light.ite (Dev.Light.refl c d) ?_
  refine Dev.Light.trans (Dev.Light.trans (Dev.Light.modCore c d _ ?_) (Dev.countEvt_light _ c _ _)) (Dev.countEvt_light _ c _ _)
  intro k; rfl

theorem Dev.countOpen_light (d : Dev) (c : CoreId) : Dev.Light c d (d.countOpen c) := by
  simp only [Dev.countOpen]
  split
  · exact (Dev.Light.draw c d).trans (Dev.countSteps_light _ c _ _)
  · refine Dev.Light.trans (e := (((d.draw).2).draw).2) ((Dev.Light.draw c d).trans (Dev.Light.draw c _)) ?_
    refine Dev.Light.trans ?_ (Dev.Light.forAll _ _ (fun e d => (Dev.Light.draw c d).trans (Dev.countEvt_light _ c _ _)) _)
    refine Dev.Light.trans ?_ (Dev.countSteps_light _ c _ _)
    split
    · exact Dev.Light.refl c _
    · exact Dev.Light.modCore c _ _ (fun _ => rfl)

theorem Dev.countRetire_light (d : Dev) (c : CoreId) (steps : Nat) (far : Bool) : Dev.Light c d (d.countRetire c steps far) := by
  simp only [Dev.countRetire]
  split
  · split
    · exact (Dev.countSteps_light d c _ _).trans (Dev.countOpen_light _ c)
    · exact Dev.countSteps_light d c _ _
  · exact (Dev.countSteps_light d c _ _).trans (Dev.countOpen_light _ c)

theorem Dev.loseOwn_light (d : Dev) (c : CoreId) : Dev.Light c d (d.loseOwn c) := by
  simp only [Dev.loseOwn]
  split
  · exact (Dev.countEvt_light d c _ _).trans ⟨rfl, fun _ _ _ _ => rfl⟩
  · exact Dev.Light.refl c d

theorem Dev.countDown_light (d : Dev) (c : CoreId) : Dev.Light c d (d.countDown c) := by
  simp only [Dev.countDown]
  have h := Dev.Light.modCore c d (fun k => { k with staged := k.staged.map (fun s => { s with left := s.left - 1 }) }) (fun _ => rfl)
  split
  · exact h
  · split
    · exact h.trans (Dev.loseOwn_light _ c)
    · exact h.trans ⟨rfl, fun _ _ _ _ => rfl⟩

theorem Dev.predict_light (d : Dev) (c : CoreId) (pc : Word) (kind : Nat) (taken : Bool) : Dev.Light c d (d.predict c pc kind taken) := by
  simp only [Dev.predict]
  split
  · exact Dev.Light.refl c d
  · split
    · refine (Dev.Light.draw c d).trans ?_
      split
      · exact (Dev.countEvt_light _ c _ _).trans (Dev.Light.modCore c _ _ (fun _ => rfl))
      · exact Dev.Light.modCore c _ _ (fun _ => rfl)
    · split
      · exact Dev.countEvt_light d c _ _
      · exact Dev.Light.refl c d

/-! Counting leaves the reservations alone. -/

/-- A loop keeps what each of its steps keeps. -/
theorem forUpto_keeps {β : Type} (g : Dev → β) (n : Nat) (f : Nat → Dev → Dev) (h : ∀ i d, g (f i d) = g d) (d : Dev) :
    g (forUpto n f d) = g d := by
  unfold Machine.forUpto
  induction List.range n generalizing d with
  | nil => rfl
  | cons x xs ih => exact (ih (f x d)).trans (h x d)

theorem Dev.raiseEdge_resv (d : Dev) (n : Nat) : (d.raiseEdge n).resv = d.resv := by
  unfold Dev.raiseEdge; split <;> rfl

theorem Dev.countEvt_resv (d : Dev) (c : CoreId) (e n : Nat) : (d.countEvt c e n).resv = d.resv := by
  simp only [Dev.countEvt]
  split
  · rfl
  · refine forUpto_keeps (fun x => x.resv) _ _ (fun i d => ?_) d
    rw [apply_ite Dev.resv, apply_ite Dev.resv, Dev.raiseEdge_resv, Dev.modCore_resv]
    simp only [ite_self]

theorem Dev.countSteps_resv (d : Dev) (c : CoreId) (n m : Nat) : (d.countSteps c n m).resv = d.resv := by
  simp only [Dev.countSteps]
  split
  · rfl
  · rw [Dev.countEvt_resv, Dev.countEvt_resv, Dev.modCore_resv]

/-- A reservation that is lost is gone. -/
theorem Dev.loseOwn_resv (d : Dev) (c : CoreId) : SMap.get (fun _ => none) (d.loseOwn c).resv c = none := by
  simp only [Dev.loseOwn]
  split
  · simp only [Dev.dropResv, SMap.get_erase, if_true]
  · next h => exact h

/-! What lightness keeps. -/

theorem Dev.Light.core {c : CoreId} {d t : Dev} (h : Dev.Light c d t) : (t.core c).bare = (d.core c).bare := by
  have h1 := congrArg (fun (x : Dev) => x.core c) h.bare
  simpa [Dev.core, Dev.bare] using h1

theorem Dev.Light.other {c : CoreId} {d t : Dev} (h : Dev.Light c d t) (x : CoreId) (hx : x ≠ c) : t.core x = d.core x := by
  have h1 := congrArg (fun (y : Dev) => y.core x) h.bare
  have h2 : c.val ≠ x.val := fun e => hx (Fin.ext e.symm)
  simpa [Dev.core, Dev.bare, Vector.getElem_set_ne _ _ h2] using h1

/-- Whatever `Dev.bare` keeps of the device is kept. -/
theorem Dev.Light.get {c : CoreId} {d t : Dev} {β : Type} (h : Dev.Light c d t) (f : Dev → β) (hf : ∀ d : Dev, f (d.bare c) = f d) :
    f t = f d := by rw [← hf t, ← hf d, h.bare]

/-- Whatever `Core.bare` keeps of the core is kept. -/
theorem Dev.Light.getCore {c : CoreId} {d t : Dev} {β : Type} (h : Dev.Light c d t) (f : Core → β) (hf : ∀ k : Core, f k.bare = f k) :
    f (t.core c) = f (d.core c) := by rw [← hf (t.core c), ← hf (d.core c), h.core]

theorem Dev.Light.mem {c : CoreId} {d t : Dev} (h : Dev.Light c d t) : d.SameMem t where
  sdram := h.get (fun x => x.sdram) (fun _ => rfl)
  sdramErr := h.get (fun x => x.sdramErr) (fun _ => rfl)
  retained := h.get (fun x => x.retained) (fun _ => rfl)
  localStore := h.get (fun x => x.localStore) (fun _ => rfl)
  localErr := h.get (fun x => x.localErr) (fun _ => rfl)
  l2 := h.get (fun x => x.l2) (fun _ => rfl)
  homes := h.get (fun x => x.homes) (fun _ => rfl)
  keeperSram := h.get (fun x => x.keeperSram) (fun _ => rfl)
  regionSram := h.get (fun x => x.regionSram) (fun _ => rfl)

theorem Dev.Light.sys {c : CoreId} {d t : Dev} (h : Dev.Light c d t) : (d.core c).SameSys (t.core c) where
  ctrCfg := h.getCore (fun x => x.ctrCfg) (fun _ => rfl)
  sStatus := h.getCore (fun x => x.sStatus) (fun _ => rfl)
  sEpc := h.getCore (fun x => x.sEpc) (fun _ => rfl)
  sCause := h.getCore (fun x => x.sCause) (fun _ => rfl)
  sFaddr := h.getCore (fun x => x.sFaddr) (fun _ => rfl)
  sEvbase := h.getCore (fun x => x.sEvbase) (fun _ => rfl)
  sScratch := h.getCore (fun x => x.sScratch) (fun _ => rfl)
  sTbase := h.getCore (fun x => x.sTbase) (fun _ => rfl)
  sAsid := h.getCore (fun x => x.sAsid) (fun _ => rfl)
  sCorectl := h.getCore (fun x => x.sCorectl) (fun _ => rfl)

theorem Dev.Light.flag {c : CoreId} {d t : Dev} (h : Dev.Light c d t) (u o i : Nat) (hu : u < evcUid 0) (ho : o < 65536) :
    t.flag u o i = d.flag u o i := by simp only [Dev.flag, h.unit u o hu ho]

theorem coreUid_lt (c : CoreId) : coreUid c < evcUid 0 := by
  have h := c.isLt
  simp only [coreUid, mkUid, evcUid]
  omega

/-- Lightness keeps a core quiet. -/
theorem Dev.Light.quiet {c : CoreId} {d t : Dev} (h : Dev.Light c d t) (hq : d.Quiet c) : t.Quiet c where
  step := by
    have h2 : t.db.stepping = d.db.stepping := h.get (fun x => x.db.stepping) (fun _ => rfl)
    rw [h2]; exact hq.step
  cmp := fun n hn => by
    rw [h.flag _ _ _ (coreUid_lt c) (by omega)]; exact hq.cmp n hn
  trace := by rw [h.flag _ _ _ (coreUid_lt c) (by omega)]; exact hq.trace
  sync := by
    have h2 : (t.core c).afterSync = (d.core c).afterSync := h.getCore (fun x => x.afterSync) (fun _ => rfl)
    rw [h2]; exact hq.sync

/-! Retirement in a quiet core. -/

theorem Dev.Quiet.traceEmit {d : Dev} {c : CoreId} (h : d.Quiet c) (ty p : Nat) (q : Option Nat) : d.traceEmit (coreUid c) ty p q = d := by
  have h1 : bit (d.trcSrc (coreUid c)) 0 = false := h.trace
  simp [Dev.traceEmit, h1]

theorem Dev.Quiet.traceRetire {d : Dev} {c : CoreId} (h : d.Quiet c) (r : Ret) : d.traceRetire c r = d := by
  have h1 : bit (d.trcSrc (coreUid c)) 0 = false := h.trace
  have hd : ∀ a (n : Nat) s, d.traceData c a n s = d := by
    intro a n s; unfold Dev.traceData; split
    · exact h.traceEmit _ _ _
    · rfl
  have h2 : ∀ l : List (Nat × Nat × Bool), forAll l (fun a d => d.traceData c a.1 a.2.1 a.2.2) d = d := by
    intro l; unfold forAll
    induction l with
    | nil => rfl
    | cons a l ih => simpa [hd] using ih
  unfold Dev.traceRetire
  split <;> simp [Dev.traceFlow, Dev.traceSkip, h1, h2]

theorem Dev.Quiet.cmpHits {d : Dev} {c : CoreId} (h : d.Quiet c) (xs : List (Nat × List Nat)) : d.cmpHits c xs = (0, false) := by
  have h1 : ∀ n, n < 4 → ∀ va ks, d.cmpHit c n va ks = false := by
    intro n hn va ks
    have := h.cmp n hn
    simp only [Dev.flag] at this
    simp [Dev.cmpHit, this]
  have h2 : ∀ n, n < 4 → xs.any (fun x => d.cmpHit c n x.1 x.2) = false := by
    intro n hn; simp [h1 n hn]
  simp [Dev.cmpHits, List.range, List.range.loop, h2]

theorem Dev.Quiet.afterRetire {was : Dev} {c : CoreId} (h : was.Quiet c) (d : Dev) (r : Ret) : d.afterRetire was c r = d := by
  simp [Dev.afterRetire, h.cmpHits, h.step]

theorem Dev.Quiet.someAfterSync {d : Dev} {c : CoreId} (h : d.Quiet c) : d.someAfterSync c = d := by
  simp [Dev.someAfterSync, h.sync]

/-- What retirement writes into its core, before the counts. -/
def Ret.apply (r : Ret) (k : Core) : Core :=
  { k with pc := r.next, lastPc := k.pc, abandoned := k.abandoned.filter (fun x => x != k.pc),
           astat := k.astat ||| BitVec.ofNat 64 (r.dz.toNat + 2 * r.ov.toNat) }

/-- The trap that follows a retirement: the boundary's staged writes and the entry, or nothing. -/
def Dev.trapAfter (d : Dev) (c : CoreId) (r : Ret) : Dev :=
  match trapOf (d.core c).astat r with
  | some code => (d.stagedDue c).enter c code 0 0 0 0 r.next
  | none => d

/-- Retirement of an instruction that raises no trap, in a quiet core: the pc, the sticky flags, and otherwise only what is light. -/
theorem Dev.retire_quiet (d : Dev) (c : CoreId) (steps : Nat) (far : Bool) (r : Ret) (h : d.Quiet c)
    (ht : trapOf ((r.apply (d.core c)).astat) r = none) :
    Dev.Light c (d.modCore c r.apply) (d.retire c steps far r) := by
  have hm : ∀ f : Core → Core, (∀ k, (f k).afterSync = k.afterSync) → (d.modCore c f).Quiet c := by
    intro f hf
    refine ⟨h.step, h.cmp, h.trace, ?_⟩
    rw [Dev.core_modCore_same, hf]; exact h.sync
  have key : ∀ e : Dev, Dev.Light c (d.modCore c r.apply) e →
      (let d4 := ({ e with db := { e.db with skipCmp := e.db.skipCmp.filter (fun x => x != c.val) } }).traceRetire c r
       let d5 := d4.someAfterSync c
       let d6 := match trapOf (d5.core c).astat r with
        | some code => (d5.stagedDue c).enter c code 0 0 0 0 r.next
        | none => d5
       Dev.Light c (d.modCore c r.apply) (d6.afterRetire d5 c r)) := by
    intro e he
    have he2 : Dev.Light c (d.modCore c r.apply) { e with db := { e.db with skipCmp := e.db.skipCmp.filter (fun x => x != c.val) } } :=
      he.trans ⟨rfl, fun _ _ _ _ => rfl⟩
    have hq := he2.quiet (hm _ (fun _ => rfl))
    have ha : (({ e with db := { e.db with skipCmp := e.db.skipCmp.filter (fun x => x != c.val) } } : Dev).core c).astat =
        (r.apply (d.core c)).astat := by
      have h1 := he2.getCore (fun x => x.astat) (fun _ => rfl)
      rw [Dev.core_modCore_same] at h1
      exact h1
    simp only [hq.traceRetire, hq.someAfterSync, ha, ht, hq.afterRetire]
    exact he2
  have hl : Dev.Light c (d.modCore c r.apply) (((d.modCore c r.apply).countRetire c (r.steps + steps) (far || r.far)).countDown c) :=
    (Dev.countRetire_light _ c _ _).trans (Dev.countDown_light _ c)
  unfold Dev.retire
  refine key _ ?_
  split
  · split
    · exact hl.trans (Dev.predict_light _ c _ _ _)
    · exact hl
  · exact hl

end Sys2Proof.Machine
end

