-- ==== Sys2Proof/Laws/Instr.lean ====
section
/-!
SUPPORT. How a meaning is read: a command as an effect on the device, an instruction at a ready core, its retirement and the entry
of a cause.
-/
namespace Sys2Proof.Machine

/-- A meaning that is an effect on the device completes with that effect. -/
theorem Completes.of_onDev {i : Instr} {s : State} {f : Dev → Dev} {P : Dev → Prop} (h : exec i s = onDev f s) (hp : P (f s.dev)) :
    Completes i s P := ⟨{ s with dev := f s.dev }, h, rfl, hp⟩

/-- What an instruction does at a ready core. -/
theorem State.Ready.instr {s : State} {c : CoreId} {d : Dev} {n : Nat} {far : Bool} (h : s.Ready c d n far) (body : Dev → Out) :
    s.dev.instr c body = Dev.settle c (d.core c).pc n far (body d) := by
  simp only [Dev.instr, h.go]

/-- A change of a core's registers keeps it quiet. -/
theorem Dev.Quiet.modCore {d : Dev} {c : CoreId} (h : d.Quiet c) (f : Core → Core) (hf : (f (d.core c)).afterSync = (d.core c).afterSync) :
    (d.modCore c f).Quiet c := by
  refine ⟨h.step, h.cmp, h.trace, ?_⟩
  rw [Dev.core_modCore_same, hf]; exact h.sync

/-- Retirement after a change of the core's registers: what the core holds and what is kept. -/
theorem Dev.retire_regs (d : Dev) (c : CoreId) (steps : Nat) (far : Bool) (f : Core → Core) (r : Ret) (h : d.Quiet c)
    (hs : (f (d.core c)).afterSync = (d.core c).afterSync) (ht : trapOf ((r.apply (f (d.core c))).astat) r = none) :
    Dev.Light c (d.modCore c (fun k => r.apply (f k))) ((d.modCore c f).retire c steps far r) := by
  have h1 := Dev.retire_quiet (d.modCore c f) c steps far r (h.modCore f hs) (by rw [Dev.core_modCore_same]; exact ht)
  have h2 : (d.modCore c f).modCore c r.apply = d.modCore c (fun k => r.apply (f k)) := by
    simp [Dev.modCore, Dev.setCore, Dev.core]
  rwa [h2] at h1

/-- What a light step after a change of the core's registers keeps, when the change leaves system registers and store buffer. -/
theorem Dev.Light.kept {c : CoreId} {d t : Dev} {g : Core → Core} (h : Dev.Light c (d.modCore c g) t)
    (hsb : (g (d.core c)).sb = (d.core c).sb) (hsys : (d.core c).SameSys (g (d.core c))) : d.Kept t c where
  mem := by
    have m := h.mem
    exact ⟨m.sdram, m.sdramErr, m.retained, m.localStore, m.localErr, m.l2, m.homes, m.keeperSram, m.regionSram⟩
  others := fun x hx => by rw [h.other x hx, Dev.core_modCore_other _ _ _ _ hx]
  sb := by
    have h1 := h.getCore (fun x => x.sb) (fun _ => rfl)
    rw [Dev.core_modCore_same] at h1; exact h1.trans hsb
  sys := by
    have h1 := h.sys
    rw [Dev.core_modCore_same] at h1
    exact ⟨h1.1.trans hsys.1, h1.2.trans hsys.2, h1.3.trans hsys.3, h1.4.trans hsys.4, h1.5.trans hsys.5, h1.6.trans hsys.6,
      h1.7.trans hsys.7, h1.8.trans hsys.8, h1.9.trans hsys.9, h1.10.trans hsys.10⟩
  time := h.get (fun x => x.dt) (fun _ => rfl)
  unit := fun u o hu ho => h.unit u o hu ho

/-- The registers of a core after a light step. -/
theorem Dev.Light.regs {c : CoreId} {d t : Dev} {g : Core → Core} (h : Dev.Light c (d.modCore c g) t) :
    (∀ x, (t.core c).rd x = (g (d.core c)).rd x) ∧ (t.core c).v = (g (d.core c)).v ∧ (t.core c).q = (g (d.core c)).q ∧
      (t.core c).vstat = (g (d.core c)).vstat ∧ (t.core c).pc = (g (d.core c)).pc ∧ (t.core c).astat = (g (d.core c)).astat := by
  have e := Dev.core_modCore_same d c g
  refine ⟨fun x => ?_, ?_, ?_, ?_, ?_, ?_⟩
  · have h1 := h.getCore (fun k => k.rd x) (fun _ => rfl); rw [e] at h1; exact h1
  · have h1 := h.getCore (fun k => k.v) (fun _ => rfl); rw [e] at h1; exact h1
  · have h1 := h.getCore (fun k => k.q) (fun _ => rfl); rw [e] at h1; exact h1
  · have h1 := h.getCore (fun k => k.vstat) (fun _ => rfl); rw [e] at h1; exact h1
  · have h1 := h.getCore (fun k => k.pc) (fun _ => rfl); rw [e] at h1; exact h1
  · have h1 := h.getCore (fun k => k.astat) (fun _ => rfl); rw [e] at h1; exact h1

/-- An instruction that only changes the data registers of its core (`regOut`) at a ready core. -/
theorem State.Ready.regOut_data {s : State} {c : CoreId} {d : Dev} {n : Nat} {far : Bool} (h : s.Ready c d n far) (steps : Nat)
    (f : Core → Core) (h1 : (f (d.core c)).afterSync = (d.core c).afterSync) (h2 : (f (d.core c)).sb = (d.core c).sb)
    (h3 : (d.core c).SameSys (f (d.core c))) (h4 : (f (d.core c)).astat = (d.core c).astat) :
    let t := s.dev.instr c (regOut c steps f)
    d.Next t c ∧ (∀ x, (t.core c).rd x = (f (d.core c)).rd x) ∧ (t.core c).v = (f (d.core c)).v ∧ (t.core c).q = (f (d.core c)).q ∧
      (t.core c).vstat = (f (d.core c)).vstat := by
  intro t
  have e : t = (d.modCore c f).retire c n far (Ret.plain (d.core c) steps) := by
    show s.dev.instr c _ = _
    rw [h.instr]; rfl
  have l := Dev.retire_regs d c n far f (Ret.plain (d.core c) steps) h.quiet h1 (by simp [trapOf, Ret.plain])
  rw [← e] at l
  have r := l.regs
  refine ⟨⟨?_, ?_, l.kept h2 ⟨h3.1, h3.2, h3.3, h3.4, h3.5, h3.6, h3.7, h3.8, h3.9, h3.10⟩⟩, fun x => ?_, ?_, ?_, ?_⟩
  · rw [r.2.2.2.2.1]; rfl
  · rw [r.2.2.2.2.2, ← h4]; simp [Ret.apply, Ret.plain]
  · rw [r.1 x]; rfl
  · rw [r.2.1]; rfl
  · rw [r.2.2.1]; rfl
  · rw [r.2.2.2.1]; rfl

/-- An instruction that writes one general register at a ready core (`regOut`): what it writes and what it leaves. -/
theorem State.Ready.regOut_wr {s : State} {c : CoreId} {d : Dev} {n : Nat} {far : Bool} (h : s.Ready c d n far) (steps : Nat) (rd : RIx)
    (val : Core → Word) :
    let t := s.dev.instr c (regOut c steps (fun k => k.wr rd (val k)))
    d.Wrote t c rd (val (d.core c)) ∧ d.Kept t c ∧ (t.core c).astat = (d.core c).astat := by
  intro t
  have e : t = (d.modCore c (fun k => k.wr rd (val k))).retire c n far (Ret.plain (d.core c) steps) := by
    show s.dev.instr c _ = _
    rw [h.instr]; rfl
  have l := Dev.retire_regs d c n far (fun k => k.wr rd (val k)) (Ret.plain (d.core c) steps) h.quiet
    (by unfold Core.wr; split <;> rfl) (by simp [trapOf, Ret.plain])
  rw [← e] at l
  have r := l.regs
  have hsys : ∀ k : Core, (d.core c) = k → k.SameSys ((Ret.plain (d.core c) steps).apply (k.wr rd (val k))) := by
    intro k _
    unfold Core.wr Ret.apply
    split <;> exact ⟨rfl, rfl, rfl, rfl, rfl, rfl, rfl, rfl, rfl, rfl⟩
  refine ⟨⟨fun x => ?_, ?_, ?_, ?_, ?_⟩, l.kept ?_ (hsys _ rfl), ?_⟩
  · rw [r.1 x]; exact Core.rd_wr (d.core c) rd x (val (d.core c))
  · rw [r.2.2.2.2.1]; rfl
  · rw [r.2.1]; exact Core.wr_v _ _ _
  · rw [r.2.2.1]; exact Core.wr_q _ _ _
  · rw [r.2.2.2.1]; exact Core.wr_vstat _ _ _
  · unfold Core.wr Ret.apply; split <;> rfl
  · rw [r.2.2.2.2.2]; simp [Ret.apply, Ret.plain]

end Sys2Proof.Machine
end

