-- ==== Sys2Proof/Laws/Entry.lean ====
section
/-!
SUPPORT. Taking a cause or an event (R144), up to the fetch of the handler.
-/
namespace Sys2Proof.Machine

/-- A field of a constant. -/
theorem bits_ofNat (x lo w : Nat) (h : lo + w ≤ 64) : bits (BitVec.ofNat 64 x) lo w = x / 2 ^ lo % 2 ^ w := by
  refine Nat.eq_of_testBit_eq (fun i => ?_)
  rw [testBit_bits, Nat.testBit_mod_two_pow, Nat.testBit_div_two_pow, BitVec.getLsbD_ofNat]
  by_cases hi : i < w
  · have : lo + i < 64 := by omega
    simp [hi, this, Nat.add_comm]
  · simp [hi]

/-- The fields of S_CAUSE at an entry. -/
theorem causeWord_fields (code vec pri st info : Nat) (h1 : code < 256) (h2 : vec < 256) (h3 : pri < 16) (h4 : st < 2)
    (h5 : info < 2 ^ 32) :
    let v := BitVec.ofNat 64 (at_ code 0 8 + at_ vec 8 8 + at_ pri 16 4 + at_ st 20 1 + at_ info 32 32)
    bits v 0 8 = code ∧ bits v 8 8 = vec ∧ bits v 16 4 = pri ∧ bits v 20 1 = st ∧ bits v 32 32 = info := by
  simp only [bits_ofNat _ 0 8 (by decide), bits_ofNat _ 8 8 (by decide), bits_ofNat _ 16 4 (by decide),
    bits_ofNat _ 20 1 (by decide), bits_ofNat _ 32 32 (by decide), at_]
  omega

/-- A bit is a field of width 1. -/
theorem bit_eq_bits {n : Nat} (v : BitVec n) (i : Nat) : bit v i = decide (bits v i 1 = 1) := by
  have h := testBit_bits v i 1 0
  have hl := bits_lt v i 1
  simp only [Nat.add_zero] at h
  unfold bit
  have : bits v i 1 = 0 ∨ bits v i 1 = 1 := by omega
  rcases this with e | e <;> rw [e] at h ⊢ <;> simp_all

/-- S_STATUS of a core at an entry. -/
def enteredStatus (s : Word) (code pri : Nat) : Word :=
  let s1 := setBits (setBit (setBits s 2 2 (bits s 0 2)) 5 (bit s 4)) 12 4 (bits s 8 4)
  let s2 := setBit (setBits s1 0 2 1) 4 false
  if code = 0x20 then setBits s2 8 4 pri else s2

/-- The fields of S_STATUS at an entry. -/
theorem enteredStatus_fields (s : Word) (code pri : Nat) (h3 : pri < 16) :
    bits (enteredStatus s code pri) 2 2 = bits s 0 2 ∧ bits (enteredStatus s code pri) 5 1 = bits s 4 1 ∧
    bits (enteredStatus s code pri) 12 4 = bits s 8 4 ∧ bits (enteredStatus s code pri) 0 2 = 1 ∧
    bits (enteredStatus s code pri) 4 1 = 0 ∧
    bits (enteredStatus s code pri) 8 4 = (if code = 0x20 then pri else bits s 8 4) := by
  have hlt1 := bits_lt s 0 2
  have hlt2 := bits_lt s 8 4
  have hb : (bit s 4).toNat = bits s 4 1 := by
    have := bits_lt s 4 1
    rw [bit_eq_bits]
    by_cases h : bits s 4 1 = 1
    · simp [h]
    · have : bits s 4 1 = 0 := by omega
      simp [this]
  have hlt3 := bits_lt s 4 1
  unfold enteredStatus
  simp only [setBit, hb, Bool.toNat_false]
  by_cases h20 : code = 0x20
  · simp only [if_pos h20]
    refine ⟨?_, ?_, ?_, ?_, ?_, ?_⟩ <;> simp (disch := omega) only [bits_setBits_other, bits_setBits] <;> omega
  · simp only [if_neg h20]
    refine ⟨?_, ?_, ?_, ?_, ?_, ?_⟩ <;> simp (disch := omega) only [bits_setBits_other, bits_setBits] <;> omega

theorem Core.entered_sEpc (k : Core) (code vec pri : Nat) (st : Bool) (info faddr : Nat) (epc : Word) :
    (k.entered code vec pri st info faddr epc).sEpc = epc := rfl
theorem Core.entered_sCause (k : Core) (code vec pri : Nat) (st : Bool) (info faddr : Nat) (epc : Word) :
    (k.entered code vec pri st info faddr epc).sCause =
      BitVec.ofNat 64 (at_ code 0 8 + at_ vec 8 8 + at_ pri 16 4 + at_ st.toNat 20 1 + at_ info 32 32) := rfl
theorem Core.entered_sStatus (k : Core) (code vec pri : Nat) (st : Bool) (info faddr : Nat) (epc : Word) :
    (k.entered code vec pri st info faddr epc).sStatus = enteredStatus k.sStatus code pri := rfl
theorem Core.entered_pc (k : Core) (code vec pri : Nat) (st : Bool) (info faddr : Nat) (epc : Word) :
    (k.entered code vec pri st info faddr epc).pc = if code = 0x20 then k.sEvbase + 0x200 else k.sEvbase := rfl
theorem Core.entered_sFaddr (k : Core) (code vec pri : Nat) (st : Bool) (info faddr : Nat) (epc : Word) :
    (k.entered code vec pri st info faddr epc).sFaddr = if causeAddr code then BitVec.ofNat 64 faddr else k.sFaddr := rfl
theorem Core.entered_afterSync (k : Core) (code vec pri : Nat) (st : Bool) (info faddr : Nat) (epc : Word) :
    (k.entered code vec pri st info faddr epc).afterSync = k.afterSync := rfl

/-- Taking a cause or an event at a quiet core with no staged write pending: R144 up to the fetch of the handler. -/
theorem Dev.enter_spec (d : Dev) (c : CoreId) (code vec pri info faddr : Nat) (epc : Word) (hq : d.Quiet c)
    (hs : (d.core c).staged = []) (h1 : code < 256) (h2 : vec < 256) (h3 : pri < 16) (h5 : info < 2 ^ 32) :
    ∃ e, d.enter c code vec pri info faddr epc = e.entryFetch c ∧ e.Quiet c ∧
      d.Entered e c code vec pri info epc (if code = 0x20 then (d.core c).sEvbase + 0x200 else (d.core c).sEvbase) ∧
      (e.core c).w = (d.core c).w ∧ (e.core c).v = (d.core c).v ∧ (e.core c).q = (d.core c).q ∧ (e.core c).vstat = (d.core c).vstat ∧
      (causeAddr code = true → (e.core c).sFaddr = BitVec.ofNat 64 faddr) := by
  let d2 := (d.loseOwn c).countEvt c 0x0E 1
  let d3 := d2.modCore c (fun k => k.entered code vec pri false info faddr epc)
  let d4 := if (d3.core c).dmode then d3.countSteps c entrySteps 0 else d3
  have l2 : Dev.Light c d d2 := (Dev.loseOwn_light d c).trans (Dev.countEvt_light _ c _ _)
  have q2 : d2.Quiet c := l2.quiet hq
  have q3 : d3.Quiet c := q2.modCore _ (Core.entered_afterSync ..)
  have l4 : Dev.Light c d3 d4 := Dev.Light.ite (Dev.countSteps_light d3 c _ _) (Dev.Light.refl c d3)
  have q4 : d4.Quiet c := l4.quiet q3
  have htr : d4.traceFlow c (d4.core c).pc 5 = d4 := by
    have h : bit (d4.trcSrc (coreUid c)) 0 = false := q4.trace
    simp [Dev.traceFlow, h]
  have hen : d.enter c code vec pri info faddr epc = d4.entryFetch c := by
    have : (decide (code ≠ 0x20) && !(d.core c).staged.isEmpty) = false := by simp [hs]
    simp only [Dev.enter, this]
    show (d4.traceFlow c (d4.core c).pc 5).entryFetch c = _
    rw [htr]
  have k3 : d3.core c = (d2.core c).entered code vec pri false info faddr epc := Dev.core_modCore_same ..
  have st2 : (d2.core c).sStatus = (d.core c).sStatus := l2.getCore (fun k => k.sStatus) (fun _ => rfl)
  have ev2 : (d2.core c).sEvbase = (d.core c).sEvbase := l2.getCore (fun k => k.sEvbase) (fun _ => rfl)
  have fa2 : (d2.core c).sFaddr = (d.core c).sFaddr := l2.getCore (fun k => k.sFaddr) (fun _ => rfl)
  have fc := causeWord_fields code vec pri 0 info h1 h2 h3 (by decide) h5
  simp only at fc
  have fs := enteredStatus_fields (d.core c).sStatus code pri h3
  have ep4 : (d4.core c).sEpc = epc := by
    rw [l4.getCore (fun k => k.sEpc) (fun _ => rfl), k3, Core.entered_sEpc]
  have ca4 : (d4.core c).sCause = BitVec.ofNat 64 (at_ code 0 8 + at_ vec 8 8 + at_ pri 16 4 + at_ 0 20 1 + at_ info 32 32) := by
    rw [l4.getCore (fun k => k.sCause) (fun _ => rfl), k3, Core.entered_sCause]; rfl
  have ss4 : (d4.core c).sStatus = enteredStatus (d.core c).sStatus code pri := by
    rw [l4.getCore (fun k => k.sStatus) (fun _ => rfl), k3, Core.entered_sStatus, st2]
  have pc4 : (d4.core c).pc = if code = 0x20 then (d.core c).sEvbase + 0x200 else (d.core c).sEvbase := by
    rw [l4.getCore (fun k => k.pc) (fun _ => rfl), k3, Core.entered_pc, ev2]
  have fd4 : (d4.core c).sFaddr = if causeAddr code then BitVec.ofNat 64 faddr else (d.core c).sFaddr := by
    rw [l4.getCore (fun k => k.sFaddr) (fun _ => rfl), k3, Core.entered_sFaddr, fa2]
  refine ⟨d4, hen, q4, ?_, ?_, ?_, ?_, ?_, ?_⟩
  · refine { epc := ep4, code := ?_, vec := ?_, pri := ?_, staged := ?_, info := ?_, ppriv := ?_, pee := ?_, pipl := ?_, priv := ?_,
             ee := ?_, ipl := ?_, pc := pc4, faddr := ?_, resv := ?_, mem := ?_, others := ?_ }
    · rw [ca4]; exact fc.1
    · rw [ca4]; exact fc.2.1
    · rw [ca4]; exact fc.2.2.1
    · rw [ca4, bit_eq_bits, fc.2.2.2.1]; rfl
    · rw [ca4]; exact fc.2.2.2.2
    · rw [ss4]; exact fs.1
    · rw [ss4, bit_eq_bits, bit_eq_bits, fs.2.1]
    · rw [ss4]; exact fs.2.2.1
    · rw [ss4]; exact fs.2.2.2.1
    · rw [ss4, bit_eq_bits, fs.2.2.2.2.1]; rfl
    · rw [ss4]; exact fs.2.2.2.2.2
    · intro h; rw [fd4, h]; rfl
    · have r4 : d4.resv = d2.resv := by
        show (if (d3.core c).dmode then d3.countSteps c entrySteps 0 else d3).resv = _
        rw [apply_ite Dev.resv, Dev.countSteps_resv, ite_self]; rfl
      rw [r4]
      show SMap.get _ ((d.loseOwn c).countEvt c 0x0E 1).resv c = none
      rw [Dev.countEvt_resv]; exact Dev.loseOwn_resv d c
    · have m2 := l2.mem
      have m4 := l4.mem
      exact ⟨m4.1.trans m2.1, m4.2.trans m2.2, m4.3.trans m2.3, m4.4.trans m2.4, m4.5.trans m2.5, m4.6.trans m2.6, m4.7.trans m2.7,
        m4.8.trans m2.8, m4.9.trans m2.9⟩
    · intro x hx
      rw [l4.other x hx, Dev.core_modCore_other _ _ _ _ hx, l2.other x hx]
  · rw [l4.getCore (fun k => k.w) (fun _ => rfl), k3]; exact l2.getCore (fun k => k.w) (fun _ => rfl)
  · rw [l4.getCore (fun k => k.v) (fun _ => rfl), k3]; exact l2.getCore (fun k => k.v) (fun _ => rfl)
  · rw [l4.getCore (fun k => k.q) (fun _ => rfl), k3]; exact l2.getCore (fun k => k.q) (fun _ => rfl)
  · rw [l4.getCore (fun k => k.vstat) (fun _ => rfl), k3]; exact l2.getCore (fun k => k.vstat) (fun _ => rfl)
  · intro h; rw [fd4, h]; rfl

end Sys2Proof.Machine
end

