-- ==== Sys2Proof/Laws/Lanes.lean ====
section
/-!
SUPPORT. Lanes of vector registers and accumulators: what a register built of lanes holds, and the numbers of R176, R182 and R188 in the
form in which claims use them.
-/
namespace Sys2Proof.Machine

/-- A power of two is positive. -/
theorem int_two_pow_pos (k : Nat) : (0 : Int) < 2 ^ k := Int.pow_pos (by decide)

/-- A power of two is twice the one before. -/
theorem int_two_pow_pred (w : Nat) (hw : 0 < w) : (2 : Int) ^ w = 2 * 2 ^ (w - 1) := by
  obtain ⟨k, rfl⟩ : ∃ k, w = k + 1 := ⟨w - 1, by omega⟩
  rw [Nat.add_sub_cancel, Int.pow_succ, Int.mul_comm]

/-- The two's complement pattern of an integer is below 2^w. -/
theorem unsignedOf_lt (w : Nat) (x : Int) : unsignedOf w x < 2 ^ w := by
  have h : (0 : Int) < ((2 ^ w : Nat) : Int) := by have := Nat.two_pow_pos w; omega
  have h1 := Int.emod_nonneg x (Int.ne_of_gt h)
  have h2 := Int.emod_lt_of_pos x h
  unfold unsignedOf; omega

/-- A register filled lane by lane. -/
theorem bits_fill {N : Nat} (w n : Nat) (f : Nat → Int) (h : w * n ≤ N) (i : Nat) (hi : i < n) :
    bits ((List.range n).foldl (fun (v : BitVec N) i => setBits v (w * i) w (unsignedOf w (f i))) 0) (w * i) w = unsignedOf w (f i) := by
  induction n with
  | zero => omega
  | succ m ih =>
    rw [List.range_succ, List.foldl_append]
    simp only [List.foldl_cons, List.foldl_nil]
    have hm : w * (m + 1) = w * m + w := Nat.mul_succ w m
    by_cases e : i = m
    · subst e
      rw [bits_setBits _ _ _ _ (by omega), Nat.mod_eq_of_lt (unsignedOf_lt w _)]
    · have hlt : i < m := by omega
      have hle : w * i + w ≤ w * m := by
        have := Nat.mul_le_mul_left w (Nat.succ_le_of_lt hlt)
        rw [Nat.mul_succ] at this; exact this
      rw [bits_setBits_other _ _ _ _ _ _ (by omega)]
      exact ih (by omega) hlt

/-- Lane `i` of a register of lanes. -/
theorem laneU_fromLanes (w n : Nat) (f : Nat → Int) (h : w * n ≤ 512) (i : Nat) (hi : i < n) :
    laneU (fromLanes w n f) w i = unsignedOf w (f i) := bits_fill w n f h i hi

/-- Reading a pattern back as a signed number limits nothing that fits. -/
theorem signedOf_unsignedOf (w : Nat) (x : Int) (hw : 0 < w) (h : misfit w x = false) : signedOf w (unsignedOf w x) = x := by
  have hp := int_two_pow_pred w hw
  have hc : ((2 ^ w : Nat) : Int) = (2 : Int) ^ w := by simp
  have hpos : (0 : Int) < 2 ^ (w - 1) := int_two_pow_pos _
  simp only [misfit, Bool.or_eq_false_iff, decide_eq_false_iff_not] at h
  have hlt := unsignedOf_lt w x
  have hv : ((unsignedOf w x : Nat) : Int) = x % 2 ^ w := by
    unfold unsignedOf
    rw [Int.toNat_of_nonneg (Int.emod_nonneg _ (by rw [hc, hp]; omega)), hc]
  unfold signedOf
  rw [Nat.mod_eq_of_lt hlt]
  by_cases hx : 0 ≤ x
  · have e : x % 2 ^ w = x := Int.emod_eq_of_lt hx (by omega)
    rw [e] at hv
    rw [if_pos (by have : ((2 * unsignedOf w x : Nat) : Int) < ((2 ^ w : Nat) : Int) := by push_cast; rw [hv, hp]; omega
                   exact_mod_cast this)]
    exact hv
  · have e : x % 2 ^ w = x + 2 ^ w := by
      rw [← Int.add_emod_right, Int.emod_eq_of_lt (by omega) (by omega)]
    rw [e] at hv
    rw [if_neg (by
      intro hcon
      have : ((2 * unsignedOf w x : Nat) : Int) < ((2 ^ w : Nat) : Int) := by exact_mod_cast hcon
      rw [hc] at this; push_cast at this; rw [hv] at this; omega)]
    rw [hv]; omega

/-- `beyond` and `misfit` are one. -/
theorem beyond_eq (w : Nat) (x : Int) : beyond w x = misfit w x := rfl

/-- `clampS` and `limit` are one. -/
theorem clampS_eq (w : Nat) (x : Int) : clampS w x = limit w x := by
  have hpos : (0 : Int) < 2 ^ (w - 1) := int_two_pow_pos _
  unfold clampS limit
  split
  · omega
  · split <;> omega

/-- A limited number fits. -/
theorem misfit_limit (w : Nat) (x : Int) : misfit w (limit w x) = false := by
  have hpos : (0 : Int) < 2 ^ (w - 1) := int_two_pow_pos _
  have h1 : ¬limit w x < -(2 ^ (w - 1)) := by unfold limit; omega
  have h2 : ¬(2 : Int) ^ (w - 1) ≤ limit w x := by unfold limit; omega
  simp [misfit, h1, h2]

/-- A number that fits is not limited. -/
theorem limit_of_fit (w : Nat) (x : Int) (h : misfit w x = false) : limit w x = x := by
  simp only [misfit, Bool.or_eq_false_iff, decide_eq_false_iff_not] at h
  unfold limit; omega

/-- Lane `i`, signed, of a register of lanes that fit. -/
theorem laneS_fromLanes (w n : Nat) (f : Nat → Int) (hw : 0 < w) (h : w * n ≤ 512) (i : Nat) (hi : i < n) (hf : misfit w (f i) = false) :
    laneS (fromLanes w n f) w i = f i := by
  unfold laneS
  rw [laneU_fromLanes w n f h i hi, signedOf_unsignedOf w _ hw hf]

/-- Lane `i` of an accumulator of lanes that fit. -/
theorem accLane_fromAcc (f : Nat → Int) (i : Nat) (hi : i < 16) (hf : misfit 96 (f i) = false) : accLane (fromAcc f) i = f i := by
  unfold accLane fromAcc
  rw [bits_fill 96 16 f (by decide) i hi, signedOf_unsignedOf 96 _ (by decide) hf]

/-- A lane replaced, read back; the other lanes. -/
theorem laneU_setLane (v : BitVec 512) (w k : Nat) (x : Int) (h : w * k + w ≤ 512) (i : Nat) :
    laneU (setLane v w k x) w i = if i = k then unsignedOf w x else laneU v w i := by
  unfold laneU setLane
  split
  · next e => subst e; rw [bits_setBits _ _ _ _ h, Nat.mod_eq_of_lt (unsignedOf_lt w _)]
  · next e =>
    rw [bits_setBits_other]
    rcases Nat.lt_or_gt_of_ne e with hlt | hlt
    · left
      have := Nat.mul_le_mul_left w (Nat.succ_le_of_lt hlt)
      rw [Nat.mul_succ] at this; exact this
    · right
      have := Nat.mul_le_mul_left w (Nat.succ_le_of_lt hlt)
      rw [Nat.mul_succ] at this; exact this

/-- A quotient by an even number in terms of quotient and remainder. -/
theorem div_add_even (x e hf : Int) (h : 0 < hf) :
    (x + e) / (2 * hf) = x / (2 * hf) + (x % (2 * hf) + e) / (2 * hf) := by
  have hd : 2 * hf * (x / (2 * hf)) + x % (2 * hf) = x := Int.mul_ediv_add_emod x (2 * hf)
  have : x + e = (x % (2 * hf) + e) + (2 * hf) * (x / (2 * hf)) := by omega
  rw [this, Int.add_mul_ediv_left _ _ (show (2 * hf) ≠ 0 by omega), Int.add_comm]

/-- The rounding of R188 in closed form (Table 4-8). -/
theorem rounded_eq (x r : Int) (rm : Nat) (h : rm < 3) : rounded x r rm = roundShift x r rm := by
  unfold rounded roundShift
  split
  · rfl
  · next hr =>
    have hp := int_two_pow_pred r.toNat (by omega)
    have hpos : (0 : Int) < 2 ^ (r.toNat - 1) := int_two_pow_pos _
    dsimp only
    rw [hp]
    generalize (2 : Int) ^ (r.toNat - 1) = hf at *
    have h0 := Int.emod_nonneg x (show (2 * hf) ≠ 0 by omega)
    have h1 := Int.emod_lt_of_pos x (show 0 < 2 * hf by omega)
    have zero : ∀ y : Int, 0 ≤ y → y < 2 * hf → y / (2 * hf) = 0 := fun y a b => Int.ediv_eq_zero_of_lt a b
    have one : ∀ y : Int, 2 * hf ≤ y → y < 2 * (2 * hf) → y / (2 * hf) = 1 := by
      intro y a b
      have : y = (y - 2 * hf) + (2 * hf) * 1 := by omega
      rw [this, Int.add_mul_ediv_left _ _ (show (2 * hf) ≠ 0 by omega), zero _ (by omega) (by omega)]; rfl
    match rm, h with
    | 0, _ =>
      have hq : x / (2 * hf) % 2 = 0 ∨ x / (2 * hf) % 2 = 1 := by omega
      have hadd : x + hf - 1 + x / (2 * hf) % 2 = x + (hf - 1 + x / (2 * hf) % 2) := by omega
      rw [hadd, div_add_even x _ hf hpos]
      generalize x / (2 * hf) = q at *
      generalize x % (2 * hf) = t at *
      by_cases hc : hf < t ∨ t = hf ∧ q % 2 = 1
      · have e := one (t + (hf - 1 + q % 2)) (by omega) (by omega)
        simp [hc, e]
      · have e := zero (t + (hf - 1 + q % 2)) (by omega) (by omega)
        simp [hc, e]
    | 1, _ =>
      rw [div_add_even x _ hf hpos]
      generalize x / (2 * hf) = q at *
      generalize x % (2 * hf) = t at *
      by_cases hc : hf ≤ t
      · have e := one (t + hf) (by omega) (by omega)
        simp [hc, e]
      · have e := zero (t + hf) (by omega) (by omega)
        simp [hc, e]
    | 2, _ => simp

/-- The bits directly below the sign bit that equal it: `signCount` of a lane's value counts them (R182). -/
theorem signCount_lt (w : Nat) (x : Int) (hw : 0 < w) : signCount w x < w := by
  simp only [signCount]; omega

end Sys2Proof.Machine
end

