-- ==== Sys2Proof/Laws/Registers.lean ====
section
/-!
SUPPORT. A register write that is performed: what the command that makes it does.
-/
namespace Sys2Proof.Machine

/-- The unit and the offset of a register's address. -/
theorem ctlAddr_parts (u off : Nat) (h : off < 0x10000) : ctlUnit (ctlAddr u off) = u ∧ ctlOff (ctlAddr u off) = off := by
  unfold ctlUnit ctlOff ctlAddr; omega

/-- The little-endian bytes of a number, read back. -/
theorem leNat_natLe (n x : Nat) : leNat (natLe n x) = x % 2 ^ (8 * n) := by
  induction n generalizing x with
  | zero => simp [natLe, leNat]; omega
  | succ n ih =>
    have e : 8 * (n + 1) = 8 * n + 8 := by omega
    simp only [natLe, leNat, ih]
    rw [e, Nat.pow_add, Nat.mul_comm (2 ^ (8 * n)) (2 ^ 8), Nat.mod_mul, BitVec.toNat_ofNat]

/-- The length of the little-endian bytes of a number. -/
theorem length_natLe (n x : Nat) : (natLe n x).length = n := by
  induction n generalizing x with
  | zero => rfl
  | succ n ih => simp only [natLe, List.length_cons, ih]

/-- A word is the number that its bytes spell. -/
theorem ofNat_leNat_natLe (v : Word) : BitVec.ofNat 64 (leNat (natLe 8 v.toNat)) = v := by
  have : leNat (natLe 8 v.toNat) = v.toNat := (leNat_natLe 8 v.toNat).trans (Nat.mod_eq_of_lt v.isLt)
  rw [this, BitVec.ofNat_toNat, BitVec.setWidth_eq]

/-- The bounds of a register's address. -/
theorem ctlAddr_bounds (u off : Nat) (hu : u < 0xC000) (ho : off < 0x10000) :
    0xF00000000000 ≤ ctlAddr u off ∧ ctlAddr u off < 0xF000C0000000 := by unfold ctlAddr; omega

/-- Registers are 8 bytes apart. -/
theorem ctlAddr_aligned (u off : Nat) (h : off % 8 = 0) : ctlAddr u off % 8 = 0 := by unfold ctlAddr; omega

/-- No address of control space is in the remote range. -/
theorem inRemote_ctl (x : Nat) (h : 0xF00000000000 ≤ x) : ¬(x < 0x40000000000 ∨ inRemote x = true) := by
  rintro (h1 | h2)
  · omega
  · have h' := (Bool.and_eq_true_iff.mp h2).2; rw [decide_eq_true_iff] at h'; omega

/-- No address of control space is a local-store slot. -/
theorem not_slot_ctl (x : Nat) (h : 0xF00000000000 ≤ x ∧ x < 0xF000C0000000) : ¬(0xE00000000000 ≤ x ∧ x < 0xE00012000000) := by omega

/-- A request that is to no other range is one to control space. -/
theorem Dev.serve_of_range (d : Dev) (q : Req) (h1 : ¬(q.addr < 0x40000000000 ∨ inRemote q.addr = true))
    (h2 : ¬(0xE00000000000 ≤ q.addr ∧ q.addr < 0xE00012000000)) (h3 : 0xF00000000000 ≤ q.addr ∧ q.addr < 0xF000C0000000) :
    d.serve q = d.ctlAccess q := by
  simp only [Dev.serve, if_neg h1, if_neg h2, if_pos h3]

/-- A request to a register's address is one to control space. -/
theorem Dev.serve_ctl (d : Dev) (q : Req) (h : 0xF00000000000 ≤ q.addr ∧ q.addr < 0xF000C0000000) : d.serve q = d.ctlAccess q :=
  d.serve_of_range q (inRemote_ctl _ h.1) (not_slot_ctl _ h) h

/-- A register write whose sender is no replica, past every check. -/
theorem Dev.ctlAt_write (d : Dev) (q : Req) (u off : Nat) (bs : List Byte) (r : RegRow) (i : Nat) (ha : q.addr % 8 = 0)
    (h2 : q.size = 8) (h3 : q.write = some bs) (hk : unitKind u ≠ none ∧ (unitKind u = some .pcie → off < 0x4000))
    (hup : d.unitDown u (q.priv == .k) off = none) (hrow : regAt u off = some (r, i))
    (hmay : d.regMay q u r i off = true) (hopen : d.crumbleShut u off true = false) (hrep : q.rep = .none) :
    d.ctlAt q u off = d.regWrite q.agent (q.priv == .k) q.part u r i (BitVec.ofNat 64 (leNat bs)) := by
  unfold Dev.ctlAt
  cases hkd : unitKind u with
  | none => exact absurd hkd hk.1
  | some kd =>
    have hpc : ∀ x : Bool, ¬(kd = .pcie ∧ 0x4000 ≤ off ∧ x = false) := by
      intro x hx
      have := hk.2 (by rw [hkd, hx.1]); omega
    have hpc2 : ¬(kd = .pcie ∧ 0x8000 ≤ off ∧ off < 0xF000) := by
      intro hx
      have := hk.2 (by rw [hkd, hx.1]); omega
    have hal : ¬(q.size ≠ 8 ∨ q.addr % 8 ≠ 0) := by omega
    have hno : ¬(d.regMay q u r i off = false ∨ d.crumbleShut u off (Option.isSome (some (BitVec.ofNat 64 (leNat bs)))) = true) := by
      simp [hmay, hopen]
    simp only [hup, if_neg (hpc _), if_neg hpc2, if_neg hal, hrow, h3, Option.map_some, hrep]
    cases ha : q.agent <;> simp only [if_neg hno]

/-- A write that is performed: the effect of the register's rule, and its answer. -/
theorem Dev.Takes.putReg {d : Dev} {a : Agent} {u off : Nat} {v : Word} {r : RegRow} {i : Nat} (h : d.Takes a u off v r i) :
    d.putReg a u off v =
      (let x := d.regWrite a ((d.regReq a (ctlAddr u off) 8 false (some v)).priv == .k) (d.regReq a (ctlAddr u off) 8 false (some v)).part u r i v
       x.1.answer x.2) := by
  have hw : (natLe 8 v.toNat).take 8 = natLe 8 v.toNat := List.take_of_length_le (Nat.le_of_eq (length_natLe 8 _))
  obtain ⟨q, hq⟩ : ∃ q, q = d.regReq a (ctlAddr u off) 8 false (some v) := ⟨_, rfl⟩
  have hqa : q.addr = ctlAddr u off ∧ q.size = 8 ∧ q.write = some (natLe 8 v.toNat) ∧ q.agent = a := by
    rw [hq]; unfold Dev.regReq
    cases a <;> simp only [Option.map_some, hw, and_self]
  have h1 := h.window
  have h2 := h.epoch
  have h4 := h.up
  have h6 := h.may
  have h8 := h.single
  rw [← hq] at h1 h2 h4 h6 h8
  have hs := d.serve_ctl q (by rw [hqa.1]; exact ctlAddr_bounds u off h.inside.1 h.inside.2.1)
  have ha : q.addr % 8 = 0 := by rw [hqa.1]; exact ctlAddr_aligned u off h.inside.2.2
  have hp := ctlAddr_parts u off h.inside.2.1
  have hc := d.ctlAt_write q u off _ r i ha hqa.2.1 hqa.2.2.1 h.kind h4 h.row h6 h.opened h8
  rw [ofNat_leNat_natLe, hqa.2.2.2] at hc
  unfold Dev.putReg
  rw [← hq]
  unfold Dev.arrive
  rw [if_neg (by rw [h1]; decide), h2]
  show (let (d1, a) := d.serve q; d1.answer a) = _
  rw [hs, Dev.ctlAccess, hqa.1, hp.1, hp.2, hc]

end Sys2Proof.Machine
end

