-- ==== Sys2Proof/Laws/Vector.lean ====
section
/-!
SUPPORT. What a vector instruction does at a ready core.
-/
namespace Sys2Proof.Machine

/-- An instruction whose fields are legal is that instruction. -/
theorem Dev.instrIf_of {d : Dev} {c : CoreId} {ok : Bool} (h : ok = true) (body : Dev → Out) : d.instrIf c ok body = d.instr c body := by
  unfold Dev.instrIf; simp only [h, if_true]

/-- An instruction at a ready core that writes one vector register and sets flags of VSTAT. -/
theorem State.Ready.onlyV {s : State} {c : CoreId} {d : Dev} {n : Nat} {far : Bool} (h : s.Ready c d n far) (steps : Nat) (vd : RIx) (fl : VFlags)
    (val : BitVec 512) (f : Core → Core) (hf : f (d.core c) = ((d.core c).vwr vd val).flag fl) :
    let t := s.dev.instr c (regOut c steps f)
    d.OnlyV t c (fun x => x == vd) fl.bits ∧ (t.core c).vrd vd = val := by
  intro t
  have r := h.regOut_data steps f (by rw [hf]; rfl) (by rw [hf]; rfl) (by rw [hf]; exact ⟨rfl, rfl, rfl, rfl, rfl, rfl, rfl, rfl, rfl, rfl⟩) (by rw [hf]; rfl)
  have hv : (t.core c).v = ((d.core c).vwr vd val).v := by rw [r.2.2.1, hf]; rfl
  refine ⟨⟨fun x => ?_, fun x hx => ?_, fun x => ?_, ?_, r.1⟩, ?_⟩
  · rw [r.2.1 x, hf]; rfl
  · have : (t.core c).vrd x = ((d.core c).vwr vd val).vrd x := by unfold Core.vrd; rw [hv]
    rw [this, Core.vrd_vwr]; simp at hx; simp [hx]
  · unfold Core.qrd; rw [r.2.2.2.1, hf]; rfl
  · rw [r.2.2.2.2, hf]; rfl
  · have : (t.core c).vrd vd = ((d.core c).vwr vd val).vrd vd := by unfold Core.vrd; rw [hv]
    rw [this, Core.vrd_vwr]; simp

/-- An instruction at a ready core that accumulates into one accumulator (R176). -/
theorem State.Ready.onlyQ {s : State} {c : CoreId} {d : Dev} {n : Nat} {far : Bool} (h : s.Ready c d n far) (steps : Nat) (qd : QIx)
    (g : Nat → Int) (f : Core → Core) (hf : f (d.core c) = (d.core c).accum qd g) :
    let t := s.dev.instr c (regOut c steps f)
    d.OnlyQ t c (fun x => x == qd) (vflags false false false ((List.range 16).any (fun i => misfit 96 (g i)))) ∧
      ∀ i, i < 16 → accLane ((t.core c).qrd qd) i = limit 96 (g i) := by
  intro t
  have r := h.regOut_data steps f (by rw [hf]; rfl) (by rw [hf]; rfl) (by rw [hf]; exact ⟨rfl, rfl, rfl, rfl, rfl, rfl, rfl, rfl, rfl, rfl⟩) (by rw [hf]; rfl)
  have hq : ∀ x, (t.core c).qrd x = if x = qd then fromAcc (fun i => sat96 (g i)) else (d.core c).qrd x := by
    intro x
    have : (t.core c).qrd x = ((d.core c).qwr qd (fromAcc (fun i => sat96 (g i)))).qrd x := by
      unfold Core.qrd; rw [r.2.2.2.1, hf]; rfl
    rw [this, Core.qrd_qwr]
  refine ⟨⟨fun x => ?_, fun x => ?_, fun x hx => ?_, ?_, r.1⟩, fun i hi => ?_⟩
  · rw [r.2.1 x, hf]; rfl
  · unfold Core.vrd; rw [r.2.2.1, hf]; rfl
  · rw [hq]; simp at hx; simp [hx]
  · rw [r.2.2.2.2, hf]; rfl
  · rw [hq, if_pos rfl, accLane_fromAcc _ i hi (by unfold sat96; rw [clampS_eq]; exact misfit_limit _ _)]
    unfold sat96; rw [clampS_eq]

end Sys2Proof.Machine
end

