-- ==== Sys2Proof/Tests/Slice0.lean ====
section
/-!
SUPPORT. Tests: ill-formed terms, words written out from the encodings, edge results of the spec's tables, and states that meet the
hypotheses of the statements.
-/
namespace Sys2Proof.Tests

open Sys2Proof.Machine

set_option Elab.async false

/-! Small states. -/

/-- A device with some registers of units written: unit, offset, value. -/
def devWith (rs : List (Nat × Nat × Nat)) (d : Dev := Dev.reset) : Dev :=
  rs.foldl (fun d r => d.setReg r.1 r.2.1 (BitVec.ofNat 64 r.2.2)) d

/-- The device after a command that answers a next state. -/
def after (o : Host.Outcome State Fault Refusal) : Dev :=
  match o with
  | .next t => t.dev
  | _ => Dev.reset

/-- A core that runs in deterministic mode at the start of its own local store, which holds zeros. -/
def runner : Core := { Core.initial with run := .run, placed := true, pc := 0xE0001FF00000, sCorectl := 2 }

/-- A device whose core 0 is a given one and has left its clearing walks behind. -/
def devOf (k : Core) (rs : List (Nat × Nat × Nat) := []) : Dev := (devWith ((coreUid 0, 0x4000, 0) :: rs)).setCore 0 k

/-- The state of that device, with no command waiting. -/
def stOf (k : Core) (rs : List (Nat × Nat × Nat) := []) : State := ⟨[], devOf k rs⟩

/-- That core with two registers given. -/
def with2 (a b : Word) : Core := (runner.wr 1 a).wr 2 b

/-- The device at a boundary, and whether the boundary lets the instruction pass with so many port steps. -/
def gateDev : Gate → Dev
  | .stop d => d
  | .go d _ _ => d
def gateGo (g : Gate) (n : Nat) (far : Bool) : Bool :=
  match g with
  | .stop _ => false
  | .go _ m f => m == n && f == far

def quietB (d : Dev) (c : CoreId) : Bool :=
  SMap.get (fun _ => 0) d.db.stepping c == 0 && (List.range 4).all (fun n => !d.flag (coreUid c) (0xF108 + 16 * n) 0) &&
    !d.flag (coreUid c) 0xF800 0 && decide ((d.core c).afterSync = [])

theorem quiet_of (d : Dev) (c : CoreId) (h : quietB d c = true) : d.Quiet c := by
  simp only [quietB, Bool.and_eq_true, beq_iff_eq, List.all_eq_true, List.mem_range, Bool.not_eq_eq_eq_not, Bool.not_true,
    decide_eq_true_eq] at h
  exact ⟨h.1.1.1, fun n hn => h.1.1.2 n hn, h.1.2, h.2⟩

theorem ready_of (s : State) (c : CoreId) (n : Nat) (far : Bool) (hg : gateGo (s.dev.gate c) n far = true)
    (hq : quietB (gateDev (s.dev.gate c)) c = true) : s.Ready c (gateDev (s.dev.gate c)) n far := by
  refine ⟨?_, quiet_of _ _ hq⟩
  cases h : s.dev.gate c with
  | stop d => simp [h, gateGo] at hg
  | go d m f => simp [h, gateGo] at hg; simp [gateDev, hg]

/-- The device at the boundary of core 0 of a state. -/
def at0 (s : State) : Dev := gateDev (s.dev.gate 0)

/-- A state in which core 0 is ready, with whatever else is asked of the device at its boundary. -/
def readyB (s : State) (n : Nat) (p : Dev → Bool) : Bool :=
  gateGo (s.dev.gate 0) n false && quietB (at0 s) 0 && p (at0 s)

theorem ready_with (s : State) (n : Nat) (p : Dev → Bool) (h : readyB s n p = true) :
    s.Ready 0 (at0 s) n false ∧ p (at0 s) = true := by
  simp only [readyB, Bool.and_eq_true] at h
  exact ⟨ready_of s 0 n false h.1.1 h.1.2, h.2⟩

theorem witness_ready : (stOf (with2 7 2)).Ready 0 (at0 (stOf (with2 7 2))) 1 false :=
  ready_of _ _ _ _ (by decide +kernel) (by decide +kernel)


/-! Ill-formed terms, one for each check of Instr.wf, beside a legal neighbour. -/

theorem test_wf_shift : (Instr.slli 0 1 2 true 32).wf = false ∧ (Instr.srli 0 1 2 true 32).wf = false ∧
    (Instr.srai 0 1 2 true 32).wf = false ∧ (Instr.slli 0 1 2 true 31).wf = true ∧ (Instr.slli 0 1 2 false 63).wf = true := by decide
theorem test_wf_fence : (Instr.fence 0 16).wf = false ∧ (Instr.fence 0 0).wf = false ∧ (Instr.fence 0 15).wf = true := by decide
theorem test_wf_lane_shift : (Instr.vslli 0 1 2 16 true).wf = false ∧ (Instr.vsrli 0 1 2 16 true).wf = false ∧
    (Instr.vsrai 0 1 2 16 true).wf = false ∧ (Instr.vslsi 0 1 2 16 true).wf = false ∧ (Instr.vslli 0 1 2 31 false).wf = true := by decide
theorem test_wf_multiply : (Instr.vmul 0 1 2 3 6 false).wf = false ∧ (Instr.vmac 0 1 2 3 0 true).wf = false ∧
    (Instr.vmsu 0 1 2 3 7 false).wf = false ∧ (Instr.vmacx 0 1 2 3 4 true 0).wf = false ∧ (Instr.vmsux 0 1 2 3 6 false 0).wf = false ∧
    (Instr.vdot 0 1 2 3 1 true 0).wf = false ∧ (Instr.vdotn 0 1 2 3 6 true 0).wf = false ∧ (Instr.vmul 0 1 2 3 2 true).wf = true := by decide
theorem test_wf_biquad : (Instr.vbiq 0 1 2 5 8 0).wf = false ∧ (Instr.vbiq 0 1 2 4 12 0).wf = false ∧ (Instr.vbiq 0 7 2 4 8 0).wf = false ∧
    (Instr.vbiq 0 12 2 4 8 0).wf = false ∧ (Instr.vbiq 0 1 2 4 8 3).wf = false ∧ (Instr.vbiq 0 13 5 4 8 0).wf = true := by decide
theorem test_wf_narrow : (Instr.vnrw 0 1 2 5 false 0 false 0).wf = false ∧ (Instr.vnrw 0 1 2 0 true 0 false 0).wf = false ∧
    (Instr.vnrwc 0 1 2 0 false 3 false 0).wf = false ∧ (Instr.vnrwc 0 1 2 0 false 0 true 32).wf = false ∧
    (Instr.vnrw 0 1 2 4 true 2 true 31).wf = true := by decide
theorem test_wf_format : (Instr.vqwid 0 1 2 5 false).wf = false ∧ (Instr.vqacc 0 1 2 3 true).wf = false ∧
    (Instr.vqwid 0 1 2 4 true).wf = true := by decide
theorem test_wf_ramp : (Instr.vramp 0 1 2 5 0).wf = false ∧ (Instr.vramp 0 6 2 4 0).wf = false ∧ (Instr.vramp 0 1 2 4 3).wf = false ∧
    (Instr.vramp 0 7 2 4 0).wf = true := by decide
theorem test_wf_lane_index : (Instr.vmvlw 0 1 2 16 false).wf = false ∧ (Instr.vinsw 0 1 2 16 false).wf = false ∧
    (Instr.vmvlw 0 1 2 31 true).wf = true := by decide

/-! Words of instructions written out from the encodings, beyond those of the obligation DecodesWords: one more of each family. -/

theorem test_decode_words :
    decodeLys 7 (0x02 * 2 ^ 26 + 3 * 2 ^ 21 + 4 * 2 ^ 16 + 5 * 2 ^ 11) = some (.mul 7 3 4 5) ∧
    decodeLys 7 (0x24 * 2 ^ 26 + 1) = some (.j 7 1) ∧
    decodeLys 7 (0x1E * 2 ^ 26 + 15) = some (.fence 7 15) ∧
    decodeLys 7 (0x28 * 2 ^ 26) = some (.mfc 7 0 0) ∧
    decodeLys 7 (0x04000000 + 1) = some (.sub 7 0 0 0) := by decide +kernel

/-! Integer instructions: the edge results of Table 3-5 (R116). -/

/-- Core 0 after an instruction that it runs with w1 and w2 given. -/
def ran (i : Instr) (a b : Word) : Core := (after (exec i (stOf (with2 a b)))).core 0

def min64 : Word := 0x8000000000000000
def ones : Word := 0xFFFFFFFFFFFFFFFF

theorem test_div_edges :
    (ran (.div 0 3 1 2) 9 0).rd 3 = 0 ∧ (ran (.div 0 3 1 2) 9 0).astat = 1 ∧ (ran (.div 0 3 1 2) min64 ones).rd 3 = min64 ∧
    (ran (.div 0 3 1 2) min64 ones).astat = 2 ∧ (ran (.div 0 3 1 2) (BitVec.ofInt 64 (-7)) 2).rd 3 = BitVec.ofInt 64 (-3) ∧
    (ran (.div 0 3 1 2) 7 (BitVec.ofInt 64 (-2))).rd 3 = BitVec.ofInt 64 (-3) := by decide +kernel
theorem test_rem_edges :
    (ran (.rem 0 3 1 2) 9 0).rd 3 = 9 ∧ (ran (.rem 0 3 1 2) min64 ones).rd 3 = 0 ∧
    (ran (.rem 0 3 1 2) (BitVec.ofInt 64 (-7)) 2).rd 3 = ones ∧ (ran (.rem 0 3 1 2) 7 (BitVec.ofInt 64 (-2))).rd 3 = 1 := by decide +kernel
theorem test_divide_words :
    (ran (.divw 0 3 1 2) 0x80000000 0xFFFFFFFF).rd 3 = 0xFFFFFFFF80000000 ∧ (ran (.remw 0 3 1 2) 0x80000000 0xFFFFFFFF).rd 3 = 0 ∧
    (ran (.divu 0 3 1 2) min64 ones).rd 3 = 0 ∧ (ran (.remuw 0 3 1 2) 0x80000001 0x100000000).rd 3 = 0xFFFFFFFF80000001 ∧
    (ran (.divuw 0 3 1 2) 5 0x100000000).astat = 1 := by decide +kernel
theorem test_multiply_edges :
    (ran (.mul 0 3 1 2) min64 ones).rd 3 = min64 ∧ (ran (.mulv 0 3 1 2) min64 ones).astat = 2 ∧
    (ran (.mulh 0 3 1 2) min64 min64).rd 3 = 0x4000000000000000 ∧ (ran (.mulhu 0 3 1 2) ones ones).rd 3 = 0xFFFFFFFFFFFFFFFE ∧
    (ran (.mul 0 3 1 2) ones ones).rd 3 = 1 ∧ (ran (.addv 0 3 1 2) 0x7FFFFFFFFFFFFFFF 1).rd 3 = min64 ∧
    (ran (.addv 0 3 1 2) 0x7FFFFFFFFFFFFFFF 1).astat = 2 ∧ (ran (.subv 0 3 1 2) min64 1).rd 3 = 0x7FFFFFFFFFFFFFFF := by decide +kernel
theorem test_zero_register : (ran (.addi 0 0 1 5) 9 0).rd 0 = 0 ∧ (ran (.addi 0 0 1 5) 9 0).pc = 0xE0001FF00004 ∧
    (ran (.addi 0 5 1 0xFFF0) 9 0).rd 5 = BitVec.ofInt 64 (-7) := by decide +kernel
theorem test_jalr_reads_first : (ran (.jalr 0 1 1 6) 0xE0001FF00040 0).pc = 0xE0001FF00044 ∧
    (ran (.jalr 0 1 1 6) 0xE0001FF00040 0).rd 1 = 0xE0001FF00004 := by decide +kernel
theorem test_trap : (ran (.svc 0 0x123) 0 0).sCause = 0x0000012300000003 ∧ (ran (.svc 0 0x123) 0 0).sEpc = 0xE0001FF00000 ∧
    (ran (.svc 0 0x123) 0 0).pc = 0 := by decide +kernel

/-! Vector instructions: Table 4-11 (R205), the example of R195 and the fade of R197. -/

/-- Core 0 after an instruction that it runs with some vector registers and accumulators given. -/
def vran (i : Instr) (vs : List (RIx × BitVec 512)) (qs : List (QIx × BitVec 1536) := []) : Core :=
  (after (exec i (stOf { runner with v := vs.foldl (fun v x => v.set x.1 x.2) runner.v,
                                     q := qs.foldl (fun q x => q.set x.1 x.2) runner.q }))).core 0

theorem test_vmac_edges :
    (vran (.vmac 0 0 1 2 0 false) [(1, 0x80000000), (2, 0x80000000)]).qrd 0 = 0x4000000000000000 ∧
    (vran (.vmac 0 0 1 2 0 false) [(1, 0xFFFFFFFF), (2, 1)]).qrd 0 = 0xFFFFFFFFFFFFFFFFFFFFFFFF ∧
    (vran (.vmac 0 0 1 2 1 false) [(1, 0x80000000), (2, 0x80000000)]).qrd 0 = 0x10000000000000000 ∧
    (vran (.vmac 0 0 1 2 2 false) [(1, 0x8000), (2, 0x8000)]).qrd 0 = 0x4000000000000000 ∧
    (vran (.vmac 0 0 1 2 0 false) [(1, 0x40000000), (2, 0x40000000)] [(0, 0x7FFFFFFFFFFFFFFFFFFFFFFF)]).vstat = 8 ∧
    (vran (.vmsu 0 0 1 2 0 false) [(1, 0x40000000), (2, 0x40000000)] [(0, 0x800000000000000000000000)]).qrd 0 =
      0x800000000000000000000000 := by decide +kernel
theorem test_narrowing_edges :
    (vran (.vnrw 0 1 0 0 false 0 false 0) [] [(0, 0x4000000000000000)]).vrd 1 = 0x7FFFFFFF ∧
    (vran (.vnrw 0 1 0 0 false 0 false 0) [] [(0, 0x40000000)]).vstat = 6 ∧
    (vran (.vnrw 0 1 0 0 false 1 false 0) [] [(0, 0x40000000)]).vrd 1 = 1 ∧
    (vran (.vnrw 0 1 0 0 false 2 false 0) [] [(0, 0xFFFFFFFFFFFFFFFFC0000000)]).vrd 1 = 0xFFFFFFFF ∧
    (vran (.vnrw 0 1 0 0 false 0 false 0) [] [(0, 0xC0000000)]).vrd 1 = 2 ∧
    (vran (.vnrw 0 1 0 0 false 0 false 0x7E) [] [(0, 2 ^ 60)]).vrd 1 = 0x7FFFFFFF ∧
    (vran (.vnrw 0 1 0 2 false 0 false 0) [] [(0, 0x4000000000000000)]).vrd 1 = 0x7FFF := by decide +kernel
theorem test_lane_edges :
    (vran (.vadd 0 3 1 2 false) [(1, 0x7FFFFFFF), (2, 1)]).vrd 3 = 0x80000000 ∧
    (vran (.vadds 0 3 1 2 false) [(1, 0x7FFFFFFF), (2, 1)]).vrd 3 = 0x7FFFFFFF ∧
    (vran (.vsubs 0 3 1 2 false) [(1, 0x80000000), (2, 1)]).vstat = 1 ∧ (vran (.vabs 0 3 1 false) [(1, 0x80000000)]).vrd 3 = 0x7FFFFFFF ∧
    (vran (.vneg 0 3 1 false) [(1, 0x80000000)]).vrd 3 = 0x7FFFFFFF ∧ (vran (.vslsi 0 3 1 1 false) [(1, 0x40000000)]).vrd 3 = 0x7FFFFFFF ∧
    ((vran (.vnorm 0 3 1 false) [(1, 0x80000000C000000000000001FFFFFFFF00000000)]).vrd 3).extractLsb' 0 160 =
      0x00000000000000010000001E0000001F0000001F ∧
    (vran (.vnormq 0 3 0) []).rd 3 = 95 := by decide +kernel
theorem test_ramp_edges :
    (vran (.vramp 0 7 1 4 0) [(1, 0x80000000), (4, 0x20000000), (6, 0x20000000)]).vrd 7 = 0x80000000 ∧
    (vran (.vramp 0 7 1 4 0) [(1, 0x80000000), (4, 0x80000000), (6, 0x80000000)]).vrd 7 = 0x7FFFFFFF ∧
    (vran (.vramp 0 7 1 4 0) [(1, 0x40000000), (5, 0x00800000), (6, 0x20000000)]).vrd 4 = 0x00800000 := by decide +kernel
theorem test_biquad_example :
    let k (rm : BitVec 2) := vran (.vbiq 0 16 1 4 8 rm) [(1, 0x20000000), (6, 1), (8, 0x10000000), (11, 0xF0000000)]
    (k 0).vrd 16 = 0x10000000 ∧ (k 1).vrd 16 = 0x10000001 ∧ (k 2).vrd 16 = 0x10000000 ∧ (k 0).vstat = 2 ∧ (k 0).vrd 4 = 0x20000000 ∧
    (k 1).vrd 6 = 0x10000001 ∧ (k 0).vrd 7 = 1 := by decide +kernel

/-! Witnesses: for each statement with hypotheses, states and operands that meet them. Core 0 is ready at the first instruction of its
local store. -/

/-- Core 0 is ready in a state, and the device at its boundary has a property. -/
def Meets (s : State) (p : Dev → Bool) : Prop := s.Ready 0 (at0 s) 1 false ∧ p (at0 s) = true

theorem meets_of (s : State) (p : Dev → Bool) (h : readyB s 1 p = true) : Meets s p := ready_with s 1 p h

theorem witness_StepIdle : State.reset.pending = [] := rfl
theorem witness_DecodeOfEncode : (encodeLys (.vbiq 3 13 5 4 8 2)).map (·.1) = some 3 ∧ (Instr.vbiq 3 13 5 4 8 2).wf = true := by
  decide +kernel
theorem witness_EncodeOfDecode : 0xC5152401 < 2 ^ 32 ∧ decodeLys 287 0xC5152401 = some (.vmac 287 2 5 9 1 false) := by decide +kernel
theorem witness_AluRegisterResults : Meets (stOf (with2 7 2)) (fun _ => true) := meets_of _ _ (by decide +kernel)
theorem witness_AluUnaryResults : Meets (stOf (with2 7 2)) (fun _ => true) := witness_AluRegisterResults
theorem witness_AluImmediateResults : Meets (stOf (with2 7 2)) (fun _ => true) := witness_AluRegisterResults
/-- A sum that does not fit, with the trap off: OV alone is asked to have no trap. -/
theorem witness_CheckedResults : Meets (stOf (with2 0x7FFFFFFFFFFFFFFF 1)) (fun d => !bit (d.core 0).astat 9) :=
  meets_of _ _ (by decide +kernel)
theorem witness_DivideResults : Meets (stOf (with2 min64 ones)) (fun d => !bit (d.core 0).astat 9) ∧
    Meets (stOf (with2 min64 0)) (fun d => !bit (d.core 0).astat 8) :=
  ⟨meets_of _ _ (by decide +kernel), meets_of _ _ (by decide +kernel)⟩
/-- With both traps on: a zero divisor, a zero low word, the two overflowing quotients, and the least results that do not fit. -/
theorem witness_ArithmeticTraps :
    let k (a b : Word) : State := stOf { with2 a b with astat := 0x300 }
    let p (q : Word → Word → Bool) (d : Dev) : Bool :=
      decide ((d.core 0).staged = []) && bit (d.core 0).astat 8 && bit (d.core 0).astat 9 && q ((d.core 0).rd 1) ((d.core 0).rd 2)
    Meets (k 9 0) (p fun _ b => decide (b = 0)) ∧ Meets (k 9 0x100000000) (p fun _ b => decide (b.setWidth 32 = 0#32)) ∧
    Meets (k min64 ones) (p fun a b => decide (a.toInt = -2 ^ 63 ∧ b.toInt = -1)) ∧
    Meets (k 0x80000000 0xFFFFFFFF) (p fun a b => decide (s32 a = -2 ^ 31 ∧ s32 b = -1)) ∧
    Meets (k 0x7FFFFFFF 1) (p fun a b => decide (2 ^ 31 ≤ s32 a + s32 b)) ∧ Meets (k 0x80000000 1) (p fun a b => decide (s32 a - s32 b < -2 ^ 31)) ∧
    Meets (k 0x10000 0x8000) (p fun a b => decide (2 ^ 31 ≤ s32 a * s32 b)) ∧
    Meets (k 0x7FFFFFFFFFFFFFFF 1) (p fun a b => decide (2 ^ 63 ≤ a.toInt + b.toInt)) ∧
    Meets (k min64 1) (p fun a b => decide (a.toInt - b.toInt < -2 ^ 63)) ∧
    Meets (k 0x100000000 0x80000000) (p fun a b => decide (2 ^ 63 ≤ a.toInt * b.toInt)) := by
  refine ⟨?_, ?_, ?_, ?_, ?_, ?_, ?_, ?_, ?_, ?_⟩ <;> exact meets_of _ _ (by decide +kernel)
theorem witness_ConditionalBranches : Meets (stOf (with2 0 min64)) (fun d => decide ((d.core 0).rd 1 = 0 ∧ ((d.core 0).rd 2).toInt < 0)) :=
  meets_of _ _ (by decide +kernel)
theorem witness_Jumps : Meets (stOf (with2 0xE0001FF00047 0)) (fun _ => true) := meets_of _ _ (by decide +kernel)
theorem witness_VectorLanes : Meets (stOf runner) (fun _ => true) ∧ (31 : BitVec 5).toNat < laneW false ∧ (15 : BitVec 5).toNat < laneW true :=
  ⟨meets_of _ _ (by decide +kernel), by decide, by decide⟩
theorem witness_VectorSaturation : Meets (stOf runner) (fun _ => true) ∧ (31 : BitVec 5).toNat < laneW false ∧
    (15 : BitVec 5).toNat < laneW true := witness_VectorLanes
theorem witness_VectorMovesAndStatus : Meets (stOf runner) (fun _ => true) ∧ (15 : BitVec 5).toNat < laneN false ∧
    (31 : BitVec 5).toNat < laneN true := ⟨witness_VectorLanes.1, by decide, by decide⟩
theorem witness_MultiplyAccumulate : Meets (stOf runner) (fun _ => true) ∧ (5 : BitVec 3).toNat < 6 ∧
    (true = true → (5 : BitVec 3) = 2 ∨ (5 : BitVec 3) = 3 ∨ (5 : BitVec 3) = 5) := ⟨witness_VectorLanes.1, by decide, by decide⟩
theorem witness_AccumulatorOperations : Meets (stOf runner) (fun _ => true) ∧ (4 : BitVec 3).toNat < 5 ∧
    (true = true → (4 : BitVec 3) = 2 ∨ (4 : BitVec 3) = 4) := ⟨witness_VectorLanes.1, by decide, by decide⟩
theorem witness_Narrowing : Meets (stOf runner) (fun _ => true) ∧ (4 : BitVec 3).toNat < 5 ∧
    (true = true → (4 : BitVec 3) = 2 ∨ (4 : BitVec 3) = 4) ∧ (2 : BitVec 2) ≠ 3 ∧ (true = true → (31 : BitVec 7).toNat < 32) :=
  ⟨witness_VectorLanes.1, by decide, by decide, by decide, by decide⟩
/-- The group 28 to 31 for the state, 16 to 20 for the coefficients and v0 for the result; the gain's group 28 to 30. -/
theorem witness_BiquadAndRamp : Meets (stOf runner) (fun _ => true) ∧
    (let vd : RIx := 0; let vs : RIx := 28; let vc : RIx := 16
     vs.val % 4 = 0 ∧ vc.val % 8 = 0 ∧ (29 : RIx).val = vs.val + 1 ∧ (30 : RIx).val = vs.val + 2 ∧ (31 : RIx).val = vs.val + 3 ∧
       (17 : RIx).val = vc.val + 1 ∧ (20 : RIx).val = vc.val + 4 ∧ (vd.val < vs.val ∨ vs.val + 3 < vd.val) ∧
       (vd.val < vc.val ∨ vc.val + 4 < vd.val)) ∧
    (let vd : RIx := 31; let vg : RIx := 28
     vg.val % 4 = 0 ∧ (29 : RIx).val = vg.val + 1 ∧ (30 : RIx).val = vg.val + 2 ∧ (vd.val < vg.val ∨ vg.val + 2 < vd.val)) :=
  ⟨witness_VectorLanes.1, by decide, by decide⟩

/-! Accesses to the local store of core 0, with w1 an address in it. -/

/-- An access that is permitted, with what is asked of the device and the parts then. -/
def okWith (x : Checked) (p : Dev → List Part → Bool) : Bool :=
  match x with
  | .ok e ps => p e ps
  | _ => false

theorem okWith_spec (x : Checked) (p : Dev → List Part → Bool) (h : okWith x p = true) : ∃ e ps, x = .ok e ps ∧ p e ps = true := by
  cases x with
  | ok e ps => exact ⟨e, ps, rfl, h⟩
  | wait d => simp [okWith] at h
  | cause d x => simp [okWith] at h

/-- An access that ends well, with its core quiet then. -/
def fineB {α β : Type} (r : Dev × Except α β) (c : CoreId) : Bool :=
  match r.2 with
  | .ok _ => quietB r.1 c
  | .error _ => false
/-- The local store of core 0 at an offset. -/
def selfAt (off : Nat) : Word := BitVec.ofNat 64 (0xE0001FF00000 + off)

/-- A load of core 0 at its boundary in a state is permitted and ends well. -/
def readsB (s : State) (strict : Option Nat) (old fwd : Bool) (is : List Item) : Bool :=
  readyB s 1 (fun d => okWith (d.access 0 .load strict is) (fun e ps => fineB (e.loadParts 0 old fwd ps) 0))

theorem reads_of (s : State) (strict : Option Nat) (old fwd : Bool) (is : List Item) (h : readsB s strict old fwd is = true) :
    s.Ready 0 (at0 s) 1 false ∧ ∃ e bs, (at0 s).Reads 0 strict old fwd is e bs := by
  obtain ⟨hr, hp⟩ := ready_with _ _ _ h
  obtain ⟨d1, ps, ha, hl⟩ := okWith_spec _ _ hp
  refine ⟨hr, ?_⟩
  rcases hx : d1.loadParts 0 old fwd ps with ⟨f, x | bs⟩
  · simp [hx, fineB] at hl
  · simp only [hx, fineB] at hl
    exact ⟨f, bs, d1, ps, ha, hx, quiet_of _ _ hl⟩

/-- A store of core 0 at its boundary in a state is permitted and made. -/
def storesB (s : State) (is : List Item) (bs : List Byte) : Bool :=
  readyB s 1 (fun d => okWith (d.access 0 .store none is) (fun e ps => (e.storeParts 0 false ps bs).2.isNone && quietB (e.storeParts 0 false ps bs).1 0))

theorem stores_of (s : State) (is : List Item) (bs : List Byte) (h : storesB s is bs = true) :
    s.Ready 0 (at0 s) 1 false ∧ ∃ e, (at0 s).Stores 0 is bs e := by
  obtain ⟨hr, hp⟩ := ready_with _ _ _ h
  obtain ⟨d1, ps, ha, hl⟩ := okWith_spec _ _ hp
  simp only [Bool.and_eq_true, Option.isNone_iff_eq_none] at hl
  exact ⟨hr, _, d1, ps, ha, Prod.ext rfl hl.1, quiet_of _ _ hl.2⟩

/-- An access of core 0 at its boundary in a state is permitted, with what is asked of the device and the parts then. -/
theorem access_of (s : State) (kind : AKind) (strict : Option Nat) (is : List Item) (p : Dev → List Part → Bool)
    (h : readyB s 1 (fun d => okWith (d.access 0 kind strict is) p) = true) :
    s.Ready 0 (at0 s) 1 false ∧ ∃ e ps, (at0 s).access 0 kind strict is = .ok e ps ∧ p e ps = true := by
  obtain ⟨hr, hp⟩ := ready_with _ _ _ h
  exact ⟨hr, okWith_spec _ _ hp⟩

/-- The last doubleword of the local store is in w1. -/
def lastWord : State := stOf (with2 (selfAt (2 ^ 17 - 8)) 5)

/-- A device whose core 0 has a window onto SDRAM from address 0, with channel 0 in service and slice 0 as the only home. -/
def sdDev : Dev := devWith [(hubUid 0, offRange 0, 1), (hubUid 0, offRange 0 + 8, 1 + 2 ^ 16 * 8), (mcUid 0, 0x4030, 2 + 8 * 2 ^ 9),
  (hubUid 0, 0x4000, 1), (coreUid 0, 0x4300, l3Uid 0 + 2 ^ 16), (coreUid 4, 0x4300, l3Uid 0 + 2 ^ 16), (l3Uid 0, 0x4010, 1 + 0xFFFF * 2 ^ 16),
  (coreUid 0, offWin 0, 1), (coreUid 0, offWin 0 + 8, 48 + 0xFFFFF00), (coreUid 0, 0x4000, 0)]

/-- That device with core 0 running and an address of SDRAM in w1. -/
def sdSt (a : Word) : State := ⟨[], sdDev.setCore 0 (with2 a 5)⟩

theorem witness_Loads :
    (lastWord.Ready 0 (at0 lastWord) 1 false ∧ ∃ e bs, (at0 lastWord).Reads 0 none false true [⟨0xE0001FF1FFF8, 8, 8⟩] e bs) ∧
    ((sdSt 0x3D).Ready 0 (at0 (sdSt 0x3D)) 1 false ∧ ∃ e bs, (at0 (sdSt 0x3D)).Reads 0 none false true [⟨0x3D, 8, 8⟩] e bs) :=
  ⟨reads_of _ _ _ _ _ (by decide +kernel), reads_of _ _ _ _ _ (by decide +kernel)⟩

theorem witness_Stores :
    (lastWord.Ready 0 (at0 lastWord) 1 false ∧ ∃ e, (at0 lastWord).Stores 0 [⟨0xE0001FF1FFF8, 8, 8⟩] (natLe 8 5) e) ∧
    ((sdSt 0x3D).Ready 0 (at0 (sdSt 0x3D)) 1 false ∧ ∃ e, (at0 (sdSt 0x3D)).Stores 0 [⟨0x3D, 8, 8⟩] (natLe 8 5) e) :=
  ⟨stores_of _ _ _ (by decide +kernel), stores_of _ _ _ (by decide +kernel)⟩

/-- A load of 8 bytes of WB memory that cross a granule, and a store to its parts. -/
theorem witness_AccessesKeepRegisters : ((at0 (sdSt 0x3D)).core 0).sb = [] ∧ (sdSt 0x3D).Ready 0 (at0 (sdSt 0x3D)) 1 false ∧
    ∃ e ps, (at0 (sdSt 0x3D)).access 0 .load none [⟨0x3D, 8, 8⟩] = .ok e ps ∧
      (ps.all (fun p => !p.self && cacheable p.rpa && p.mt == .wb) && fineB (e.loadParts 0 false true ps) 0 &&
        ps.all (fun p => (e.storePart 0 p false (List.replicate p.n 7)).2.isNone)) = true :=
  ⟨by decide +kernel, access_of _ _ _ _ _ (by decide +kernel)⟩

theorem witness_LocalStoreBytes : 2 ^ 17 - 8 + (natLe 8 5).length ≤ 2 ^ 17 ∧
    (∀ w ∈ wordsOf (2 ^ 17 - 8) 8, SMap.get (fun _ => ([] : List Nat)) Dev.reset.localErr ((0 : CoreId).val * 2 ^ 14 + w) = []) ∧
    SMap.wf zeroByte Dev.reset.localStore = true := by decide +kernel

/-- The last doubleword, in deterministic and in normal mode. -/
theorem witness_LocalStoreAccesses :
    let p (mode : Bool) (d : Dev) : Bool :=
      let k := d.core 0
      decide ((k.rd 1 + sWord (0 : BitVec 16).toInt).toNat = 0xE0001FF00000 + (2 ^ 17 - 8)) && !bit k.sTbase 0 && decide (k.sb = []) &&
        !d.quiesced 0 && decide (SMap.get (fun _ => ([] : List Nat)) d.localErr ((0 : CoreId).val * 2 ^ 14 + (2 ^ 17 - 8) / 8) = []) && k.dmode == mode
    (2 ^ 17 - 8) % 8 = 0 ∧ Meets lastWord (p true) ∧ Meets (stOf { with2 (selfAt (2 ^ 17 - 8)) 5 with sCorectl := 0 }) (p false) :=
  ⟨rfl, meets_of _ _ (by decide +kernel), meets_of _ _ (by decide +kernel)⟩

/-- A normal-mode core with 31 buffered stores; one whose youngest store holds the bytes of a load; and one whose first two entries
lie at different bytes of the local store. -/
theorem witness_StoreBuffer :
    let e (a : Nat) : SbEntry := ⟨a, [1, 2, 3, 4], .wb, false, false, a⟩
    let p : Part := ⟨0x100, 0x100, 0x100, 4, .wb, false, false, false, none⟩
    (p.self = false ∧ devType p.mt = false ∧ ((devOf { runner with sb := List.replicate 31 (e 0x100), sCorectl := 0 }).core 0).dmode = false ∧
      ((devOf { runner with sb := List.replicate 31 (e 0x100), sCorectl := 0 }).core 0).sb.length < 32) ∧
    (((devOf { runner with sb := [e 0x100, e 0x200] }).core 0).sb = [] ++ e 0x100 :: [e 0x200] ∧
      (∀ y ∈ [e 0x200], y.overlaps p.rpa p.n = false) ∧ (e 0x100).overlaps p.rpa p.n = true ∧ (e 0x100).pa ≤ p.rpa ∧
      p.rpa + p.n ≤ (e 0x100).pa + (e 0x100).data.length ∧ inSelf (e 0x100).pa = false) ∧
    (let s := stOf { runner with sb := [e 0xE0001FF00000, e 0xE0001FF1FFFC] }
     (s.dev.core 0).sb[1]? = some (e 0xE0001FF1FFFC) ∧
       (∀ o ∈ (s.dev.core 0).sb.take 1, o.overlaps (e 0xE0001FF1FFFC).pa 4 = false) ∧ inSelf (e 0xE0001FF1FFFC).pa = true ∧
       (e 0xE0001FF1FFFC).pa - 0xE0001FF00000 + 4 ≤ 2 ^ 17 ∧
       ∀ w ∈ wordsOf ((e 0xE0001FF1FFFC).pa - 0xE0001FF00000) 4, SMap.get (fun _ => ([] : List Nat)) s.dev.localErr w = []) := by decide +kernel

/-- LRES with and without release, and LDNT, read the last doubleword. -/
theorem witness_OrderedLoads : lastWord.Ready 0 (at0 lastWord) 1 false ∧
    ∃ e ps, (at0 lastWord).access 0 .load (some 8) [⟨0xE0001FF1FFF8, 8, 8⟩] = .ok e ps ∧
      (ps.head?.isSome && fineB (e.loadParts 0 false false ps) 0 && fineB ((e.sbFlush 0).loadParts 0 false false ps) 0 &&
        fineB (e.loadParts 0 true true ps) 0) = true := access_of _ _ _ _ _ (by decide +kernel)

/-- SCOM at the last doubleword, with the reservation of an LRES there, and with none. -/
theorem witness_CommitStores :
    let held : State := ⟨[], { lastWord.dev with resv := [(0, some ⟨0xE0000001FFF8, 8, 5⟩)] }⟩
    let p (same : Bool) (f : Nat → Option Nat) (e : Dev) (ps : List Part) : Bool := match ps with
      | q :: _ =>
        let d2 := (e.sbFlush 0).sbBefore 0 q
        (match SMap.get (fun _ => none) d2.resv (0 : CoreId) with
         | some r => same && decide (r.addr = resvAddr 0 q ∧ r.size = 8)
         | none => !same) && fineB ((d2.dropResv 0).atomicPart 0 q f) 0
      | [] => false
    (held.Ready 0 (at0 held) 1 false ∧ ∃ e ps, (at0 held).access 0 .store (some 8) [⟨0xE0001FF1FFF8, 8, 8⟩] = .ok e ps ∧
      p true (fun _ => some 5) e ps = true) ∧
    (lastWord.Ready 0 (at0 lastWord) 1 false ∧ ∃ e ps, (at0 lastWord).access 0 .store (some 8) [⟨0xE0001FF1FFF8, 8, 8⟩] = .ok e ps ∧
      p false (fun _ => none) e ps = true) := ⟨access_of _ _ _ _ _ (by decide +kernel), access_of _ _ _ _ _ (by decide +kernel)⟩

/-- AADD and STL at the last doubleword; and the part of the local store that the last clause is about. -/
theorem witness_AtomicOperations :
    (lastWord.Ready 0 (at0 lastWord) 1 false ∧ ∃ e ps, (at0 lastWord).access 0 .atomic (some 8) [⟨0xE0001FF1FFF8, 8, 8⟩] = .ok e ps ∧
      (match ps with
       | q :: _ => fineB (((e.sbFlush 0).sbBefore 0 q).atomicPart 0 q (fun old => some ((old + 5) % 2 ^ 64))) 0
       | [] => false) = true) ∧
    (lastWord.Ready 0 (at0 lastWord) 1 false ∧ ∃ e ps, (at0 lastWord).access 0 .store (some 8) [⟨0xE0001FF1FFF8, 8, 8⟩] = .ok e ps ∧
      (match ps with
       | q :: _ => ((e.sbFlush 0).writePart 0 q (natLe 8 5)).2.isNone && quietB ((e.sbFlush 0).writePart 0 q (natLe 8 5)).1 0
       | [] => false) = true) ∧
    (let p : Part := ⟨0xE0001FF1FFF8, 0xE0001FF1FFF8, 0xE0001FF1FFF8, 8, .wb, false, false, true, none⟩
     p.self = true ∧ 0xE0001FF00000 ≤ p.rpa ∧ (p.n = 4 ∨ p.n = 8) ∧ p.rpa % p.n = 0 ∧ p.rpa - 0xE0001FF00000 + p.n ≤ 2 ^ 17 ∧
       SMap.get (fun _ => ([] : List Nat)) Dev.reset.localErr ((0 : CoreId).val * 2 ^ 14 + (p.rpa - 0xE0001FF00000) / 8) = []) :=
  ⟨access_of _ _ _ _ _ (by decide +kernel), access_of _ _ _ _ _ (by decide +kernel), by decide +kernel⟩

/-- FENCE; ZLINE of a line of the local store; CLEAN, FLUSH and INV of a line of SDRAM and of the local store; PREF and PREFW of SDRAM,
and of an address that no window contains. -/
theorem witness_FenceAndMaintenance :
    let line (f : Dev → Rq → Nat → Dev × Except Nat Unit) (d : Dev) (ps : List Part) : Bool := match ps with
      | p :: _ => !(p.self || !cacheable p.rpa) &&
        (let d2 := d.sbDrainOver 0 (p.rpa / 256 * 256) 256
         fineB (f d2 (d2.rqOf 0) p.rpa) 0)
      | [] => false
    let sd : State := sdSt 0x3D
    (lastWord.Ready 0 (at0 lastWord) 1 false ∧ (4 : BitVec 5).toNat % 16 ≠ 0) ∧
    (lastWord.Ready 0 (at0 lastWord) 1 false ∧ ∃ e ps, (at0 lastWord).access 0 .store none [⟨0xE0001FF1FFF8, 1, 1⟩] = .ok e ps ∧
      (match ps with
       | p :: _ => p.self && p.mt == .wb && fineB (((e.sbDrainOver 0 (p.rpa / 256 * 256) 256).dropFetched 0 (p.rpa / 256 * 256) 256).lsWrite 0
           (p.rpa / 256 * 256 - 0xE0001FF00000) (List.replicate 256 0)) 0
       | [] => false) = true) ∧
    (sd.Ready 0 (at0 sd) 1 false ∧ ∃ e ps, (at0 sd).access 0 .load none [⟨0x3D, 1, 1⟩] = .ok e ps ∧
      (line (fun d q a => d.lineClean q a) e ps && line (fun d q a => d.lineFlush q a) e ps) = true) ∧
    (sd.Ready 0 (at0 sd) 1 false ∧ ∃ e ps, (at0 sd).access 0 .store none [⟨0x3D, 1, 1⟩] = .ok e ps ∧
      (decide (((at0 sd).core 0).priv = .s) && line (fun d q a => d.lineInv q a) e ps) = true) ∧
    (lastWord.Ready 0 (at0 lastWord) 1 false ∧ ∃ e ps, (at0 lastWord).access 0 .load none [⟨0xE0001FF1FFF8, 1, 1⟩] = .ok e ps ∧
      (match ps with
       | p :: _ => (p.self || !cacheable p.rpa) && quietB e 0
       | [] => false) = true) ∧
    Meets sd (fun d => !d.walkWaits 0 .load [⟨0x3D, 1, 1⟩] && match d.checkItems 0 .load none [⟨0x3D, 1, 1⟩] with
      | (e, .ok (p :: _)) => p.upd.isNone && !p.self && cacheable p.rpa && p.mt == .wb && !e.partWaits 0 p false &&
          quietB (e.l2Get (e.rqOf 0) p.rpa 0 p.ph false).1 0 && quietB (e.l2Own (e.rqOf 0) p.rpa 0 p.ph).1 0
      | _ => false) ∧
    Meets lastWord (fun d => !d.walkWaits 0 .store [⟨0x3D, 1, 1⟩] && match d.checkItems 0 .store none [⟨0x3D, 1, 1⟩] with
      | (e, .error _) => quietB e 0
      | _ => false) :=
  ⟨⟨(meets_of lastWord (fun _ => true) (by decide +kernel)).1, by decide⟩, access_of _ _ _ _ _ (by decide +kernel),
    access_of _ _ _ _ _ (by decide +kernel), access_of _ _ _ _ _ (by decide +kernel), access_of _ _ _ _ _ (by decide +kernel),
    meets_of _ _ (by decide +kernel), meets_of _ _ (by decide +kernel)⟩

/-- 64 and 192 bytes at the end of the local store, and lanes with a negative stride from there. -/
theorem witness_VectorMemory :
    let st : State := stOf (with2 (selfAt (2 ^ 17 - 192)) (BitVec.ofInt 64 (-8)))
    let a := 0xE0001FF1FF40
    let lanes : List Item := (List.range 16).map (fun i => ⟨(a + i * (2 ^ 64 - 8)) % 2 ^ 64, 4, 4⟩)
    let vl (w e : Nat) (d : Dev) (ps : List Part) : Bool := fineB (d.loadParts 0 false true (ps.flatMap (deviceChunks ⟨a, w, e⟩))) 0 &&
      (d.storeParts 0 false (ps.flatMap (deviceChunks ⟨a, w, e⟩)) (natLe w 1)).2.isNone
    (∃ e ps, (at0 st).access 0 .load none [⟨a, 64, 4⟩] = .ok e ps ∧ vl 64 4 e ps = true) ∧
    (∃ e ps, (at0 st).access 0 .store none [⟨a, 192, 12⟩] = .ok e ps ∧ vl 192 12 e ps = true) ∧
    st.Ready 0 (at0 st) 1 false ∧ ∃ e ps, (at0 st).access 0 .load none lanes = .ok e ps ∧
      (fineB (e.loadParts 0 false false ps) 0 && ((e.sbFlush 0).storeParts 0 true ps (natLe 64 1)).2.isNone) = true :=
  ⟨(access_of _ _ _ _ _ (by decide +kernel)).2, (access_of _ _ _ _ _ (by decide +kernel)).2, access_of _ _ _ _ _ (by decide +kernel)⟩

/-- The least address above 2^48, the last below it and 2^16 below, and the last byte but seven of the self slot's first line. -/
theorem witness_AccessFaults :
    let p (q : Word → Bool) (d : Dev) : Bool := decide ((d.core 0).staged = []) && !bit (d.core 0).sTbase 0 && q ((d.core 0).rd 1)
    Meets (stOf (with2 0x1000000000000 0)) (p fun va => decide (2 ^ 48 ≤ va.toNat ∧ va.toNat % 8 = 0)) ∧
    Meets (stOf (with2 0xFFFFFFFFFFF8 0)) (fun d => p (fun va => decide (va.toNat < 2 ^ 48 ∧ va.toNat % 8 = 0) && !inSelf va.toNat) d &&
      (List.range 16).all (fun i => !d.flag (coreUid 0) (0x4200 + 16 * i) 0)) ∧
    Meets (stOf (with2 (selfAt 1) 0)) (p fun va => inSelf va.toNat && decide (va.toNat % 64 ≤ 56 ∧ va.toNat % 8 ≠ 0)) :=
  ⟨meets_of _ _ (by decide +kernel), meets_of _ _ (by decide +kernel), meets_of _ _ (by decide +kernel)⟩

/-- A copy of the runner with fields of the device beside its core given. -/
def stWith (k : Core) (f : Dev → Dev) (rs : List (Nat × Nat × Nat) := []) : State := ⟨[], f (devOf k rs)⟩

/-- S level, not a replica, with a write of S_ASID pending. -/
theorem witness_ControlRegisters : Meets (stOf { runner with staged := [⟨0x107, 5, 8⟩] }) (fun d =>
    decide ((d.core 0).priv = .s) && !(d.core 0).replica && decide ((d.core 0).staged = [] ++ [⟨0x107, 5, 8⟩])) := meets_of _ _ (by decide +kernel)

theorem witness_CallsAndBreaks :
    Meets (stOf runner) (fun d => decide ((d.core 0).staged = []) && !d.flag (coreUid 0) 0xF008 0) ∧
    Meets (stOf runner [(coreUid 0, 0xF008, 1)]) (fun d => d.flag (coreUid 0) 0xF008 0 && decide ((d.core 0).rep = .none)) :=
  ⟨meets_of _ _ (by decide +kernel), meets_of _ _ (by decide +kernel)⟩

theorem witness_ExceptionReturn :
    Meets (stWith runner (fun d => { d with resv := [(0, some ⟨64, 8, 2⟩)] })) (fun d => decide ((d.core 0).priv = .s) &&
      (match SMap.get (fun _ => none) d.resv (0 : CoreId) with
       | some r => decide (1 < r.left)
       | none => false)) := meets_of _ _ (by decide +kernel)

/-- One word of no instruction, one ill-formed instruction, an unlisted control register; a replica; a cadence that is not granted; U level. -/
theorem witness_IllegalAndPrivileged :
    Meets (stOf runner) (fun d => decide ((d.core 0).staged = []) && decide (decodeLys 0 0xFFFFFFFF = none) && !ctrlListed 0x002 &&
      (encodeLys (.vslli 0 1 2 16 true)).isSome && !(Instr.vslli 0 1 2 16 true).wf &&
      decide (SMap.get (fun _ => 0) d.kp.cads (d.core 0).part / 2 ^ 15 % 2 = 0)) ∧
    Meets (stOf { runner with rep := .a }) (fun d => (d.core 0).replica && decide ((d.core 0).staged = [])) ∧
    Meets (stOf { runner with sStatus := 0 }) (fun d => decide ((d.core 0).priv = .u) && decide ((d.core 0).staged = [])) ∧
    0x100 ≤ (0x109 : BitVec 12).toNat ∧ (0x109 : BitVec 12).toNat ≤ 0x109 :=
  ⟨meets_of _ _ (by decide +kernel), meets_of _ _ (by decide +kernel), meets_of _ _ (by decide +kernel), by decide, by decide⟩

/-- A pending event of priority 3 in vector 255, and a granted cadence with and without a new block. -/
def woken (now : RunState) : State := stWith { runner with inboxPri := [(255, 4)], run := now }
  (fun d => { d with kp := { d.kp with cads := [(0, 1)] }, au := { d.au with done := [(0, 6)] } }) [(coreUid 0, inboxOff 255, 2 ^ 63)]

theorem witness_Waits :
    Meets (stOf runner) (fun d => !(d.core 0).replica && !d.eventAbove 0) ∧ Meets (woken .run) (fun d => !(d.core 0).replica && d.eventAbove 0) ∧
    Meets (stWith runner (fun d => { d with kp := { d.kp with cads := [(0, 1)] } })) (fun d =>
      decide (SMap.get (fun _ => 0) d.kp.cads (d.core 0).part / 2 ^ 0 % 2 = 1) && ((d.sbFlush 0).waitbReady ((d.sbFlush 0).core 0) 0).isNone) ∧
    Meets (woken .run) (fun d => decide (SMap.get (fun _ => 0) d.kp.cads (d.core 0).part / 2 ^ 0 % 2 = 1) &&
      ((d.sbFlush 0).waitbReady ((d.sbFlush 0).core 0) 0).isSome && quietB (d.sbFlush 0) 0) ∧
    (let d := (woken .waite).dev
     d.power (coreUid 0) ≤ 1 ∧ d.halted 0 = false ∧ quietB d 0 = true ∧ (d.core 0).run = .waite ∧ d.eventAbove 0 = true) ∧
    (let d := (woken (.waitb 0 31)).dev
     d.power (coreUid 0) ≤ 1 ∧ d.halted 0 = false ∧ quietB d 0 = true ∧ (d.core 0).run = .waitb 0 31 ∧ (d.waitbReady (d.core 0) 0).isSome = true) :=
  ⟨meets_of _ _ (by decide +kernel), meets_of _ _ (by decide +kernel), meets_of _ _ (by decide +kernel), meets_of _ _ (by decide +kernel),
    by decide +kernel, by decide +kernel⟩

theorem witness_SynchroniseAndInvalidate :
    (let s := stOf { runner with afterSync := [(8, 0x1FF)] }
     gateGo (s.dev.gate 0) 1 false = true ∧ quietB ((at0 s).modCore 0 (fun k => { k with afterSync := [] })) 0 = true ∧
       ((at0 s).core 0).afterSync = [(8, 0x1FF)]) ∧
    Meets (stOf runner) (fun d => decide ((d.core 0).afterSync = []) && decide ((d.core 0).priv = .s) && quietB (d.sbFlush 0) 0) :=
  ⟨by decide +kernel, meets_of _ _ (by decide +kernel)⟩

/-- Events enabled and one pending; a staged write that is due; a deferred store error. -/
theorem witness_CoreEvents :
    (let d := (stWith { runner with inboxPri := [(255, 4)], sStatus := 0x11 } (fun d => d) [(coreUid 0, inboxOff 255, 2 ^ 63)]).dev
     d.canRun 0 = true ∧ (d.core 0).staged = [] ∧ (d.core 0).deferred = none ∧ d.eligible 0 = some (255, 3) ∧ quietB (d.inboxClear 0 255) 0 = true) ∧
    (let d := devOf { runner with staged := [⟨0x107, 5, 0⟩] }
     d.canRun 0 = true ∧ (d.core 0).deferred = none ∧ (d.core 0).staged = [⟨0x107, 5, 0⟩]) ∧
    (let d := devOf { runner with deferred := some (2 ^ 64 - 1, 2) }
     d.canRun 0 = true ∧ (d.core 0).staged = [] ∧ (d.core 0).deferred = some (2 ^ 64 - 1, 2) ∧ quietB d 0 = true) ∧
    (Dev.reset.flag (coreUid 0) 0x4000 3 = true) := by decide +kernel

/-- Tables in SDRAM: a pointer at 0x10000 to a table at 0x11000, whose entry 0 is a leaf of 1 GiB that is not dirty. -/
def mapped : Dev :=
  let d := (sdDev.setCore 0 { runner with sTbase := 0x10001, sCorectl := 2 })
  let d1 := (d.engWrite 0x10000 (natLe 8 (3 + 0x11 * 2 ^ 14))).1
  (d1.engWrite 0x11000 (natLe 8 (1 + 4 + 8 + 0x80))).1

theorem witness_WalksAndUpdates :
    mapped.canRun 0 = true ∧ bit (mapped.core 0).sTbase 0 = true ∧ mapped.walkWaits 0 .load [⟨0x3FFFFFFF, 1, 1⟩] = false ∧
    (match mapped.pageOf 0 0x3FFFFFFF .load with
     | (_, .ok _) => true
     | _ => false) = true ∧
    (match mapped.pageOf 0 0x40000000 .load with
     | (e, .error x) => quietB e 0 && decide ((e.core 0).staged = [] ∧ x.code < 256 ∧ x.info < 2 ^ 32 ∧ (e.core 0).pc = (mapped.core 0).pc)
     | _ => false) = true ∧
    (match mapped.checkItems 0 .store none [⟨0x3FFFFFFF, 1, 1⟩] with
     | (e, .ok (p :: _)) => (match p.upd with
       | some u => (match (e.atomicAt 0 (e.relocate 0 u.win u.ea) 8 false (fun old => if old = u.seen.toNat then some u.new.toNat else none)).2 with
         | .ok old => old == u.seen.toNat
         | _ => false)
       | none => false)
     | _ => false) = true := by decide +kernel

/-! Register accesses. -/

def takesB (d : Dev) (a : Agent) (u off : Nat) (v : Word) (r : RegRow) (i : Nat) : Bool :=
  let q := d.regReq a (ctlAddr u off) 8 false (some v)
  decide (d.reqWindow q = true ∧ d.serveHow q = 0 ∧ (u < 0xC000 ∧ off < 0x10000 ∧ off % 8 = 0) ∧
    (unitKind u ≠ none ∧ (unitKind u = some .pcie → off < 0x4000)) ∧ d.unitDown u (q.priv == .k) off = none ∧ regAt u off = some (r, i) ∧
    d.regMay q u r i off = true ∧ d.crumbleShut u off true = false ∧ q.rep = .none)

theorem takes_of {d : Dev} {a : Agent} {u off : Nat} {v : Word} {r : RegRow} {i : Nat} (h : takesB d a u off v r i = true) :
    d.Takes a u off v r i := by
  simp only [takesB, decide_eq_true_eq] at h
  obtain ⟨h1, h2, h3, h4, h5, h6, h7, h8, h9⟩ := h
  exact ⟨h1, h2, h3, h4, h5, h6, h7, h8, h9⟩

def givesB (d : Dev) (a : Agent) (u off : Nat) (peek : Bool) (r : RegRow) (i : Nat) : Bool :=
  let q := d.regReq a (ctlAddr u off) 8 peek none
  decide (d.reqWindow q = true ∧ d.serveHow q = 0 ∧ (u < 0xC000 ∧ off < 0x10000 ∧ off % 8 = 0) ∧
    (unitKind u ≠ none ∧ (unitKind u = some .pcie → off < 0x4000)) ∧ d.unitDown u (q.priv == .k) off = none ∧ regAt u off = some (r, i) ∧
    d.regMay q u r i off = true ∧ d.crumbleShut u off false = false ∧ q.rep = .none)

theorem gives_of {d : Dev} {a : Agent} {u off : Nat} {peek : Bool} {r : RegRow} {i : Nat} (h : givesB d a u off peek r i = true) :
    d.Gives a u off peek r i := by
  simp only [givesB, decide_eq_true_eq] at h
  obtain ⟨h1, h2, h3, h4, h5, h6, h7, h8, h9⟩ := h
  exact ⟨h1, h2, h3, h4, h5, h6, h7, h8, h9⟩

def debugsB (d : Dev) (u off : Nat) (v : Word) (r : RegRow) (i : Nat) : Bool :=
  decide ((u < 0xC000 ∧ off < 0x10000 ∧ off % 8 = 0) ∧ regAt u off = some (r, i) ∧ (0xF000 ≤ off ∨ (u = dbgUid ∧ 0x4000 ≤ off))) &&
    (d.bench || match d.dbgNeed u off r i (some v) with
      | some x => decide (x.2 ≤ x.1)
      | none => false)

theorem debugs_of {d : Dev} {u off : Nat} {v : Word} {r : RegRow} {i : Nat} (h : debugsB d u off v r i = true) : d.Debugs u off v r i := by
  simp only [debugsB, Bool.and_eq_true, decide_eq_true_eq, Bool.or_eq_true] at h
  obtain ⟨⟨h1, h2, h3⟩, h4⟩ := h
  refine ⟨h1, h2, h3, h4.imp id fun h5 => ?_⟩
  split at h5
  · next x hx => exact ⟨x, hx, of_decide_eq_true h5⟩
  · simp at h5

/-! Caches, homes and memory channels. -/

/-- The last codeword of channel 0, which has 8 GiB in service. -/
theorem witness_SdramCodewords : (2 ^ 33 - 64) % 64 = 0 ∧ 2 ^ 33 - 64 < 2 ^ 38 ∧ sdDev.fenced (mcUid 0) = false ∧
    sdDev.initialised 0 (2 ^ 33 - 64) = true ∧ sdDev.crumbling (mcUid 0) = false ∧ SMap.wf zeroByte sdDev.sdram = true := by decide +kernel

/-- A sector that is in no L2, shared by two, and modified after a store; the home names its owner; an atomic operation and a plain read. -/
theorem witness_HomeRequests :
    let rq := sdDev.rqOf 0
    let a := 0x40
    let get := (sdDev.l2Get rq a 0 false false).1.l2Get (sdDev.rqOf 4) a 0 false false
    let own := sdDev.l2Own rq a 0 false
    let put := own.1.l2Store rq a 0 false [7]
    (cacheable a = true ∧ (sdDev.l2Sector rq.cl a).st = .i ∧ fineB get 0 = true ∧ fineB own 0 = true) ∧
    ((get.1.l2Sector rq.cl a).st = .s ∧ fineB (get.1.l2Own rq a 0 false) 0 = true) ∧
    (match own.1.homeOf rq a with
     | .ok h => decide (own.1.homeAnswers h = none ∧ (own.1.homeSec h a).dir = .ow 0)
     | .error _ => false) = true ∧
    ((put.1.l2Check rq.cl a).l2Sector rq.cl a).st = .m ∧
    (a % 8 = 0 ∧ fineB (sdDev.atomicAt 0 a 8 false (atomicFn 0 8 5 6)) 0 = true) := by decide +kernel

theorem witness_CacheMaintenance :
    let u : BitVec 16 := BitVec.ofNat 16 (l2Uid 71)
    let word (op st wy : Nat) : Word := BitVec.ofNat 64 (op + 2 ^ 8 * st + 2 ^ 24 * wy)
    let d := Dev.reset
    u.toNat = l2Uid 71 ∧ (devWith [(l2Uid 71, 0x4000, 0x100)]).fld (l2Uid 71) 0x4000 8 16 ≠ 0 ∧ d.flag (l2Uid 71) 0x4000 32 = true ∧
    (511 : BitVec 11).toNat < 512 ∧ regCmOp.name = .cmOp ∧ d.flag (l2Uid 71) 0x4108 0 = false ∧
    takesB d .keeper (l2Uid 71) 0x4100 (word 1 511 15) regCmOp 0 = true ∧ takesB d .keeper (l2Uid 71) 0x4100 (word 2 511 15) regCmOp 0 = true ∧
    takesB d .keeper (l2Uid 71) 0x4100 (word 3 511 15) regCmOp 0 = true ∧ takesB d .keeper (l2Uid 71) 0x4100 4 regCmOp 0 = true ∧
    takesB d .keeper (l2Uid 71) 0x4100 5 regCmOp 0 = true ∧ (devWith [(l2Uid 71, 0x4108, 1)]).flag (l2Uid 71) 0x4108 0 = true := by decide +kernel

/-- A channel through bring-up, spare copy, mirror rebuild, scrub and refresh. -/
theorem witness_MemoryChannels :
    let u := mcUid 11
    let up (c : Dev → Dev) (v : Nat) (d : Dev := Dev.reset) : Dev := c (d.setReg u 0x4030 (BitVec.ofNat 64 v))
    let tr (d : Dev) : Dev := { d with ch := { d.ch with trained := [11], populated := [11] } }
    (fineB ((sdDev.touchAddr 0x40 true).sdramRead 0x40 0) 0 = true ∧ fineB ((sdDev.touchAddr 0x40 true).sdramWrite 0x40 7 []) 0 = true ∧
      ([7] : List Byte) ≠ [] ∧ 0x7F % 64 + ([7] : List Byte).length ≤ 64 ∧ fineB ((sdDev.touchAddr 0x7F true).sdramMerge 0x7F [7]) 0 = true) ∧
    (Dev.reset.fld u 0x4030 0 2 = 0 ∧ bits (0x0C : BitVec 7) 0 3 ≤ 4 ∧ bits (0x0C : BitVec 7) 3 2 = 1 ∧ bits (0x12 : BitVec 7) 3 2 = 2 ∧
      bits (0x12 : BitVec 7) 0 3 ≤ 2) ∧
    ((up tr 1).fld u 0x4030 0 2 = 1 ∧ (up tr 1).fld u 0x4030 2 2 = 0 ∧ (up tr 1).ch.trained.contains 11 = true ∧
      (up tr 1).ch.populated.contains 11 = true) ∧
    (let d := (up tr 5).setReg hbUid 0x9030 0x8000
     d.fld u 0x4030 2 2 = 1 ∧ d.flag hbUid 0x9030 0 = false ∧ d.flag hbUid 0x9030 15 = true) ∧
    (let d := (up tr (5 + 2 ^ 9 * 31)).setReg u 0x4000 8
     d.fld u 0x4030 0 2 = 1 ∧ d.fld u 0x4030 2 2 ≠ 0 ∧ d.fld u 0x4030 9 9 < d.capacity 11 ∧ d.fld u 0x4030 9 9 + 1 = d.capacity 11) ∧
    (let d := devWith [(hubUid 0, offRange 15 + 8, 0x6000 + 0x820)]
     d.flag (hubUid 0) (offRange 15 + 8) 13 = true ∧ d.flag (hubUid 0) (offRange 15 + 8) 14 = true ∧
       ∀ x, x < 12 → d.flag (hubUid 0) (offRange 15 + 8) x = true → d.fenced (mcUid x) = false ∧ d.fenced (mcUid (x + 6)) = false) ∧
    ((devWith [(u, 0x4000, 0x2000)]).fld u 0x4000 13 2 = 1) ∧
    (let d := devWith [(u, 0x4010, 1), (u, 0x4030, 2), (u, 0x4000, 8)]
     d.flag u 0x4010 0 = true ∧ d.fld u 0x4030 0 2 = 2 ∧ SMap.get (fun _ => 0) d.ch.scrub 11 + 1 < d.capacity 11 * 2 ^ 24) := by decide +kernel

/-- A memory in canonical form with bytes in it, and a step that answers a next state. -/
theorem witness_StepKeepsMemoryForm : (mapped).memWf = true ∧ mapped.sdram ≠ [] ∧
    (match step ⟨[.add 0 1 2 3], mapped⟩ with
     | .next t => t.dev.memWf
     | _ => false) = true := by decide +kernel

/-- Requests that a window stops, that is served, and that an epoch turns back or holds; a plain register written, read and peeked;
writes that are malformed, or name no unit or no register, or a unit that is powered down or fenced; a root port with its link up. -/
theorem witness_RegisterAccesses :
    let ep (p : Nat) : Dev := { devWith ((List.range 6).map (fun i => (dieUid i, 0x4100, 1 + 2 ^ 32 * 5 + 2 ^ 41 + 2 ^ 42))) with
      ep := { Dev.reset.ep with complete := false, pend := [p] } }
    let kq (d : Dev) : Req := d.regReq .keeper (ctlAddr hbUid 0x8010) 8 false none
    (ep Dev.reset.keeperU).serveHow (kq (ep Dev.reset.keeperU)) = 2 ∧ (ep hbUid).serveHow (kq (ep hbUid)) = 3 ∧
    (ep hbUid).reqWindow (kq (ep hbUid)) = true ∧
    let req (d : Dev) (a : Nat) : Req := d.regReq (.core 0) a 8 false none
    let port := (devWith [(pcieUid 3, 0x4000, 0x80 + 4), (pcieUid 3, 0x4000 + 0x100 + 8 * 6, 1)])
    Dev.reset.reqWindow (req Dev.reset (ctlAddr hbUid 0x8010)) = false ∧
    (sdDev.reqWindow (req sdDev 0x40) = true ∧ sdDev.serveHow (req sdDev 0x40) = 0) ∧
    takesB Dev.reset .keeper hbUid 0x8020 5 regTbTrim 0 = true ∧ plainReg regTbTrim.name = true ∧
    (writeFields regTbTrim.fields (Dev.reset.reg hbUid 0x8020) 5).2 = false ∧ combos Dev.reset hbUid regTbTrim.name 0 = [] ∧
    givesB Dev.reset .keeper hbUid 0x8020 true regTbTrim 0 = true ∧ givesB Dev.reset .keeper hbUid 0x8020 false regTbTrim 0 = true ∧
    regTbTrim.name ≠ .pcieCfgd ∧ regTbTrim.name ≠ .coreExec ∧
    Dev.reset.serveHow (Dev.reset.regReq .keeper (ctlAddr hbUid 0x8020) 8 false (some 5)) = 0 ∧
    unitKind 0xBFFF = none ∧ (unitKind hbUid ≠ none ∧ unitKind hbUid ≠ some .pcie ∧ Dev.reset.unitDown hbUid true 0x8020 = none ∧
      regAt hbUid 0x7FF8 = none) ∧ (devWith [(l2Uid 0, 8, 0x310)]).unitDown (l2Uid 0) true 0x4000 ≠ none ∧
    (port.pciePort 3 = true ∧ port.flag (pcieUid 3) 0x4000 7 = true ∧ port.power (pcieUid 3) < 3 ∧ port.fenced (pcieUid 3) = false ∧
      port.epServe port.keeperU (pcieUid 3) = 0 ∧ bit (port.reg (pcieUid 3) (0x4100 + 8 * (0xEFF8 / 4096 - 8))) 0 = true) := by decide +kernel

/-- That device with an exchange range of 1 GiB from address 0, in the hub's registers. -/
def xrDev : Dev := devWith [(hubUid 0, 0x5000, 1), (hubUid 0, 0x5008, 30 + 2 ^ 24)] sdDev

/-- Every kind of register write whose rule is its own, at a boundary of what is asked of its value. -/
theorem witness_RegisterRules :
    let d := Dev.reset
    let hb (off v : Nat) (r : RegRow) (i : Nat) : Bool := takesB d .keeper hbUid off (BitVec.ofNat 64 v) r i
    takesB d .keeper (l2Uid 3) 0x1008 ones regStallStatus 0 = true ∧ takesB d .keeper (l2Uid 3) 0x1100 12 regStallBound 0 = true ∧
    (hb 0x8018 (2 ^ 64 - 1) regTbLoad 0 = true ∧ d.flag hbUid 0x8000 5 = true ∧ (devWith [(hbUid, 0x8000, 0)]).flag hbUid 0x8000 5 = false ∧
      takesB (devWith [(hbUid, 0x8000, 0)]) .keeper hbUid 0x8018 0 regTbLoad 0 = true) ∧
    (takesB d .keeper hbUid 0x8000 (setBit (d.reg hbUid 0x8000) 5 true) regTbCtl 0 = true ∧ d.fld hbUid 0x8000 0 3 ≤ 4) ∧
    (takesB d .keeper (mcUid 11) 0x4000 (setBit 0x80 12 true) regMcCfg 0 = true ∧ d.flag (mcUid 11) 0x4000 12 = false ∧
      bit (0x80 : Word) 7 = true ∧ d.fld (mcUid 11) 0x4000 13 2 = 0 ∧ takesB d .keeper (mcUid 11) 0x4000 (setBit 0 12 true) regMcCfg 0 = true) ∧
    (takesB d .keeper (quadUid 9) 0x4000 (d.reg (quadUid 9) 0x4000) regLqCfg 0 = true ∧
      takesB d .keeper (quadUid 9) 0x4000 (d.reg (quadUid 9) 0x4000 + 1) regLqCfg 0 = true ∧
      bits (d.reg (quadUid 9) 0x4000 + 1) 0 5 ≠ bits (d.reg (quadUid 9) 0x4000) 0 5) ∧
    (let u := (ringUnit 83).1; let i := (ringUnit 83).2; let o := 0x4200 + 16 * i
     takesB d .keeper u o (setBit 0x10 0 true) regMgtRingBase i = true ∧ xrDev.inRange 0 (16 * 2 ^ 8) = true ∧
       d.inRange 0 (16 * 2 ^ 8) = false ∧ takesB xrDev .keeper u o (setBit 0x10 0 true) regMgtRingBase i = true ∧
       takesB d .keeper u o (setBit (d.reg u o) 0 false) regMgtRingBase i = true ∧
       (let e := devWith [(u, o, 0x11)]
        takesB e .keeper u (o + 8) ((255 : BitVec 16).setWidth 64) regMgtRingIdx i = true ∧ 255 < 2 ^ e.fld u o 1 4)) ∧
    (let u := (ringUnit 0).1; let i := (ringUnit 0).2
     takesB d .keeper u (0x4200 + 16 * i) (setBit 0x10 0 true) regRingBase i = true) ∧
    (hb 0x9018 0x3FF regPadRelease 0 = true ∧ d.hbPlaying = false) ∧ takesB d .keeper (l2Uid 3) 0x2000 1 regErrStatus 0 = true ∧
    (hb 0xB008 (0x7F + 2 ^ 16 * 15) regHbCmd 0 = true ∧ hb 0xB008 (0x7F + 256 * 0x7F + 2 ^ 16 * 15) regHbCmd 0 = true) ∧
    hb 0xA008 1 regSentPet 0 = true ∧
    (let u := mbxUid (d.activeHub 11)
     takesB d .keeper u (0x8100 + 8 * 255) 1 regWdogPet 255 = true ∧ takesB d .keeper u (offWdog 255) 1 regWdogCfg 255 = true) ∧
    (hb 0xC048 5 regElogIn 3 = true ∧ d.flag hbUid 0xC000 0 = false) ∧ takesB d .keeper (l2Uid 3) 0x3008 ones regCrbKey 0 = true ∧
    (let cfg : Word := setBits (setBits (0 : Word) 2 3 5) 32 8 255
     takesB d .keeper (hubUid 0) (0x7000 + 16 * 15) (setBit cfg 0 true) regCadCfg 15 = true ∧ d.cadEn 15 = false ∧ bits cfg 2 3 ≤ 5 ∧
       bits cfg 32 8 < 8 * 2 ^ bits cfg 2 3 ∧
       (let e := d.setReg (hubUid 0) (0x7000 + 16 * 15) (setBit cfg 0 true)
        takesB e .keeper (hubUid 0) (0x7000 + 16 * 15) (setBit (e.cadCfg 15) 0 false) regCadCfg 15 = true ∧ e.cadEn 15 = true ∧
          bits (e.cadCfg 15) 2 3 ≤ 5 ∧ bits (e.cadCfg 15) 32 8 < 8 * 2 ^ bits (e.cadCfg 15) 2 3)) ∧
    takesB d .keeper (seUid 3) 0x5028 (BitVec.ofNat 64 (1023 + 1024)) regSeReload 0 = true := by decide +kernel

/-- The lowest and the highest event source, mailbox and proxy, and what each clause asks of their registers. -/
theorem witness_EventsAndMailboxes :
    let d := Dev.reset
    let e := evcUid 0
    let u := mbxUid (d.activeHub 11)
    let lvl := { devWith [(e, offEvSrc 0x440, 2)] with evLevel := [] }
    let placed (r : RunState) : Dev := (devWith [(e, offEvSrc 0xFFF, 2 ^ 40 + 2 ^ 32 * 255 + 2 ^ 24 * 15 + 2 ^ 16 * 7)]).setCore 287
      { Core.initial with placed := true, lcore := 7, run := r }
    (d.flag e (offEvSrc 0x000) 1 = false ∧ lvl.flag e (offEvSrc 0x440) 1 = true ∧ d.sourceReady 0xFFF = false) ∧
    (let x := placed .run
     x.sourceReady 0xFFF = true ∧ x.fld e (offEvSrc 0xFFF) 4 2 = 0 ∧ (x.coresOf (x.fld e (offEvSrc 0xFFF) 16 8)).head? = some 287 ∧
       x.fld e (offEvSrc 0xFFF) 32 8 = 255 ∧ x.fld e (offEvSrc 0xFFF) 24 4 = 15 ∧ x.coreHeld 287 = false ∧
       (x.setReg (coreUid 287) 8 0x300).coreHeld 287 = true) ∧
    (takesB lvl .keeper (evcUid (d.activeHub 10)) (offEvSrc 0x440) (setBit (lvl.reg e (offEvSrc 0x440)) 42 true) regEvSrc 0x440 = true ∧
      fixedSense 0x440 ≠ some false ∧ lvl.levelActive 0x440 = false) ∧
    takesB d .keeper (coreUid 287) (0x4400 + 8 * 3) ones regCoreInbox 3 = true ∧
    (takesB d .keeper u (mbxOff 259 0) ones regMbxMsg 259 = true ∧ d.flag mbxU (mbxOff 259 8) 0 = false ∧
      (devWith [(mbxU, mbxOff 259 8, 1)]).flag mbxU (mbxOff 259 8) 0 = true ∧
      takesB (devWith [(mbxU, mbxOff 259 8, 1)]) .keeper u (mbxOff 259 0) ones regMbxMsg 259 = true) ∧
    (takesB d .keeper u (mbxOff 255 0x10) (BitVec.ofNat 64 (2 ^ 32)) regMbxAck 255 = true ∧ takesB d .keeper u (mbxOff 255 0x10) 5 regMbxAck 255 = true ∧
      (let x := devWith [(mbxU, mbxOff 255 8, 1 + 256 * 255)]
       takesB x .keeper u (mbxOff 255 0x10) (BitVec.ofNat 64 (2 ^ 32)) regMbxAck 255 = true ∧ x.flag mbxU (mbxOff 255 8) 0 = true ∧
         x.flag mbxU (mbxOff 255 8) 16 = false)) ∧
    takesB d .keeper u (mbxOff 0 0x18) ones regMbxBell 0 = true ∧ takesB d .keeper u (mbxOff 0 0x28) ones regMbxBellclr 0 = true ∧
    takesB d .keeper u (mbxOff 0 8) 4 regMbxStatus 0 = true ∧
    (takesB d .keeper u (offProxy 15 + 8) ones regRmbxMsg 15 = true ∧ d.flag mbxU (offProxy 15 + 0x10) 0 = false ∧
      (devWith [(mbxU, offProxy 15 + 0x10, 1)]).flag mbxU (offProxy 15 + 0x10) 0 = true) := by decide +kernel

/-- A core of a partition whose window covers control space and which owns an event source and mailbox. -/
theorem witness_EventsAndMailboxes_core :
    let r : PartRec := ⟨3, 0, 0x70, 0, 0xFF, 0, [], [], [], [], []⟩
    let d := { (devWith [(coreUid 0, offWin 0, 1), (coreUid 0, offWin 0 + 8, 48 + 0xFFFFF00), (evcUid 0, offEvSrc 0, 0x300)]).setCore 0
        { runner with part := 3, lcore := 5 } with kp := { Dev.reset.kp with recs := [r], lpart := [(5, 4)] } }
    takesB d (.core 0) (evcUid (d.activeHub 10)) (offEvSrc 0) 1 regEvSrc 0 = true ∧ bit (1 : Word) 42 = false ∧
    takesB d (.core 0) (mbxUid (d.activeHub 11)) (mbxOff 5 0) 9 regMbxMsg 5 = true ∧
    takesB d (.core 0) (mbxUid (d.activeHub 11)) (mbxOff 5 0x18) 9 regMbxBell 5 = true ∧ bit (9 : Word) 28 = false ∧ (d.core 0).lcore < 256 := by
  decide +kernel

/-! Debug and trace. -/

/-- A device with the bench strap latched, core 5 placed in partition 3, and some registers. -/
def benchDev (rs : List (Nat × Nat × Nat)) (k : Core := { runner with part := 3, lcore := 9, pc := 44 }) (recs : List PartRec := []) : Dev :=
  { (devWith ((bootUid, 0x4000, 2 ^ 10) :: rs)).setCore 5 k with kp := { Dev.reset.kp with recs := recs } }

/-- A single-tier record with given flags. -/
def recWith (flags : Nat) : PartRec := ⟨3, 0, flags, 0, 0xFF, 0, [], [], [⟨[2 ^ 21 * 3, 0, 0], 21, 7, 0, 0, 0, false⟩], [], []⟩

/-- Debug accesses, unlock challenges and run control, with and without the bench strap. -/
theorem witness_DebugCommands_run :
    let d := benchDev []
    let u := coreUid 5
    let cmd (d : Dev) (n : Nat) : Bool := debugsB d u 0xF000 (BitVec.ofNat 64 n) regCdbgCmd 0
    ((5 : BitVec 48).toNat < 0xF00000000000) ∧
    (regAt u 0xF008 = some (regCdbgCfg, 0) ∧ d.bench = true ∧ d.dbgReadShut u regCdbgCfg = false) ∧
    (let x := { d with db := { d.db with waiting := [([1], 7)] } }
     x.dt < 7 + 8 * x.fld dbgUid 0x1000 0 20 ∧ (let y := { x with dt := 7 + 8 * x.fld dbgUid 0x1000 0 20 }; 7 + 8 * y.fld dbgUid 0x1000 0 20 ≤ y.dt)) ∧
    (bit (0 : Word) 1 = false ∧ bit (0 : Word) 12 = false ∧ debugsB d dbgUid 0x5020 (setBit 0 0 true) regDbgUnlkCtl 0 = true) ∧
    debugsB d dbgUid 0x5020 (BitVec.ofNat 64 (2 + 4 * 255 + 1024 * 2)) regDbgUnlkCtl 0 = true ∧
    debugsB Dev.reset dbgUid 0x5020 (BitVec.ofNat 64 (4 * 255 + 1024 + 4096)) regDbgUnlkCtl 0 = true ∧
    Dev.reset.bench = false ∧
    (cmd d 1 = true ∧ cmd d 2 = true ∧ cmd d 3 = true ∧ cmd d 4 = true ∧ d.halted 5 = false ∧ (d.core 5).placed = true ∧ (d.core 5).rep = .none) ∧
    (let x := benchDev [(dbgUid, 0x5418, 16)] (recs := [recWith 0])
     cmd x 1 = true ∧ x.halted 5 = false ∧ x.intrusive 3 = true) ∧
    (let x := benchDev [] { runner with part := 3, rep := .a } [{ recWith 0 with tier := 1 }]
     cmd x 1 = true ∧ x.halted 5 = false ∧ (x.core 5).rep ≠ .none) ∧
    (let x := benchDev [] (recs := [recWith 8])
     x.recOf 3 = some (recWith 8) ∧ (recWith 8).flags / 8 % 2 = 1 ∧ x.intrusive 3 = false ∧ cmd x 1 = true) ∧
    (let x := benchDev [(u, 0xF010, 1)]
     x.halted 5 = true ∧ cmd x 1 = true ∧ cmd x 2 = true ∧ cmd x 3 = true ∧ cmd x 4 = true) ∧
    (let x := { benchDev [(u, 0xF010, 2)] with db := { d.db with haltAt := [(5, 1)] } }
     x.flag u 0xF010 1 = true ∧ (x.core 5).run ≠ .reset ∧ x.power u < 2 ∧ (x.core 5).staged = [] ∧ (x.core 5).pc ∉ (x.core 5).abandoned ∧
       (x.core 5).rep = .none ∧
       (let y := { x with dt := 8 * x.fld dbgUid 0x1000 0 20 }
        SMap.get (fun _ => 0) y.db.haltAt 5 = 1 ∧ 1 + 8 * y.fld dbgUid 0x1000 0 20 ≤ y.dt + 1)) := by decide +kernel

/-- The debug bus master: busy or free, a misaligned address, and a read of eight bytes of a core's local store. -/
theorem witness_DebugCommands_bus :
    let d := benchDev []
    debugsB d dbgUid 0x6000 (setBit 0 0 true) regDbmCtl 0 = true ∧ d.flag dbgUid 0x6010 0 = false ∧
    debugsB (benchDev [(dbgUid, 0x6010, 1)]) dbgUid 0x6000 (setBit 0 0 true) regDbmCtl 0 = true ∧
    (benchDev [(dbgUid, 0x6010, 1)]).flag dbgUid 0x6010 0 = true ∧
    (let j : DbmJob := ⟨0x8001, 0xE00000500008, []⟩
     let e := { d with db := { d.db with dbm := none } }
     j.addr % 8 = 0 ∧ bit j.ctl 15 = true ∧ bit j.ctl 2 = false ∧ bit j.ctl 4 = false ∧ bit j.ctl 1 = false ∧
     (match e.dbmMove (bits j.ctl 5 8) 3 j.addr 8 none with
      | (_, .ok bs) => bs.length == 8
      | _ => false) = true ∧ 0xE00000500009 % 8 ≠ 0) := by decide +kernel

/-- The virtual terminal, trace sources, sessions with a trigger and a window, and time packets. -/
theorem witness_DebugCommands_trace :
    let d := benchDev [(coreUid 5, offWin 0, 1), (coreUid 5, offWin 0 + 8, 48 + 0xFFFFF00)]
    let v : Word := BitVec.ofNat 64 (7 * 2 ^ 56 + 0x41)
    let o := offVt 3
    let full (a : Nat) : Dev := d.setReg dbgUid a (BitVec.ofNat 64 (2 ^ 63))
    (takesB d (.core 5) dbgUid o v regVtOut 3 = true ∧ d.flag dbgUid o 63 = false ∧ bits v 56 3 ≠ 0 ∧
      takesB (full o) (.core 5) dbgUid o v regVtOut 3 = true ∧ (full o).flag dbgUid o 63 = true) ∧
    debugsB d dbgUid (offVt 255) (BitVec.ofNat 64 (2 ^ 63)) regVtOut 255 = true ∧
    (debugsB d dbgUid (o + 8) v regVtIn 3 = true ∧ d.flag dbgUid (o + 8) 63 = false ∧ debugsB (full (o + 8)) dbgUid (o + 8) v regVtIn 3 = true ∧
      (full (o + 8)).flag dbgUid (o + 8) 63 = true) ∧
    takesB (full (o + 8)) (.core 5) dbgUid (o + 8) (BitVec.ofNat 64 (2 ^ 63)) regVtIn 3 = true ∧
    (let u := cstopUid 71
     debugsB d u 0xF800 7 regTrcSrc 0 = true ∧ ¬(unitKind u ≠ some .core ∧ d.flag u 0xF800 0 = true ∧ bit (7 : Word) 0 = true ∧ d.fld u 0xF800 3 4 ≠ bits (7 : Word) 3 4) ∧
       (let x := benchDev [(u, 0xF800, 1)]
        debugsB x u 0xF800 15 regTrcSrc 0 = true ∧ unitKind u ≠ some .core ∧ x.flag u 0xF800 0 = true ∧ bit (15 : Word) 0 = true ∧
          x.fld u 0xF800 3 4 ≠ bits (15 : Word) 3 4)) ∧
    (let q := offTs 15
     debugsB d dbgUid q 3 regTsCtl 15 = true ∧ d.flag dbgUid q 0 = false ∧
       (let x := benchDev [] (recs := [{ recWith 0 with tier := 1 }])
        debugsB x dbgUid q 12 regTsCtl 15 = true ∧ bit (12 : Word) 1 = false ∧ x.replicated (bits (12 : Word) 2 8) = true) ∧
       (let x := benchDev [(dbgUid, q, 1), (dbgUid, q + 0x18, 5 + 2 ^ 24 + 2 * 2 ^ 26 + 33 * 2 ^ 28)]
        x.flag dbgUid (q + 0x18) 24 = true ∧ x.sessionOpen 15 = true ∧ x.flag dbgUid q 12 = false ∧ x.fld dbgUid (q + 0x18) 26 2 = 2 ∧
          x.fld dbgUid (q + 0x18) 28 12 = 33 ∧ (List.range 16).all (fun j => x.sessionOpen j == decide (j = 15)) = true ∧
          (List.range 4).all (fun c => x.dropCount 9 15 c == 0) = true ∧ (x.funnel 9).length < 256) ∧
       d.flag dbgUid (q + 0x18) 24 = false ∧
       (let x := { benchDev [(dbgUid, q, 1 + 2 ^ 12), (dbgUid, q + 0x18, 5)] with dt := 5000 }
        x.flag dbgUid q 0 = true ∧ x.flag dbgUid q 12 = true ∧ x.flag dbgUid q 13 = false ∧ x.tr.closing.contains 15 = false ∧
          (x.reg dbgUid (q + 0x28)).toNat + 1000 * x.fld dbgUid (q + 0x18) 0 24 ≤ x.dt) ∧
       (let x := { d with tr := { d.tr with closing := [15] } }
        x.tr.closing.contains 15 = true ∧ (List.range 10).all (fun f => (x.funnel f).all (fun p => p.session != 15)) = true)) := by decide +kernel

/-! Streams and TDM. -/

/-- A little-endian layout: offset, length, value, in so many bytes. -/
def bytesOf (n : Nat) (xs : List (Nat × Nat × Nat)) : List Byte :=
  xs.foldl (fun b x => b.take x.1 ++ natLe x.2.1 x.2.2 ++ b.drop (x.1 + x.2.1)) (List.replicate n 0)

/-- A descriptor of one 16-bit channel on port 0, six samples a packet; its flags are given. -/
def descOf (flags : Nat) : List Byte := bytesOf 64 [(0, 1, flags), (3, 1, 96), (4, 1, 1), (14, 2, 5004), (19, 1, 9)]

/-- Cadence 3 in its tenth block of eight samples; stream 1023 of engine 3 in each direction, mapped to buffer 63. -/
def mediaDev (dt flags : Nat) (rs : List (Nat × Nat × Nat) := []) : Dev :=
  let d := devWith ([(hubUid 0, 0x7030, 1), (seUid 3, 0x4000 + 16 * 63, 1), (seUid 3, 0x4008 + 16 * 63, 12)] ++ rs)
  let e := 2 ^ 31 + 63 * 2 ^ 14
  let k := 3 * 4095
  let a := { d.au with first := [(3, 2)], started := [(3, 11)], rx := [(4095, descOf flags)], tx := [(4095, descOf flags)] }
  { d with dt := dt, au := { a with rxMap := [(3 * 16384, e)], txMap := [(3 * 16384, e)], lastAcc := [(k, 1), (k + 1, 1), (k + 2, 1)], txNext := [(4095, 79)] } }

/-- An RTP packet for that stream with a first byte and a timestamp. -/
def rtpOf (b0 ts n : Nat) : Pkt := { port := 0, avtp := false, v6 := false, dst := 9, udp := 5004, bytes := bytesOf n [(0, 1, b0), (1, 1, 96), (7, 1, ts)] }

theorem witness_MediaCommands_streams :
    let d := mediaDev 1700000 1
    let ds := d.rxDesc 3 1023
    let view (p : Pkt) : PktView := rtpView ds (dPs ds (d.cadFs 3)) p.bytes
    (d.blkNextEvent 3 = some 1 ∧ d.dtStart 3 1 + d.cadGuard 3 ≤ (d.dt : Int) ∧ (d.dt : Int) < d.dtStart 3 11 + d.cadGuard 3 ∧
      { d with au := { d.au with done := [(3, 11)] } }.blkNextEvent 3 = some 11) ∧
    (d.blkNow (d.bufCad 3 63) = some 10 ∧ d.bufEn 3 63 = true ∧ d.bufOut 3 63 = false ∧ opt d.au.closed (64 * 3 + 63) ≠ some 10 ∧
      (mediaDev 0 1 [(seUid 3, 0x4008 + 16 * 63, 13)]).bufOut 3 63 = true) ∧
    (d.matchRx 3 (rtpOf 0x80 80 24) = some (1023, false) ∧ d.matchRx 3 { rtpOf 0x80 80 24 with udp := 1 } = none ∧
      firstEn (d.rxEntries 3 1023) = some (2 ^ 31 + 63 * 2 ^ 14) ∧ (view (rtpOf 0x80 80 25)).lenOk = false ∧
      ((view (rtpOf 0x81 80 24)).lenOk = true ∧ (view (rtpOf 0x81 80 24)).hdrOk = false) ∧
      (∀ ts ∈ [80, 103], let v := view (rtpOf 0x80 ts 24)
       v.lenOk = true ∧ v.hdrOk = true ∧ dLearn ds = false ∧ dDual ds = false ∧ dAvtp ds = false ∧ v.src = dBe ds 10 4 ∧
         d.capNow 3 (d.bufLo 3 63) = some 10 ∧ d.blkMc 3 10 ≤ pktMc ds (d.cadFs 3) v.ts (d.blkMc 3 10) ∧
         pktMc ds (d.cadFs 3) v.ts (d.blkMc 3 10) < d.blkMc 3 13 ∧ 0 < dPs ds (d.cadFs 3))) ∧
    (dEn ds = true ∧ opt d.au.lastAcc (3 * stKey 3 1023) = some 0 ∧ d.au.lostKeys.contains (3 * stKey 3 1023) = false ∧ d.twoBlocks 3 ≤ d.dt) ∧
    (let e := mediaDev 1700000 9
     dDual (e.rxDesc 3 1023) = true ∧ opt e.au.lastAcc (3 * stKey 3 1023 + 2) = some 0 ∧ e.au.lostKeys.contains (3 * stKey 3 1023 + 2) = false ∧
       e.twoBlocks (e.bufCad 3 (mBuf (2 ^ 31 + 63 * 2 ^ 14))) ≤ e.dt) ∧
    (let e := mediaDev 1700000 1 [(seUid 3, 0x6000 + 32 * 31, 1 + 8 * 63)]
     let gone := { e with au := { e.au with cg := [(32 * 3 + 31, { CgSt.initial with plays := [(9, [], false)] })] } }
     firstEn (d.txEntries 3 1023) = some (2 ^ 31 + 63 * 2 ^ 14) ∧ opt d.au.txNext (stKey 3 1023) = some 78 ∧ dEn (d.txDesc 3 1023) = true ∧
       opt d.au.stop 3 = none ∧ (d.dt : Int) < d.dtOf 3 (78 + 6) ∧ d.dtOf 3 (78 + 6) ≤ ((mediaDev 2000000 1).dt : Int) ∧
       ((mediaDev 2000000 1).txPayload 3 1023 (d.txDesc 3 1023) 6 48000 78 false).2 = true ∧ dPort (d.txDesc 3 1023) false ≠ 42 ∧
       (gone.txPayload 3 1023 (d.txDesc 3 1023) 6 48000 78 false).2 = false) := by decide +kernel

/-- Port 15 as master and as slave, in block 10 of its cadence. -/
theorem witness_MediaCommands_tdm :
    let port (cfg st : Nat) (fi fo : List (List Nat)) : Dev :=
      let d := mediaDev 1700000 1 [(tdmUid 3, 0x4000 + 64 * 3, cfg + 2 ^ 11 * 3), ((tdmStat 15).1, (tdmStat 15).2, st)]
      { d with au := { d.au with fifoIn := [(15, fi)], fifoOut := [(15, fo)] } }
    let a := port 3 1 [[1], [2], [3]] [[4], [5], [6]]
    let m := port 1 1 [] []
    (bit (a.tdmPortCfg 15) 0 = true ∧ bit (a.tdmPortCfg 15) 1 = true ∧ bits (a.tdmPortCfg 15) 11 4 = 3 ∧ a.flag (tdmStat 15).1 (tdmStat 15).2 0 = true ∧
      a.fifoIn 15 = [[1], [2], [3]] ∧ a.fifoOut 15 = [[4], [5], [6]]) ∧
    (port 3 0 [] []).flag (tdmStat 15).1 (tdmStat 15).2 0 = false ∧
    (bit (m.tdmPortCfg 15) 0 = true ∧ bit (m.tdmPortCfg 15) 1 = false) ∧
    (a.blkNow 3 = some 10 ∧ 1 ≤ a.mcAt 3 a.dt ∧ opt a.au.inCnt 15 = none ∧ opt a.au.outCnt 15 = none) := by decide +kernel

/-! Replicas and the commit stage. -/

/-- A triple partition's record, and the device whose engine 3 holds its commit group 31 of buffers 1 to 3, in block 10 of cadence 0. -/
def recT (rejoin : Nat) : PartRec := ⟨3, 2, 0x70, 0, 0xFF, rejoin, [(0, 0)], [⟨5, false, false, false, [4, 40, 150], 0xE0001FF00000, 0, 0, 0, [1, 1, 1]⟩],
  [⟨[2 ^ 21 * 3, 2 ^ 21 * 4, 2 ^ 21 * 5], 21, 7, 0, 0, 0, false⟩], [], []⟩
def cgWord (tier live : Nat) : Nat := 1 + 2 * tier + 8 * 1 + 2 ^ 9 * 2 + 2 ^ 15 * 3 + 2 ^ 21 * live + 2 ^ 24 * 3 + 2 ^ 33
def cgDev (dt tier live : Nat) (x : CgSt) (f : AudioSt → AudioSt) (recs : List PartRec := [recT 16384]) (runC : RunState := .waitb 0 31) : Dev :=
  let buf (n at_ : Nat) : List (Nat × Nat × Nat) := [(seUid 3, 0x4000 + 16 * n, 1 + 2 ^ 16 * n), (seUid 3, 0x4008 + 16 * n, at_)]
  let d := devWith ([(hubUid 0, 0x7000, 1), (seUid 3, 0x6000 + 32 * 31, cgWord tier live), (seUid 3, 0x5800, 50), (seUid 3, 0x5810, 2 ^ 12),
    (seUid 3, 0x5818, 2 ^ 5)] ++ buf 1 1 ++ buf 2 1 ++ buf 3 1 ++ buf 5 0) sdDev
  let core (r : Rep) (now : RunState) : Core := { runner with part := 3, lcore := 5, rep := r, tier := 2, run := now }
  let d1 := ((d.setCore 4 (core (repAt tier 0) (.waitb 0 31))).setCore 40 (core (repAt tier 1) (.waitb 0 31))).setCore 150 (core (repAt tier 2) runC)
  let done : List Completion := (List.range 4).map (fun r => ⟨3, r, 0, 10, 5⟩)
  let au := { d1.au with first := [(0, 2)], started := [(0, 11)], complete := done, cg := [(127, x)] }
  { d1 with dt := dt, au := f au, kp := { d1.kp with recs := recs, lpart := [(5, 4)], released := [3], cads := [(3, 1)] } }

theorem witness_ReplicaCommands_votes :
    let live : CgSt := { CgSt.initial with live := [(0, 7)] }
    let d := cgDev 1700000 2 7 live id
    let late := cgDev 2000000 2 7 live id
    (d.cgEn 3 31 = true ∧ d.cgTier 3 31 = 2 ∧ repsOf (d.liveFor 3 31 10) = [0, 1, 2] ∧ hashFor (d.cgSt 3 31) 10 2 = none ∧
      d.blockComplete (d.cgPart 3 31) 3 (d.cgCad 3 31) 10 = true ∧ (d.dt : Int) ≤ d.deadline 3 31 10 ∧ verdictOf (d.cgSt 3 31) 10 = none ∧
      (match d.engRead (d.slotAt 3 (d.cgBuf 3 31 2) 10 + 512) (d.bufBytes 3 (d.cgBuf 3 31 2)) with
       | (e, .ok area) => (e.voteFault 3 31 2 10).isNone && area.length == d.bufBytes 3 3
       | _ => false) = true ∧ settle { live with hashes := [(10, 2, 7), (10, 0, 7)] } 10 [0, 1, 2] = some (.release 0 7)) ∧
    ((d.cgSt 3 31).closed.any (fun e => e.1 == 10) = false ∧ (d.dt : Int) < d.deadline 3 31 10 ∧ late.deadline 3 31 10 ≤ (late.dt : Int) ∧
      (let one := cgDev 2000000 0 1 live id
       one.cgTier 3 31 = 0 ∧ one.deadline 3 31 10 ≤ (one.dt : Int) ∧ one.blockComplete (one.cgPart 3 31) 0 (one.cgCad 3 31) 10 = true ∧
         one.blockComplete (one.cgPart 3 31) 0 (one.cgCad 3 31) 9 = false) ∧
      verdictOf { live with verdicts := [(10, .release 0 7)] } 10 = some (.release 0 7)) ∧
    (d.blkNow (d.cgCad 3 31) = some 10 ∧ (d.cgSt 3 31).plays.any (fun p => p.1 == 10) = false ∧
      { live with plays := [(10, [], true)] }.plays.any (fun p => p.1 == 10) = true ∧
      (let y := cgDev 1700000 2 7 { live with verdicts := [(8, .release 2 7)] } id
       10 - 1 - y.cgDefer 3 31 = 8 ∧ (y.cgSt 3 31).supp.contains 8 = false ∧ verdictOf (y.cgSt 3 31) 8 = some (.release 2 7) ∧ (y.cgSt 3 31).run = 0 ∧
         (match y.engRead (y.slotAt 3 (y.cgBuf 3 31 2) 8 + 512) (y.bufBytes 3 (y.cgBuf 3 31 2)) with
          | (_, .ok q) => q.length == y.bufBytes 3 3
          | _ => false) = true)) ∧
    (d.flag (seUid 3) 0x5810 12 = true ∧ bit (d.cgCfg 3 31) 33 = true ∧ (d.dt : Int) < d.twinDue 3 31 10 ∧
      late.twinDue 3 31 10 ≤ (late.dt : Int) ∧ (late.cgSt 3 31).acted.contains 10 = false ∧ late.twinLower 3 = false ∧
      (let y : CgSt := { live with verdicts := [(10, .release 0 7)], peer := [(10, some 8)] }
       verdictOf y 10 = some (.release 0 7) ∧ y.peer.find? (fun e => e.1 == 10) = some (10, some 8)) ∧
      verdictOf { live with verdicts := [(10, .conceal)] } 10 = some .conceal) := by decide +kernel

theorem witness_ReplicaCommands_rejoin :
    let d := cgDev 1700000 2 7 CgSt.initial id
    let back (dt rejoin pass stage at_ : Nat) : Dev := cgDev dt 2 3 CgSt.initial (fun a => { a with rejoins := [⟨3, .c, .a, pass, [], stage, at_⟩] }) [recT rejoin] .reset
    (d.blkNext 0 = some 11 ∧ (d.dt : Int) < d.dtStart 0 11 ∧ (cgDev 2000000 2 7 CgSt.initial id).dtStart 0 11 ≤ 2000000) ∧
    (opt d.au.merged (64 * 3 + 5) ≠ some 10 ∧ d.flag (seUid 3) 0x5818 5 = true ∧
      (let due := d.dtStart (d.bufCad 3 5) (10 + 1 + d.bufLo 3 5) + d.cadGuard (d.bufCad 3 5) - 2000
       (d.dt : Int) ≤ due ∧ (List.replicate (512 + d.bufBytes 3 5) (0 : Byte)).length = 512 + d.bufBytes 3 5 ∧ due ≤ 2000000) ∧
      (match d.engRead (d.slotAt 3 5 10) 512 with
       | (_, .ok own) => own.length == 512
       | _ => false) = true) ∧
    (let x := cgDev 1700000 2 7 CgSt.initial (fun a => { a with suspects := [(3, some 2, 0)] })
     x.au.suspects.find? (fun y => y.1 == 3) = some (3, some 2, 0) ∧ x.suspectOf 3 (some 2) 0 = 2 ∧ d.au.suspects.find? (fun y => y.1 == 255) = none) ∧
    (let x := cgDev 1700000 2 3 CgSt.initial id (runC := .reset)
     x.rejoinOf 3 = none ∧ x.recOf 3 = some (recT 16384) ∧ x.donorOf 3 2 = some 0 ∧ x.repLive 3 2 = false ∧ x.repCores 3 2 = [150] ∧
       (x.core 150).run = .reset) ∧
    ((back 0 16384 1 0 0).rejoinOf 3 = some ⟨3, .c, .a, 1, [], 0, 0⟩ ∧ (back 0 16384 1 0 0).deltaBytes ⟨3, .c, .a, 1, [], 0, 0⟩ ≤ 1024 * 16384 ∧
      1024 * 1 < (back 0 1 1 0 0).deltaBytes ⟨3, .c, .a, 7, [], 0, 0⟩ ∧ (back 0 1 8 0 0).rejoinOf 3 = some ⟨3, .c, .a, 8, [], 0, 0⟩) ∧
    ((back 5 16384 1 3 5).rejoinOf 3 = some ⟨3, .c, .a, 1, [], 3, 5⟩ ∧ (back 5 16384 1 3 5).dt = 5) ∧
    (let x := back 1666664 16384 1 1 0
     (recT 16384).firstCad = 0 ∧ x.blkNow 0 = some 10 ∧ x.allWaitb 3 0 = true ∧ x.dtStart 0 10 = (x.dt : Int) ∧
       (3, 31) ∈ x.groupsOf 3 ∧ (x.blkNow (x.cgCad 3 31)).isSome = true) ∧
    (let x := back 0 16384 1 2 0
     x.repCores 3 2 = [150] ∧ (x.repCores 3 0).find? (fun y => (x.core y).lcore == (x.core 150).lcore) = some 4) := by decide +kernel

theorem witness_ReplicaCommands_units :
    let d := cgDev 1700000 2 7 CgSt.initial id
    let k := d.core 150
    (unitKind (l2Uid 71) = some .l2 ∧ d.fenced (l2Uid 71) = false ∧ { d.kp with toFence := [l2Uid 71] }.toFence.contains (l2Uid 71) = true) ∧
    (let u := mkUid 5 0 15 10 0
     let x := devWith [(mkUid 4 0 15 10 0, 8, 16), (u, 8, 1)]
     mkUid (9 - uidDie u) 0 15 (uidType u) 0 = mkUid 4 0 15 10 0 ∧ unitKind u = some .evc ∧ x.fenced (mkUid 4 0 15 10 0) = true ∧ x.fenced u = false ∧
       x.role u = 1) ∧
    (k.placed = true ∧ k.rep = .c ∧ (d.liveReps k.part).contains 2 = true ∧ 2 ≤ (d.liveReps k.part).length ∧ d.rm.done = [] ∧ d.rm.waiting = []) ∧
    ((cgDev 0 2 3 CgSt.initial id).liveReps 3).contains 2 = false ∧
    (let x := cgDev 0 2 4 CgSt.initial id
     x.liveReps 3 = [2] ∧ x.mbxRight 3 5 false = true ∧ x.flag mbxU (mbxOff 5 8) 0 = false ∧ (mbxOff 5 0) < 2 ^ 16) ∧
    (repMbxOff (mbxOff 5 0) = true ∧ repMbxOff 0x80FF = false ∧ repMbxOff 0xE1F0 = true) ∧
    (let x : Dev := { cgDev 0 2 7 CgSt.initial id with rm := ⟨[], [⟨5, 1, 2, mbxOff 5 0, 9⟩], []⟩ }
     let e := x.setLive 3 31 4 (x.liveFrom (x.cgCad 3 31))
     x.cgPart 3 31 = 3 ∧ e.lcorePart 5 = some 3 ∧ e.liveReps 3 = [2] ∧ e.mbxRight 3 5 false = true ∧ e.flag mbxU (mbxOff 5 8) 0 = false) := by decide +kernel

/-! Ports, links, proxies, remote memory, PCIe. -/

/-- Port 39 up as an Ethernet port, with sixteen descriptors in each ring; the read and write indices are given. -/
def portDev (rx tx : Nat) : Dev := devWith [(quadUid 9, 0x4000, 3), (quadUid 9, offLink 39, 4 * 2 ^ 32), (quadUid 9, 0x4118, 0x010203040506),
  (quadUid 9, 0x4260, 9 + 2 ^ 16), (quadUid 9, 0x4268, rx), (quadUid 9, 0x4270, 9 + 2 ^ 17), (quadUid 9, 0x4278, tx)] xrDev

theorem witness_LinkCommands_ports :
    let d := portDev (2 + 2 ^ 16) (2 + 2 ^ 16)
    let u := (portUnit 39).1
    let r := (portUnit 39).2
    let b : List Byte := [1, 2, 3, 4, 5, 6] ++ List.replicate 54 0
    let busy (n : Nat) : Dev := { d with nt := { d.nt with jobs := [⟨u, n, [], 0, 0⟩] } }
    let done (n : Nat) : Bool := match (busy n).engRead ((busy n).ringAt u n (bits ((busy n).ringI u n) 16 16)) 16 with
      | (_, .ok ds) => ds.length == 16
      | _ => false
    Dev.reset.ethUp 41 = false ∧ d.ethUp 39 = true ∧
    (b.length = 60 ∧ fBe b 12 2 ≠ 0x8808 ∧ fBe b 0 6 = bits (d.portMac 39) 0 48 ∧ d.streamFor 39 b = none ∧ d.isPtp 39 b = false ∧
      d.ringFree u r = true ∧ (portDev 1 0).ringFree u r = true ∧ (portDev 0 0).ringFree u r = false) ∧
    (d.ringFree u (r + 1) = true ∧ (portDev 0 0).ringFree u (r + 1) = false ∧
      (match d.engRead (d.ringAt u (r + 1) (bits (d.ringI u (r + 1)) 16 16 + d.ringBusy u (r + 1))) 16 with
       | (e, .ok ds) => e.inRange (leNat (ds.take 8)) (max 1 (dLe ds 8 2)) && (match e.engRead (leNat (ds.take 8)) (dLe ds 8 2) with
         | (_, .ok bs) => bs.length == 0
         | _ => false)
       | _ => false) = true) ∧
    ((busy r).nt.jobs.find? (fun j => j.unit == u && j.ring == r + false.toNat) = some ⟨u, r, [], 0, 0⟩ ∧
      (busy (r + 1)).nt.jobs.find? (fun j => j.unit == u && j.ring == r + true.toNat) = some ⟨u, r + 1, [], 0, 0⟩ ∧ done r = true ∧ done (r + 1) = true) := by
  decide +kernel

/-- Link 39 as a Trelub link in a given state. -/
def linkDev (st : Nat) (f : LinkSt → LinkSt := id) : Dev :=
  (devWith [(quadUid 9, 0x4000, 6), (quadUid 9, offLink 39, st * 2 ^ 32 + 9 * 2 ^ 16 + 2 ^ 48 * 50), (hubUid 0, 0x8000, 7 + 2 ^ 12 * 39), (hbUid, 0x8000, 3)]).modLink 39 f

/-- A whole-unit frame for device 7 with class 2. -/
def frame5 : TFrame := ⟨2, 1, 0, 1, 0, 9, 7, 0, natLe 8 5⟩

/-- The frame's own CRC is right, and another is wrong. -/
theorem witness_LinkCommands_crc :
    let b := (frame5.bytes 0 0).take 252
    frame5.bytes 0 0 = b ++ natLe 4 (crc32c b) ∧ b.length = 252 ∧ crc32c ((frame5.bytes 0 0).take 252) = dLe (frame5.bytes 0 0) 252 4 ∧
      (let bad := b ++ natLe 4 (crc32c b + 1)
       bad.length = 256 ∧ crc32c (bad.take 252) ≠ dLe bad 252 4) := by
  have hl : ((frame5.bytes 0 0).take 252).length = 252 := by decide +kernel
  have h1 : frame5.bytes 0 0 = (frame5.bytes 0 0).take 252 ++ natLe 4 (crc32c ((frame5.bytes 0 0).take 252)) := by
    generalize hb : (frame5.bytes 0 0).take 252 = b at *
    simp only [TFrame.bytes] at hb ⊢
    rw [List.take_left' (by decide +kernel)] at hb
    rw [hb]
  have hlt : crc32c ((frame5.bytes 0 0).take 252) < 2 ^ 32 := BitVec.isLt _
  generalize (frame5.bytes 0 0).take 252 = b at *
  refine ⟨h1, hl, ?_, ?_, ?_⟩
  · rw [h1, dLe, List.drop_left' hl, List.take_of_length_le (by simp [length_natLe]), leNat_natLe, Nat.mod_eq_of_lt (by omega)]
  · simp [hl, length_natLe]
  · rw [List.take_left' hl, dLe, List.drop_left' hl, List.take_of_length_le (by simp [length_natLe]), leNat_natLe]
    omega

theorem witness_LinkCommands_links :
    let l (n : Nat) : Dev := linkDev n
    let good := frame5.bytes 0 0
    ((l 0).isLink 39 = true ∧ (l 0).linkState 39 = 0 ∧ (l 1).linkState 39 = 1 ∧
      (let x := { linkDev 0 (fun k => { k with failed := 1 }) with dt := 1000000000 }
       (x.link 39).failed ≠ 0 ∧ (x.link 39).failed - 1 + 1000000000 ≤ x.dt ∧ x.linkState 39 = 0 ∧ x.isLink 39 = true)) ∧
    ((l 2).isTrelub 39 = true ∧ (l 2).linkState 39 = 2 ∧ (l 2).ownId = 7 ∧ (l 2).fld (quadUid 9) (offLink 39) 16 12 = 9 ∧ (l 2).linkWidth 39 = 1) ∧
    ((l 3).linkState 39 = 3 ∧ ((l 3).link 39).echoes < 15 ∧ ((linkDev 3 (fun k => { k with echoes := 15, rtt := 1000 })).link 39).echoes = 15) ∧
    ((l 4).linkState 39 = 4 ∧
      (let k := ((l 4).linkAck 39 0).link 39
       (if k.nakSeq = 0 then k.naks + 1 else 1) < 8) ∧
      (let k := ((linkDev 4 (fun k => { k with nakSeq := 5, naks := 7 })).linkAck 39 5).link 39
       8 ≤ (if k.nakSeq = 5 then k.naks + 1 else 1)) ∧
      (good.length = 256 ∧ ((l 4).link 39).naked = false ∧
        frameTypeOk (parseFrame good).cls (parseFrame good).ty = true ∧ (parseFrame good).cls = 2 ∧ (parseFrame good).dst = (l 4).ownId ∧
        dLe good 2 2 = ((l 4).link 39).expect ∧ dLe good 2 2 ≠ ((linkDev 4 (fun k => { k with expect := 65535 })).link 39).expect) ∧
      ((l 4).link 39).replay.length < 512 ∧ ((l 4).link 39).waiting = []) ∧
    ((l 4).fld hbUid 0x8000 0 3 = 3 ∧ (l 4).fld (hubUid 0) 0x8000 12 6 = 39 ∧ (l 4).linkUp 39 = true ∧ (l 3).linkUp 39 = false) ∧
    ((devWith [(mgtUid 1, 0x4000, 9)]).flag (mgtUid 1) 0x4000 0 = true ∧ (devWith [(mgtUid 1, 0x4000, 9)]).flag (mgtUid 1) 0x4000 3 = true) ∧
    ((devWith [(pcieUid 3, 0x4000, 1 + 4 * 5)]).flag (pcieUid 3) 0x4000 0 = true ∧ (5 : BitVec 3).toNat ≤ (devWith [(pcieUid 3, 0x4000, 1 + 4 * 5)]).fld (pcieUid 3) 0x4000 2 3) := by
  decide +kernel

theorem witness_LinkCommands_proxies :
    let dest := 1 + 3 * 2 + 9 * 2 ^ 9 + 4 * 2 ^ 21 + 6 * 2 ^ 25
    let d := devWith [(mbxU, offProxy 15, dest), (mbxU, offProxy 15 + 0x10, 1)] (linkDev 4)
    let w := BitVec.ofNat 64 dest
    (bit w 0 && bits w 9 12 == 9 && bits w 21 4 == 4) = true ∧ bits w 25 9 = 6 ∧ d.reg mbxU (offProxy 15) = w ∧ d.flag mbxU (mbxOff 6 8) 0 = false ∧
    (d.flag mbxU (offProxy 15 + 0x10) 0 = true ∧ (linkDev 4).flag mbxU (offProxy 15 + 0x10) 0 = false) ∧
    (d.routeDirs 9 3 = [] ∧
      (let x := { d with dt := 100000, nt := { d.nt with proxyAt := [(15, 1)] } }
       SMap.get (fun _ => 0) x.nt.proxyAt 15 = 1 ∧ 1 - 1 + 100000 ≤ x.dt) ∧
      (let x := { d.setRoute 9 (BitVec.ofNat 64 (1 + 2 * 39 + 2 ^ 53)) with dt := 99999, nt := { d.nt with proxyAt := [(15, 1)] } }
       x.dt < 1 - 1 + 100000 ∧ x.routeDirs 9 3 ≠ [])) := by decide +kernel

theorem witness_LinkCommands_memory :
    let d := devWith [(hubUid 0, 0x8200 + 8 * 31, 1 + 2 * 21 + 128 + 9 * 2 ^ 35), (hubUid 0, 0x8200, 1 + 2 * 21 + 9 * 2 ^ 35), (hubUid 0, 0x8100, 1 + 2 * 21 + 2 ^ 33)] xrDev
    let e := d.reg (hubUid 0) (0x8200 + 8 * 31)
    let open_ (src off : Nat) : Bool := bit e 0 && bits e 35 12 == src && decide (off < 2 ^ bits e 1 6) && (d.xrOf (bits e 8 27 * 2 ^ 21 + off / 64 * 64)).isSome
    open_ 9 (2 ^ 21 - 1) = true ∧ open_ 9 (2 ^ 21) = false ∧ open_ 8 0 = false ∧ bit e 7 = true ∧ bit (d.reg (hubUid 0) 0x8200) 7 = false ∧
    (match d.homeLoad engRq 0 with
     | (_, .ok _) => true
     | _ => false) = true ∧
    (match d.engPut 0 [byteOf (7 : BitVec 512) 0] with
     | (_, .ok _) => true
     | _ => false) = true ∧
    (d.remWinOf 0x400000000000).isSome = true := by decide +kernel

theorem witness_LinkCommands_pcie :
    let wait (kind dt : Nat) : Dev := { devWith [(pcieUid 3, 0x4000, 0x80)] xrDev with dt := dt, nt := { Dev.reset.nt with pcie := [⟨3, kind, 4, 0⟩] } }
    (∀ k ∈ [0, 2], (wait k 0).nt.pcie.find? (fun r => r.group == 3) = some ⟨3, k, 4, 0⟩ ∧ 0 + (wait k 50000).pcieCto 3 ≤ (wait k 50000).dt ∧
      (wait k 49999).dt < 0 + (wait k 49999).pcieCto 3) ∧
    (xrDev.xrOf (2 ^ 48 - 1) = none ∧ xrDev.xrOf (2 ^ 30 - 1) = some 0 ∧ xrDev.inRange (2 ^ 30 - 4096) 4096 = true ∧ xrDev.flag (hubUid 0) 0x5008 24 = true ∧
      (match xrDev.engRead 64 64 with
       | (_, .ok _) => true
       | _ => false) = true ∧
      (match xrDev.engWrite 64 [1, 2] with
       | (_, .ok _) => true
       | _ => false) = true) ∧
    (xrDev.flag (evcUid 0) (offEvSrc (0xC00 + 256 * 3 + 255)) 1 = false ∧ xrDev.flag (pcieUid 3) 0x2000 0 = false ∧ (wait 0 0).flag (pcieUid 3) 0x4000 7 = true) := by
  decide +kernel

/-! Boot. -/

/-- An entry of a directory, with its CRC. -/
def dirEnt (ty part off len : Nat) : List Byte :=
  let b := bytesOf 28 [(0, 1, ty), (2, 2, part), (4, 4, off), (8, 4, len)]
  b ++ natLe 4 (crc32c b)

/-- A directory of nine objects: one of each type that it must hold, a loader for partition 3, a key and a revocation record. -/
def dirB : List Byte :=
  let es := [dirEnt 1 0 4096 384, dirEnt 2 0 8192 384, dirEnt 3 0 12288 1064, dirEnt 4 0 16384 1000, dirEnt 8 0 20480 4096, dirEnt 9 0 24576 4096,
    dirEnt 5 3 28672 400, dirEnt 6 0 32768 576, dirEnt 7 0 36864 576]
  let h := bytesOf 60 [(0, 4, 0x4C535843), (4, 2, 0x100), (6, 2, es.length)]
  let b := h ++ natLe 4 (crc32c h) ++ es.flatten
  b ++ List.replicate (2048 - b.length) 0

/-- The device with good supplies, before B0 has run; and in a boot stage, with that directory and some objects copied. -/
def powered : Dev :=
  let p := { Dev.reset.pw with good := true }
  { Dev.reset with pw := p, dt := 800 }
def staged (n : Nat) (objs : List (Nat × List Byte)) (rs : List (Nat × Nat × Nat) := []) (d : Dev := powered) : Dev :=
  let b := { d.bt with dir := dirB, objs := objs }
  devWith ([(bootUid, 0x4000, n)] ++ rs) { d with bt := b }

/-- An object of a type with some fields of its own; its header ends in its CRC. -/
def objHead (ty n signer : Nat) (xs : List (Nat × Nat × Nat)) : List Byte :=
  bytesOf 124 ([(0, 4, 0x424F5843), (4, 2, 0x100), (6, 1, ty), (7, 1, signer), (8, 4, n), (12, 4, n - 384), (16, 2, 0x288)] ++ xs)
def objBody (ty n signer : Nat) (xs body : List (Nat × Nat × Nat)) : List Byte :=
  let h := objHead ty n signer xs
  h ++ (natLe 4 (crc32c h) ++ bytesOf (n - 128) body)

theorem headCrc (h t : List Byte) (hl : h.length = 124) : (crc32c ((h ++ (natLe 4 (crc32c h) ++ t)).take 124) ==
    iLe (h ++ (natLe 4 (crc32c h) ++ t)) 124 4) = true := by
  have hlt : crc32c h < 2 ^ 32 := BitVec.isLt _
  rw [List.take_left' hl, iLe, List.drop_left' hl, List.take_left' (length_natLe 4 _), leNat_natLe, Nat.mod_eq_of_lt (by omega)]
  exact beq_self_eq_true _

theorem witness_BootCommands_start :
    let d := powered
    (d.pw.good = true ∧ d.stage = 0 ∧ d.bt.dir = [] ∧ d.pw.deep = .run) ∧ dirOk dirB = true ∧ dirOk [] = false ∧
    d.whyB false false = 0 ∧ d.whyB true false = 1 ∧
    (∀ n ∈ [0, 1, 2], ∃ o, (staged n [(0, [1]), (1, [2])]).stage = n ∧ (staged n [(0, [1]), (1, [2])]).objOf (if n = 1 then 2 else 1) 0 = some o) ∧
    (d.flag hbUid 0xB000 0 = false ∧ (devWith [(hbUid, 0xB000, 1)]).flag hbUid 0xB000 0 = true ∧
      (staged 2 [(3, [9])]).objOf 4 0 = some (3, [9]) ∧ (staged 2 [(3, [9])]).flag hbUid 0xB000 0 = false) ∧
    Dev.reset.pw.good = false ∧
    (let x := { d with dt := 70000000000, bt := { d.bt with allAt := 1 } }
     x.bt.allAt ≠ 0 ∧ x.bt.allAt + 60000000000 ≤ x.dt + 1) := by
  refine ⟨by decide +kernel, by decide +kernel, by decide +kernel, by decide +kernel, by decide +kernel, ?_, by decide +kernel, by decide +kernel, by decide +kernel⟩
  intro n hn
  simp only [List.mem_cons, List.not_mem_nil, or_false] at hn
  obtain rfl | rfl | rfl := hn
  · exact ⟨(0, [1]), by decide +kernel⟩
  · exact ⟨(1, [2]), by decide +kernel⟩
  · exact ⟨(0, [1]), by decide +kernel⟩

/-- A record of partition 3: one logical core on core 7, a private window of 2 MiB. -/
def bootRec (vec : Nat) : PartRec :=
  let c : CoreEnt := ⟨5, false, false, false, [7, 0xFFFF, 0xFFFF], vec, 0, 0, 0, [1, 1, 1]⟩
  let w : WinEnt := ⟨[0, 0, 0], 21, 7, 0, 0, 0, false⟩
  ⟨3, 0, 0x70, 0, 0xFF, 0, [], [c], [w], [], []⟩

/-- Objects of the directory: of B1, of the firmware, the loader of partition 3, a key record for slot 1 and a revocation record for slot 2,
both signed under a given slot. -/
def b1Obj : List Byte := objBody 1 384 0 [] []
def fwObj : List Byte := objBody 2 384 0 [] []
def ldObj : List Byte := objBody 5 400 1 [(18, 2, 3), (20, 1, 1)] [(0, 8, 0x1122334455667788)]
def keyObj (slot : Nat) : List Byte := objBody 6 576 1 [] [(0, 1, 1), (16, 8, 77), (196, 1, slot)]
def revObj (slot : Nat) : List Byte := objBody 7 576 1 [] [(0, 1, 2), (196, 1, slot)]

/-- The device after B1, whose key slots 0 and 3 are programmed; slot 0 holds the hash of the key in those records. -/
def keyed (objs : List (Nat × List Byte)) (fs : Nat := 9) : Dev :=
  let d := staged 2 objs [(bootUid, 0x4010, fs)]
  let k := { d.kp with image := [1], recs := [bootRec 0xE0001FF00000] }
  { d with kp := k, nv := { d.nv with keyHash := [(0, Config.sha384 (List.replicate 96 0) + 1)] } }

theorem witness_BootCommands_ok :
    objOk (dirEnt 1 0 4096 384) b1Obj = true ∧ objOk (dirEnt 2 0 8192 384) fwObj = true ∧ objOk (dirEnt 5 3 28672 400) ldObj = true ∧
      objOk (dirEnt 6 0 32768 576) (keyObj 4) = true ∧ objOk (dirEnt 7 0 36864 576) (revObj 4) = true := by
  refine ⟨?_, ?_, ?_, ?_, ?_⟩ <;>
  · unfold objOk
    dsimp only
    refine (Bool.and_eq_true _ _).mpr ⟨?_, headCrc _ _ (by decide +kernel)⟩
    decide +kernel

theorem witness_BootCommands_objects :
    ((staged 0 []).dirEntry 0 = dirEnt 1 0 4096 384 ∧ (staged 1 []).dirEntry 1 = dirEnt 2 0 8192 384 ∧ (staged 2 []).dirEntry 6 = dirEnt 5 3 28672 400 ∧
      (staged 2 []).dirEntry 7 = dirEnt 6 0 32768 576 ∧ (staged 2 []).dirEntry 8 = dirEnt 7 0 36864 576) ∧
    (stageOf 1 (staged 0 []).stage = true ∧ stageOf 2 (staged 1 []).stage = true ∧ (∀ ty ∈ [3, 5, 6, 7], stageOf ty (staged 2 []).stage = true)) ∧
    iLe (staged 0 []).bt.dir 6 2 = 9 ∧ iLe ((staged 2 []).dirEntry 2) 0 1 = 3 ∧ (List.replicate 1064 (5 : Byte)).length = iLe ((staged 2 []).dirEntry 2) 8 4 ∧
    (iLe b1Obj 12 4 ≤ 6 * 65536 ∧ iLe fwObj 12 4 ≤ 6 * 65536 ∧ (keyed []).loaderFits ldObj = true) ∧
    ((keyed []).objTrust (keyObj 4) false = 5 ∧ (keyed []).objTrust (revObj 4) false = 5) ∧ (staged 10 []).slotB = true := by
  refine ⟨by decide +kernel, by decide +kernel, by decide +kernel, by decide +kernel, by decide +kernel, by decide +kernel, ⟨?_, ?_⟩, by decide +kernel⟩
  · have h : 3 < iLe (objSig (keyObj 4)) 4 1 := by decide +kernel
    have h0 : iLe (keyObj 4) 7 1 = 1 := by decide +kernel
    simp [Dev.objTrust, Dev.keyCheck, h, h0]
  · have h : 3 < iLe (objSig (revObj 4)) 4 1 := by decide +kernel
    have h0 : iLe (revObj 4) 7 1 = 1 := by decide +kernel
    simp [Dev.objTrust, Dev.keyCheck, h, h0]

/-- Whether a signature verifies is free: where the key of an object is the one asked for and its signature verifies, the object is trusted. -/
theorem witness_BootCommands_trusted
    (hk : Config.sha384 (List.replicate 96 0) = Config.sha384 (Config.vendorKey 0))
    (hs : ∀ b ∈ [b1Obj, fwObj, ldObj, keyObj 0, revObj 0], sigOk b = true) :
    (staged 0 []).objTrust b1Obj false = 0 ∧ (staged 1 []).objTrust fwObj false = 0 ∧
    ∀ b ∈ [ldObj, keyObj 0, revObj 0], ∀ objs, (keyed objs).objTrust b false = 0 := by
  have key : ∀ b ∈ [b1Obj, fwObj, ldObj, keyObj 0, revObj 0], ((objSig b).drop 8).take 96 = List.replicate 96 0 ∧ iLe (objSig b) 4 1 = 0 := by
    decide +kernel
  refine ⟨?_, ?_, ?_⟩
  · obtain ⟨k1, k2⟩ := key b1Obj (by simp)
    have h0 : iLe b1Obj 7 1 = 0 := by decide +kernel
    have hr : (staged 0 []).flag bootUid 0x4010 8 = false := by decide +kernel
    simp [-List.reduceReplicate, Dev.objTrust, Dev.keyCheck, h0, k1, k2, hr, hs b1Obj]
    first | exact fun _ => hk | exact hk
  · obtain ⟨k1, k2⟩ := key fwObj (by simp)
    have h0 : iLe fwObj 7 1 = 0 := by decide +kernel
    have hr : (staged 1 []).flag bootUid 0x4010 8 = false := by decide +kernel
    simp [-List.reduceReplicate, Dev.objTrust, Dev.keyCheck, h0, k1, k2, hr, hs fwObj]
    first | exact fun _ => hk | exact hk
  · intro b hb objs
    obtain ⟨k1, k2⟩ := key b (by simp only [List.mem_cons, List.not_mem_nil, or_false] at hb ⊢; exact .inr (.inr hb))
    have h0 : ∀ b ∈ [ldObj, keyObj 0, revObj 0], iLe b 7 1 = 1 := by decide +kernel
    have hr : (keyed objs).fuseRevoked 0 = false := by
      have h : (keyed []).fuseRevoked 0 = false := by decide +kernel
      exact h
    have hn : SMap.get (fun _ => 0) (keyed objs).nv.keyHash 0 = Config.sha384 (List.replicate 96 0) + 1 := rfl
    simp [-List.reduceReplicate, Dev.objTrust, Dev.keyCheck, h0 b hb, k1, k2, hr, hn, hs b (by simp only [List.mem_cons, List.not_mem_nil, or_false] at hb ⊢; exact .inr (.inr hb))]

theorem witness_BootCommands_records :
    let d := keyed [(7, keyObj 0), (8, revObj 0)]
    d.kp.image ≠ [] ∧ d.bt.objs.find? (fun x => x.1 == 7) = some (7, keyObj 0) ∧ d.bt.objs.find? (fun x => x.1 == 8) = some (8, revObj 0) ∧
    (iLe (d.dirEntry 7) 0 1 = 6 ∧ iLe (keyObj 0) 128 1 = 1 ∧ iLe (objSig (keyObj 0)) 4 1 ≠ iLe (keyObj 0) 128 1 ∧ d.flag bootUid 0x4010 1 = false ∧
      zeros (keyObj 0) 129 15 = true ∧ (keyed [] 11).flag bootUid 0x4010 1 = true) ∧
    (iLe (d.dirEntry 8) 0 1 = 7 ∧ iLe (revObj 0) 129 1 = 0 ∧ iLe (revObj 0) 128 1 = 2 ∧ zeros (revObj 0) 130 62 = true ∧
      iLe (objSig (revObj 0)) 4 1 ≠ iLe (revObj 0) 128 1 ∧ iLe (revObj 0) 7 1 ≠ 0 ∧ (0 ≠ 2 ∧ d.flag bootUid 0x4010 0 = true ∧ d.fuseRevoked 0 = false) ∧
      (keyed [] 0).flag bootUid 0x4010 0 = false ∧ (keyed [] 0).flag bootUid 0x4010 1 = false ∧ (keyed [] 0).flag bootUid 0x4010 3 = false) ∧
    (∀ k ∈ [0, 1, 2], let x := staged 2 [] [(hbUid, 0x9030, 2 ^ 15)]
     let f := { x with bt := { x.bt with fuseJobs := [(k, 3, 7)] } }
     f.bt.fuseJobs = (k, 3, 7) :: [] ∧ f.nvAllowed = true ∧ (staged 2 [] [(hbUid, 0x9030, 2 ^ 15 + 1)]).nvAllowed = false) := by
  refine ⟨by decide +kernel, rfl, rfl, ?_⟩
  decide +kernel

/-- A loader of sixteen bytes for partition 3, with no CRC. -/
def ldRaw : List Byte := objHead 5 400 1 [(18, 2, 3), (20, 1, 1)] ++ bytesOf 276 [(4, 8, 0x1122334455667788)]

/-- That loader goes to the local store of core 7, and the partition is released. -/
theorem witness_BootCommands_release :
    let d (vec : Nat) (obj : Bool) : Dev :=
      let x := staged 4 (if obj then [(6, ldRaw)] else [])
      let y := ({ x with kp := { x.kp with recs := [bootRec vec] } }.placePart (bootRec vec)).setFlag (coreUid 7) 0x4000 3 false
      devWith [(coreUid 7, 0x4300, l3Uid 1 + 2 ^ 16), (hubUid 0, offRange 0, 1), (hubUid 0, offRange 0 + 8, 1 + 2 ^ 16 * 8), (mcUid 0, 0x4030, 2 + 8 * 2 ^ 9),
        (mcUid 0, 0x4000, 0xE0)] { y with bt := { y.bt with planDone := true, loaded := [3] } }
    let v := 0xE0001FF00000
    let r := bootRec v
    let body := (ldRaw.drop 128).take (iLe ldRaw 12 4)
    ((d v true).objOf 5 3 = some (6, ldRaw) ∧ (d v true).recOf 3 = some r ∧ (d v true).kp.released.contains 3 = false ∧
      (∀ a ∈ (d v true).loaderPlaces r ldRaw, a < 2 ^ 47 → (d v true).extentReady a body.length = true) ∧
      (d v true).loaderPlaces r ldRaw = [2 ^ 47 + 7 * 2 ^ 17] ∧ ((d v true).loaderWrite 3 ((d v true).loaderPlaces r ldRaw) body).2 = true) ∧
    ((d v true).bt.planDone = true ∧ (d v true).flag bootUid 0x2000 0 = false ∧ (d v true).hasLoader 3 = true ∧ (d v true).bt.loaded.contains 3 = true ∧
      r.vectorBad = none ∧ (bootRec 0x200000).vectorBad = some 5 ∧ (d 0x200000 true).recOf 3 = some (bootRec 0x200000) ∧
      (let x := d v true
       let y := { x with kp := { x.kp with recs := [{ r with part := 4 }] } }
       y.recOf 4 = some { r with part := 4 } ∧ y.hasLoader 4 = false)) ∧
    (d v true).releasable r = true ∧ (d 0x200000 true).releasable (bootRec 0x200000) = true := by decide +kernel

/-- An image of which nothing is right, in each slot. -/
theorem witness_BootCommands_image :
    let img : List Byte := List.replicate 1064 5
    ∀ n ∈ [2, 10], (staged n [(2, img)]).stage = 2 ∧ (staged n [(2, img)]).objOf 3 0 = some (2, img) ∧ (staged n [(2, img)]).slotB = decide (n = 10) ∧
      (staged n [(2, img)]).structCheck img (iLe ((staged n [(2, img)]).dirEntry 2) 8 4) = some (0x0101, 0) := by decide +kernel

/-! An image with nothing wrong. -/

/-- The CRC of R565 on numbers; the accumulator is forced at each byte, so that the kernel evaluates a long one. -/
def crcN : List Byte → Nat → Nat
  | [], r => r
  | x :: xs, 0 => crcN xs (crc32cByte 0 x).toNat
  | x :: xs, r + 1 => crcN xs (crc32cByte (BitVec.ofNat 32 (r + 1)) x).toNat

theorem crcN_eq (bs : List Byte) : ∀ r : BitVec 32, crcN bs r.toNat = (bs.foldl crc32cByte r).toNat := by
  induction bs with
  | nil => intro r; rfl
  | cons x xs ih =>
    intro r
    have h : ∀ n, n < 2 ^ 32 → crcN (x :: xs) n = crcN xs (crc32cByte (BitVec.ofNat 32 n) x).toNat := by
      intro n _
      cases n <;> rfl
    rw [h _ r.isLt, BitVec.ofNat_toNat, BitVec.setWidth_eq, ih]
    rfl

def crcF (bs : List Byte) : Nat := (~~~(BitVec.ofNat 32 (crcN bs 0xFFFFFFFF))).toNat
theorem crcF_eq : crc32c = crcF := by
  funext bs
  have h := crcN_eq bs (BitVec.allOnes 32)
  rw [show (BitVec.allOnes 32).toNat = 0xFFFFFFFF from by decide] at h
  rw [crc32c, crcF, h, BitVec.ofNat_toNat, BitVec.setWidth_eq]

/-- A section with its frame, CRC and padding. -/
def frameOf (ty : Nat) (body : List Byte) : List Byte :=
  let b := natLe 2 ty ++ natLe 2 0 ++ natLe 4 body.length ++ body
  b ++ natLe 4 (crcF b) ++ List.replicate ((8 - (b.length + 4) % 8) % 8) 0

/-- An image of one partition: one core, one way of one slice, no window; one channel of 8 GiB. -/
def soundImg : List Byte :=
  let mc : List Byte := natLe 8 0x10204A0C20 ++ bytesOf 8 [(0, 1, 8), (1, 1, 24)]
  let core : CoreEnt := ⟨0, false, false, false, [0, 0xFFFF, 0xFFFF], 0xE0001FF00000, 0, 0, 0, [1, 0, 0]⟩
  let ss := frameOf 1 (bytesOf 16 [(0, 2, 7), (2, 2, 1000)]) ++ frameOf 2 (List.replicate 72 0) ++
    frameOf 4 ([1] ++ List.replicate 15 0 ++ (List.replicate 12 mc).flatten ++ bytesOf 24 [(8, 8, 1), (16, 8, 1 + 2 ^ 16 * 8)]) ++
    frameOf 5 ((List.replicate 16 (natLe 8 (2 ^ 16 * 8))).flatten) ++
    frameOf 6 (encodeRec ⟨3, 0, 0, 0, 0xFF, 0, [], [core], [], [⟨l3Uid 0, 1, 0⟩], []⟩) ++
    frameOf 0xE (bytesOf 8 [(0, 1, 80)] ++ (List.replicate 8 (bytesOf 8 [(1, 1, 5), (2, 1, 20), (4, 2, 550)])).flatten) ++ frameOf 0xF (List.replicate 16 0)
  let h := bytesOf 60 [(0, 4, 0x53444541), (4, 2, 0x100), (6, 2, 64), (8, 4, 320 + ss.length), (12, 4, 7), (16, 8, 1), (24, 2, 0x288), (26, 1, 3)]
  h ++ natLe 4 (crcF h) ++ ss ++ [0x53, 0x49, 0x47, 0x4E] ++ List.replicate 252 0

/-- The device in the keeper firmware's stage, with that image copied and a DIMM on channel 0. -/
def imgDev : Dev :=
  let d := staged 2 [(2, soundImg)] [(mcUid 0, 0x4000, 8 + 64 + 32)]
  { d with ch := { d.ch with populated := [0] } }

set_option maxRecDepth 100000 in
/-- The ordering code is free; for the code CX288-SA nothing is wrong with the image. -/
theorem witness_BootCommands_sound (h : Config.orderingCode = 0) :
    imgDev.stage = 2 ∧ imgDev.objOf 3 0 = some (2, soundImg) ∧ imgDev.structCheck soundImg (iLe (imgDev.dirEntry 2) 8 4) = none := by
  refine ⟨by decide +kernel, rfl, ?_⟩
  delta Dev.structCheck structRules rules01 imageSects sections
  rw [crcF_eq, h]
  decide +kernel

/-! Epochs. -/

/-- A device in an epoch of a mode and phase, with units still to acknowledge. -/
def epDev (phase strict : Nat) (pend : List Nat) (rs : List (Nat × Nat × Nat) := []) (dt : Nat := 80) : Dev :=
  let d := devWith ([(dieUid 0, 0x4100, 7 + 2 ^ 32 * 3 + 2 ^ 40 * phase + 2 ^ 42 * strict)] ++ rs)
  let e := { d.ep with complete := false, pend := pend }
  { d with dt := dt, ep := e, kp := { d.kp with lpart := [(3, 6), (255, 8)] } }

theorem witness_EpochCommands_posts :
    let d := { Dev.reset with kp := { Dev.reset.kp with lpart := [(3, 6), (255, 8)] } }
    (d.ep.complete = true ∧ strictMode 1 = false ∧ strictMode 14 = true ∧ strictMode 2 = true ∧ strictMode 12 = false ∧
      d.lcorePart 3 = some 5 ∧ d.lcorePart 255 = some 7) ∧
    (∀ ph ∈ [1, 2], (epDev ph 1 []).ep.complete = false ∧ (epDev ph 1 []).epPend = [] ∧ (epDev ph 1 []).epStrict = true ∧
      (3 = bits (epDev ph 1 []).epReg 32 8) ∧ (epDev ph 1 []).epPhase = ph) ∧
    ((epDev 1 1 [quadUid 0]).epPend ≠ [] ∧ (epDev 1 0 []).epStrict = false) := by decide +kernel

theorem witness_EpochCommands_units :
    let u := l2Uid 71
    let c := coreUid 3
    let d := epDev 2 1 [u, c]
    let busy := d.setCore 3 { Core.initial with sb := [⟨0, [], .wb, false, false, 0⟩] }
    (d.ep.held = [] ∧ d.epPend.contains (l2Uid 3) = false ∧ d.epPend.contains u = true ∧ unitKind u = some .l2 ∧
      d.epPend.contains c = true ∧ unitKind c = some .core ∧ d.coreSafe (coreId (uidCore c)) = true ∧ busy.coreSafe (coreId (uidCore c)) = false) ∧
    (let x := { d with ep := { d.ep with values := [(u, 0x4010, 0x123)] } }
     x.epPhase ≠ 1 ∧ x.ep.values = [(u, 0x4010, 0x123)] ∧ (regAt u 0x4010).isSome = true ∧ x.epPend.contains u = true) ∧
    (let q : Req := d.regReq .keeper (ctlAddr u 0x4010) 8 false none
     let x := { d with ep := { d.ep with retry := [(u, q)] } }
     let y := { epDev 3 1 [] with ep := { x.ep with retry := [(u, q)], pend := [] } }
     x.ep.retry.find? (fun e => e.1 == 9) = none ∧ x.ep.retry.find? (fun e => e.1 == u) = some (u, q) ∧ x.epNew u = false ∧ x.epPend ≠ [] ∧
       y.ep.retry.find? (fun e => e.1 == u) = some (u, q) ∧ y.epPend = [] ∧ ({ y with ep := { y.ep with retry := y.ep.retry.erase (u, q) } }).reqWindow q = true) ∧
    (let x := devWith [(u, 8, 16)]
     x.fenced u = true ∧ x.fenced 3 = false ∧ x.ep.values = []) := by decide +kernel

theorem witness_EpochCommands_laggards :
    let d (dt : Nat) (rs : List (Nat × Nat × Nat)) : Dev :=
      let x := epDev 2 1 [quadUid 0, mcUid 1] ([(dieUid 4, 0x4108, 1)] ++ rs) dt
      { x with ep := { x.ep with postedAt := [(4, 81)] } }
    SMap.get (fun _ => 0) (d 0 []).ep.postedAt 4 = 81 ∧ 81 + (d 1080 []).epBound 4 ≤ (d 1080 []).dt + 1 ∧ (d 1079 []).dt + 1 < 81 + (d 1079 []).epBound 4 ∧
      (d 0 []).epPend.filter (fun u => uidDie u == 4) ≠ [] ∧
    (let x := d 2080 [(dieUid 4, 0x4110, 2 ^ 35)]
     81 + 2 * x.epBound 4 ≤ x.dt + 1 ∧ x.flag (dieUid 4) 0x4110 35 = true ∧ x.flag (dieUid 4) 0x2000 0 = false ∧
       (quadUid 0 ∈ x.epPend.filter (fun u => uidDie u == 4) ∧ unitKind (quadUid 0) ≠ none) ∧ (d 2079 []).dt + 1 < 81 + 2 * (d 2079 []).epBound 4) := by
  decide +kernel

theorem witness_EpochCommands_spares :
    let none_ : Dev := forUpto 72 (fun k d => d.setRole (l2Uid k) 0) Dev.reset
    let lost (d : Dev) : Dev := { d with kp := { d.kp with lost := [5] } }
    let d := lost none_
    let e := lost (none_.setRole (l2Uid 71) 1)
    Dev.reset.kp.lost.contains 5 = false ∧ d.kp.lost.contains 5 = true ∧ d.ep.complete = true ∧ spareFor d.rolesNow d.spareUsable 5 = none ∧
      d.flag d.keeperU 0x2000 0 = false ∧ e.kp.lost.contains 5 = true ∧ spareFor e.rolesNow e.spareUsable 5 = some 71 ∧ usersOf e.kp.recs 5 = [] := by
  decide +kernel

/-! Die temperature, pace and time. -/

/-- Every branch of the rules of temperature, pace, rails, ticks, stalls, time counters and references, at a boundary of it. -/
theorem witness_DeviceTimeAndPace_dies :
    let u := dieUid 3
    let d (more : Nat) (hot : List Nat) : Dev :=
      let x := devWith [(u, 0x4008, 85 + 2 ^ 8 * 105 + more), (u, 0x4000, 0)]
      { x with pw := { x.pw with hot := hot } }
    let lim (x : Dev) (lo : Nat) : Int := 8 * (x.fld u 0x4008 lo 8 : Int)
    (lim (d 0 []) 8 = 840 ∧ lim (d 0 []) 0 = 680 ∧ signedOf 12 839 < lim (d 0 []) 8 ∧ (d 0 []).pw.hot.contains 3 = false ∧
      lim (d 0 []) 0 ≤ signedOf 12 680 ∧ signedOf 12 680 < lim (d 0 []) 8 ∧ (d 0 []).flag u 0x2000 0 = false ∧ (d (2 ^ 16) []).flag u 0x4008 16 = true) ∧
    ((d 0 [3]).pw.hot.contains 3 = true ∧ signedOf 12 656 + 24 ≤ lim (d 0 [3]) 0 ∧ signedOf 12 4095 = -1) ∧
    (lim (d 0 [3]) 8 ≤ signedOf 12 840 ∧ (d 0 [3]).flag u 0x4000 12 = false ∧ -2048 < lim (d 0 [3]) 8 ∧ (d 0 [3]).flag u 0x4008 17 = false ∧
      lim (d 0 [3]) 0 < signedOf 12 840 + 24) ∧
    ((d (2 ^ 17) []).flag u 0x4008 17 = true ∧ lim (d (2 ^ 17) []) 8 ≤ signedOf 12 840 ∧ (287 : CoreId).val / 72 = 3) := by decide +kernel

theorem witness_DeviceTimeAndPace_pace :
    let u := regionUid 7
    let d (req : Nat) (rail : Nat) (flr : List Nat) : Dev :=
      let x := ((devWith [(u, 0x4000, req + 2 ^ 16 * 5 + 2 ^ 24 * 20), (u, 0x4100, 2 ^ 16 * 1200)]).setRail 7 rail).setRole (l2Uid 63) 0
      { x with kp := { x.kp with floorMode := flr } }
    let only (x : Dev) : Bool := (List.range 9).all (fun c => x.clusterActive (63 + c) == decide (c = 0))
    let below (x : Dev) : Dev := forUpto 8 (fun k x => x.setRole (l2Uid (64 + k)) 1) x
    let above (x : Dev) : Bool := (List.range 9).all (fun c => !x.clusterActive (63 + c) ||
      decide (x.fld u 0x4000 0 16 * (100 + x.fld u 0x4000 24 8) ≤ 100 * x.fld u (0x4100 + 8 * c) 16 16))
    (3 ≤ (Dev.reset.setPower (l2Uid 71) 3).power (l2Uid 71) ∧ (d 1000 600 []).power (l2Uid 63) < 3 ∧ (d 1000 600 []).role (l2Uid 63) = 0 ∧
      (d 1000 600 []).fld u 0x4000 0 16 ≠ 0 ∧ 100 * (1049 : BitVec 16).toNat < (d 1000 600 []).fld u 0x4000 0 16 * (100 + (d 1000 600 []).fld u 0x4000 16 8)) ∧
    ((d 1000 0 []).railOf 7 = 0 ∧ (d 1000 600 [7]).railOf 7 ≠ 0 ∧ (d 1000 600 [7]).kp.floorMode.contains 7 = true ∧
      (d 1000 600 []).kp.floorMode.contains 7 = false ∧ only (below (d 1000 600 [])) = true ∧ above (below (d 1000 555 [])) = true ∧
      above (below (d 1001 555 [])) = false ∧ 555 ≤ (below (d 1000 555 [])).railOf 7 ∧ (below (d 1000 554 [])).railOf 7 < 555 ∧
      (below (d 1001 895 [])).railOf 7 ≤ 895 ∧ 895 < (below (d 1001 900 [])).railOf 7) ∧
    ((devWith [(u, 0x4000, 2 ^ 32)]).flag u 0x4000 32 = true ∧ (d 1000 600 []).flag u 0x4000 32 = false ∧
      ({ Dev.reset with tm := { Dev.reset.tm with noTick := [7] } }).tm.noTick.contains 7 = true ∧ Dev.reset.tm.noTick.contains 7 = false ∧
      Dev.reset.flag u 0x2000 0 = false ∧ Dev.reset.flag Dev.reset.keeperU 0x2000 0 = false) ∧
    (let x := (d 1000 600 []).setRail 7 700
     SMap.get (fun _ => 0) ({ x with pw := { x.pw with railAt := [(7, 1)] } }).pw.railAt 7 ≠ 0) := by decide +kernel

theorem witness_DeviceTimeAndPace_time :
    (Dev.reset.canStall (l2Uid 71) 5 = true ∧ l2Uid 71 < 0xC000 ∧ (port (l2Uid 71) 5).1 ≠ l2Uid 71 ∧ Dev.reset.canStall (l2Uid 71) 6 = false) ∧
    (let d := { Dev.reset with dt := 8192, tm := { Dev.reset.tm with tc := [(71, 8193)] } }
     d.dt % 8192 = 0 ∧ d.tm.load = none ∧ d.counterValid 71 = true ∧ ({ d with dt := 8200 }).dt % 8192 ≠ 0 ∧
       ({ d with tm := { d.tm with load := some 5 } }).tm.load = some 5) ∧
    (Dev.reset.fld hbUid 0x8000 0 3 ≠ 2 ∧ (devWith [(hbUid, 0x8000, 2)]).fld hbUid 0x8000 0 3 = 2 ∧ (devWith [(hubUid 0, 0x70F0, 1)]).anyCadence = true ∧
      Dev.reset.anyCadence = false ∧ -51200000 ≤ (51200000 : BitVec 32).toInt ∧ (51200000 : BitVec 32).toInt ≤ 51200000 ∧ (-99 : Int).natAbs < 100 ∧
      ¬(-100 : Int).natAbs < 100) ∧
    ((devWith [(hbUid, 0x8000, 0)]).fld hbUid 0x8000 0 3 = 0 ∧ (devWith [(hbUid, 0x8000, 4)]).fld hbUid 0x8000 0 3 = 4) := by decide +kernel

/-! Power. -/

/-- A core with logical core 5 of partition 3, doing something. -/
def resting (c : CoreId) (r : RunState) (d : Dev := Dev.reset) : Dev :=
  d.setCore c { Core.initial with placed := true, run := r, part := 3, lcore := 5, pc := 44 }
def pwDev (f : PowerSt → PowerSt) (d : Dev := Dev.reset) : Dev := { d with pw := f d.pw }
def later (n : Nat) (d : Dev) : Dev := { d with dt := n }

theorem witness_PowerCommands_nap :
    let u := coreUid 287
    let d (dt : Nat) : Dev := later dt ((devWith [(u, 0x4480, 1 + 16 * 8)]).setPower u 1)
    let due (x : Dev) : Bool := x.flag u 0x4480 0 && x.power u == 1 && decide ((x.core 287).dozeAt + 1000 * x.fld u 0x4480 4 12 ≤ x.dt)
    (due (d 8000) = true ∧ due (d 7999) = false ∧ (d 8000).inboxPending 287 = [] ∧ due ((d 8000).setFlag u 0x4400 63 true) = true ∧
      ((d 8000).setFlag u 0x4400 63 true).inboxPending 287 ≠ []) ∧
    (let x (dt : Nat) : Dev := later dt (pwDev (fun p => { p with napWake := [(287, 1)] }))
     SMap.get (fun _ => 0) (x 0).pw.napWake 287 = 1 ∧ 1 + 4000 ≤ (x 4000).dt + 1 ∧ (x 3999).dt + 1 < 1 + 4000) ∧
    (let x : Dev := (later 0 (resting 287 (.waitb 15 4) (devWith [(hubUid 0, 0x70F0, 1)]))).setPower u 2
     (x.core 287).run = .waitb 15 4 ∧ x.cadEn 15 = true ∧ x.dtStart 15 ((SMap.get (fun _ => 0) (x.core 287).lastBlk 15 : Nat) : Int) ≤ x.dt ∧ x.power u = 2 ∧
       SMap.get (fun _ => 0) x.pw.napWake 287 = 0) ∧
    ((resting 287 .run).core 287).run = .run := by decide +kernel

theorem witness_PowerCommands_hold :
    let k := 71
    let g := regionUid 7
    let d (r : RunState) : Dev := later 800000 (resting 284 r)
    let wake (dt : Nat) : Dev := later dt (pwDev (fun p => { p with holdWake := [(k, 1)] }) { Dev.reset with tm := { Dev.reset.tm with tc := [(71, 8193)] } })
    (3 ≤ ((d .waite).setPower (l2Uid k) 3).power (l2Uid k) ∧ (d .waite).power (l2Uid k) < 3 ∧ (d .waite).holdRefused k = none ∧
      ((d .waite).setFlag (coreUid 284) 0x4400 3 true).holdRefused k ≠ none ∧ (d .waite).allDoze k = true ∧ (d .run).allDoze k = false ∧ (d .run).holdRefused k = none) ∧
    ((Dev.reset.setPower (l2Uid k) 3).power (l2Uid k) = 3 ∧ SMap.get (fun _ => 0) Dev.reset.pw.holdWake k = 0 ∧
      SMap.get (fun _ => 0) (wake 0).pw.holdWake k ≠ 0 ∧ ((wake 0).setPower (l2Uid k) 3).power (l2Uid k) = 3 ∧
      (Dev.reset.setFlag g 0x4300 8 true).flag g 0x4300 8 = true ∧ (Dev.reset.setFlag g 0x4300 8 true).power (l2Uid k) < 3) ∧
    (1 + 20000 ≤ (wake 20000).dt + 1 ∧ (wake 19999).dt + 1 < 1 + 20000 ∧ (wake 20000).counterValid k = true ∧ (wake 8000).counterValid k = false ∧
      (wake 20000).flag g 0x2000 0 = false ∧ (wake 20000).ep.values = []) := by decide +kernel

theorem witness_PowerCommands_regions :
    let u := regionUid 7
    let free (d : Dev) : Bool := (regionClusters 7).all (fun k => d.flag u 0x4300 (32 + k % 9) && (clusterCores k).all (fun c => !(d.core c).placed))
    let d := Dev.reset.setFld u 0x4300 32 9 0x1FF
    let w (dt : Nat) : Dev := later dt (pwDev (fun p => { p with regionWake := [(7, 1)] }))
    (d.flag u 0x4300 48 = false ∧ free d = true ∧ free (Dev.reset.setFld u 0x4300 32 9 0xFF) = false ∧ free (resting 287 .reset d) = false ∧
      (d.setFlag u 0x4300 48 true).flag u 0x4300 48 = true ∧ SMap.get (fun _ => 0) d.pw.regionWake 7 = 0) ∧
    (SMap.get (fun _ => 0) (w 0).pw.regionWake 7 ≠ 0 ∧ 1 + 200000 ≤ (w 200000).dt + 1 ∧ (w 199999).dt + 1 < 1 + 200000) := by decide +kernel

theorem witness_PowerCommands_deep :
    let d (p : DeepPhase) (n : Nat) (x : Dev := Dev.reset) : Dev := pwDev (fun q => { q with deep := p, deepStep := n }) x
    (Dev.reset.pw.deep ≠ .entering ∧ Dev.reset.pw.keeperOnly = false ∧ (d .entering 0).pw.deep = .entering) ∧
    ((devWith [(hbUid, 0x9000, 2 ^ 22)]).wakeEnabled 8 = true ∧ Dev.reset.wakeEnabled 10 = false ∧ (devWith [(hbUid, 0x9000, 2 ^ 6)]).wakeEnabled 6 = true ∧ (devWith [(hbUid, 0x9000, 2 ^ 24 + 2 ^ 6)]).wakeEnabled 6 = false ∧ (d .deep 0 (devWith [(hbUid, 0x9000, 2)])).wakeEnabled 1 = true ∧
      (d .entering 0 (devWith [(hbUid, 0x9000, 2)])).wakeEnabled 1 = true) ∧
    (let x (dt : Nat) : Dev := later dt (d .deep 0 { Dev.reset with sv := { Dev.reset.sv with sentAt := 8, sentMs := 10000 } })
     (x 0).pw.deep = .deep ∧ (x 0).sv.sentAt + 500000 * (x 0).sv.sentMs ≤ (x 5000000008).dt ∧ (x 5000000007).dt < (x 0).sv.sentAt + 500000 * (x 0).sv.sentMs) ∧
    (∀ n ∈ [1, 2, 3, 4, 5, 6], (d .exiting n).pw.deep = .exiting ∧ (d .exiting n).pw.deepAt + deepTimes.getD n 0 ≤ (later (deepTimes.getD n 0) (d .exiting n)).dt ∧
      (d .exiting n).pw.keeperOnly = false ∧ 2 ≤ (d .exiting n).pw.deepStep + 1) ∧ 0 < deepTimes.getD 6 0 ∧
    ((d .exiting 7).pw.deep = .exiting ∧ (d .exiting 7).pw.deepStep = 7 ∧ (pwDev (fun p => { p with warmWaits := true }) (d .exiting 7)).pw.warmWaits = true ∧
      (d .exiting 7).pw.warmWaits = false ∧ (d .exiting 7).bt.digest = none ∧
      ({ d .exiting 7 with bt := { Dev.reset.bt with digest := some [] } }).bt.digest = some []) := by decide +kernel

theorem witness_PowerCommands_resets :
    let d := devWith [(hbUid, 0x9030, 2 ^ 15), (l2Uid 3, 8, 16), (mcUid 11, 0x4238, 1 + 2 * 5)]
    let low (x : Dev) (b : Nat) : Bool := (List.range 13).any (fun i => decide (1 ≤ i) && decide (i ≠ b) && x.flag hbUid 0x9030 i)
    (low d 3 = false ∧ d.flag hbUid 0x9030 15 = true ∧ railBit 0 ≠ 15 ∧ low (d.setFlag hbUid 0x9030 12 true) 3 = true ∧
      d.fld hbUid 0x9030 1 12 = 0 ∧ (d.setFlag hbUid 0x9030 12 true).fld hbUid 0x9030 1 12 ≠ 0 ∧ d.flag hbUid 0x2000 0 = false) ∧
    (devWith [(quadUid 9, 0x4000, 6), (quadUid 9, offLink 39, 2 ^ 34)]).isLink 39 = true ∧
    (d.nvAllowed = true ∧ Dev.reset.nvAllowed = false ∧ d.sv.rh.clusters = [] ∧ (d.regs.any (fun e => e.1 == l2Uid 3 * 65536 + 8 && bit e.2 4)) = true ∧
      d.flag (mcUid 11) (0x4200 + 8 * 7) 0 = true ∧ d.fld bootUid 0x4800 16 3 = 0 ∧ (d.setFlag (l2Uid 71) 8 4 true).failedNow ≠ []) ∧
    (∀ m, m ∈ d.nv.marks → m.1 < 12 ∧ m.2.1 < 8) ∧
    (let r : PartRec := ⟨3, 0, 0x70, 0, 0xFF, 0, [], [], [], [], []⟩
     let x := { resting 7 .run with kp := { Dev.reset.kp with recs := [r], released := [3] } }
     Dev.reset.recOf 3 = none ∧ x.recOf 3 = some r ∧ x.objOf 5 3 = none ∧ x.bt.loaded.contains 3 = false ∧ x.partCores 3 = [7]) := by decide +kernel

/-! Faults, survival and Harebell. -/

theorem witness_FaultsAndHarebell_log :
    let e : LogEnt := ⟨5, l2Uid 40, 3, false, some 3, 0x0601, 0x1234, 777⟩
    let d := { Dev.reset with logQ := [⟨1, 5, 3, false, none, 1, 1, 1⟩, e] }
    let x := (d.setFlag hbUid 0xC000 0 true).setFlag hbUid 0xC000 27 true
    d.logQ.find? (fun e => e.die == 0) = none ∧ d.logQ.find? (fun e => e.die == 5) = some e ∧ (x.flag hbUid 0xC000 0 = true ∧ x.flag hbUid 0xC000 27 = true) ∧
      d.flag hbUid 0xC000 27 = false := by decide +kernel

theorem witness_FaultsAndHarebell_watchdogs :
    (Dev.reset.bt.strapped = false ∧
      (let x (dt : Nat) : Dev := later dt { Dev.reset with bt := { Dev.reset.bt with strapped := true } }
       (x 0).bt.strapped = true ∧ (x 0).sv.sentAt + 1000000 * (x 0).sv.sentMs ≤ (x 10000000000).dt ∧ (x 9999999999).dt < (x 0).sv.sentAt + 1000000 * (x 0).sv.sentMs)) ∧
    (let d (dt stage act : Nat) : Dev :=
       let x := resting 284 .run (devWith [(mbxU, offWdog 5, 1 + 4 * act + 16 * 7 + 256 * 200 + 65536 * 3 + 2 ^ 36 * stage)])
       later dt { x with sv := { x.sv with wdogAt := [(5, 1)] }, kp := { x.kp with lpart := [(5, 4)] } }
     (d 300000 0 0).wdogDue 5 0 = true ∧ (d 2 0 0).wdogDue 5 0 = false ∧ ((d 300000 0 0).coresOf 5).head? = some 284 ∧
       (d 700000 1 0).wdogDue 5 1 = true ∧ (d 2 1 0).wdogDue 5 1 = false ∧ (d 700000 1 0).fld mbxU (offWdog 5) 2 2 ≠ 1 ∧
       (d 700000 1 1).fld mbxU (offWdog 5) 2 2 = 1 ∧ (d 700000 1 1).wdogDue 5 1 = true ∧ (d 700000 1 1).recOf (((d 700000 1 1).lcorePart 5).getD 0) = none ∧
       (d 700000 1 0).flag (mbxUid ((d 700000 1 0).activeHub 11)) 0x2000 0 = false ∧ (d 700000 1 0).flag (evcUid 0) (offEvSrc (0xA40 + 5)) 1 = false) := by
  decide +kernel

theorem witness_FaultsAndHarebell_inputs :
    (let d := devWith [(evcUid 0, offEvSrc 0x43F, 2)]
     d.flag hbUid (0xD000 + 8 * 63) 10 = !true ∧ d.flag hbUid (0xD000 + 8 * 63) 10 = false ∧ d.flag (evcUid 0) (offEvSrc 0x43F) 1 = true ∧
       (devWith [(evcUid 0, offEvSrc 0x43F, 1)]).flag (evcUid 0) (offEvSrc 0x43F) 1 = false ∧ (true != (devWith [(evcUid 0, offEvSrc 0x43F, 1)]).flag (evcUid 0) (offEvSrc 0x43F) 2) = true ∧ d.pw.deep = .run) ∧
    (let o := 0xD200 + 8 * 3
     let d := devWith [(hbUid, offTrig 4, 256), (evcUid 0, offEvSrc 0x443, 2), (hbUid, o, 0)]
     d.flag hbUid o 9 = !(true != d.flag hbUid o 8) ∧ d.flag hbUid o 9 = (false != d.flag hbUid o 8) ∧ d.trigLatched 4 = true ∧
       d.flag (evcUid 0) (offEvSrc 0x443) 1 = true) ∧
    (let d (dt : Nat) : Dev := later dt { devWith [(l2Uid 71, 0x3000, 3 + 65536 * 1000 + 7 * 2 ^ 32)] with sv := { Dev.reset.sv with crbAt := [(l2Uid 71, 1)] } }
     SMap.get (fun _ => 0) (d 0).sv.crbAt (l2Uid 71) = 1 ∧ 1 + 1000000 * (d 0).fld (l2Uid 71) 0x3000 16 16 ≤ (d 1000000000).dt + 1 ∧
       (d 999999999).dt + 1 < 1 + 1000000 * (d 0).fld (l2Uid 71) 0x3000 16 16) := by decide +kernel

theorem witness_FaultsAndHarebell_rehearsal :
    let at_ (f : RehSt → RehSt) (dt : Nat) (d : Dev := Dev.reset) : Dev := later dt { d with sv := { d.sv with rh := f d.sv.rh } }
    let ready : Dev := (List.range 8).foldl (fun d g => (d.setRole (l2Uid (9 * g)) 1).setPower (l2Uid (9 * g)) 3) (later 7200000000000 Dev.reset)
    ((Dev.reset.sv.rh.step = 0 ∧ Dev.reset.sv.rh.peerAt = 0 ∧ (later 7201000000000 Dev.reset).rehSecond = false) ∧ ready.rehSecond = true ∧ ready.rehSkip = none ∧
      (later 7200000000000 Dev.reset).rehSkip = some 2 ∧ (later 7200000000000 Dev.reset).rehSecond = true ∧
      (at_ (fun r => { r with peerAt := 5 }) 5).sv.rh.peerAt ≠ 0) ∧
    (5 + 300000000000 ≤ (at_ (fun r => { r with peerAt := 5 }) 300000000004).dt + 1 ∧ ¬5 + 300000000000 ≤ (at_ (fun r => { r with peerAt := 5 }) 300000000003).dt + 1) ∧
    (let x (f : RehSt → RehSt) (dt : Nat) : Dev := at_ (fun r => f { r with step := 1, at_ := 8 }) dt
     (x id 8).sv.rh.step ≠ 0 ∧ (x id 8).au.rejoins = [] ∧ (x (fun r => { r with abort := 256 }) 8).sv.rh.abort = 256 ∧ (x id 8).sv.rh.abort = 0 ∧
       (x id 8).concealedSum ≤ (x id 8).sv.rh.concealed ∧
       (let c := at_ (fun r => { r with step := 1 }) 8 (devWith [(seUid 3, 0x6010 + 32 * 31, 2 ^ 16)])
        c.sv.rh.concealed < c.concealedSum ∧ c.sv.rh.abort = 0) ∧
       (x id 240000000008).sv.rh.at_ + 240000000000 ≤ (x id 240000000008).dt ∧ (x id 240000000007).dt < (x id 8).sv.rh.at_ + 240000000000 ∧
       (x id 8).sv.rh.failed = 0 ∧ (x (fun r => { r with failed := 2 }) 8).sv.rh.failed ≠ 0 ∧ (x (fun r => { r with step := 7 }) 8).sv.rh.step = 7 ∧
       (x (fun r => { r with cursor := 8 }) 8).rehParts 1 ≤ 8 ∧ (x id 8).sv.rh.cursor < (x id 8).rehParts 1) := by decide +kernel

theorem witness_FaultsAndHarebell_harebell :
    let hb (ws : List (Nat × Nat × Nat)) : Dev := { devWith ws with hb := { Dev.reset.hb with msgs := [⟨[1, 2, 3], false⟩, ⟨[4, 5], true⟩] } }
    let d := later 1000000 ((hb [(hbUid, 0xB000, 1), (hbUid, offTrig 5, 3)]).trigSet 5)
    let played (n m : Nat) : Dev := hb [(hbUid, 0xB000, 3 + 2 ^ 2 * m + 2 ^ 6 * n), (hbUid, offTrig n, 1)]
    (Dev.reset.flag hbUid 0xB000 0 = false ∧ d.flag hbUid 0xB000 0 = true ∧ d.trigWinner = some 5 ∧ d.fld hbUid 0xB000 6 3 ≠ 5 ∧
      (hb [(hbUid, 0xB000, 1 + 2 ^ 6 * 7)]).trigWinner = none ∧ (hb [(hbUid, 0xB000, 1 + 2 ^ 6 * 7)]).fld hbUid 0xB000 6 3 = 7 ∧
      (played 5 0).trigWinner = none ∧ (played 5 0).fld hbUid 0xB000 6 3 ≠ 7 ∧ ((played 5 0).trigSet 5).trigWinner = some 5 ∧
      ((played 5 0).trigSet 5).fld hbUid 0xB000 6 3 = 5) ∧
    (let plays (m n : Nat) (k : Nat) : Dev := later n { played k m with hb := { (played k m).hb with segs := [(0, some m)] } }
     Dev.reset.hbSeg Dev.reset.hbCount = none ∧ (plays 0 1000000 5).hbSeg (plays 0 1000000 5).hbCount = some (0, 0) ∧
       (plays 0 1000000 5).hb.msgs[0]? = some ⟨[1, 2, 3], false⟩ ∧ (0 : Int) + 3 ≤ (plays 0 1000000 5).hbCount ∧
       (plays 0 0 5).hbSeg (plays 0 0 5).hbCount = some (0, 0) ∧ (plays 0 0 5).hbCount < 3 ∧ (plays 0 0 5).hbSample 2 = 3 ∧
       (plays 1 0 5).hbSeg 7 = some (0, 1) ∧ (plays 1 0 5).hbSample 7 = 5 ∧ (plays 0 0 5).trigLatched 5 = true ∧ (plays 0 0 2).trigLatched 2 = false) ∧
    (let x := devWith [(hbUid, 0xB218, 0xFFFFFFFF00000001), (tdmUid 0, 0x40C0, 1)] (played 5 0)
     let y := { later 1000000 x with hb := { x.hb with segs := [(0, some 0)] } }
     y.hbTakes 3 = true ∧ y.flag hbUid 0xB218 1 = false ∧ 0 ≤ y.hbCount ∧ y.hb.out = [] ∧ bit (y.tdmPortCfg 3) 1 = false) ∧
    (let x := devWith [(hbUid, 0xB300, 2 ^ 63), (mgtUid 0, 0x4000, 8)] (played 5 0)
     let y := { later 1000000 x with hb := { x.hb with segs := [(0, some 0)] } }
     (y.hbSeg (y.hbMs - 48)).isSome = true ∧ y.flag hbUid 0xB300 63 = true ∧ y.flag (mgtUid 0) 0x4000 3 = true ∧
       (x.hbSeg (x.hbMs - 48)).isSome = false) := by decide +kernel

/-! Keeper services. -/

/-- A record of partition 3 with logical core 5 on core 4 and a private window of 2 MiB. -/
def svcRec (tier flags : Nat) : PartRec :=
  let c : CoreEnt := ⟨5, false, false, false, [4, 0xFFFF, 0xFFFF], 0xE0001FF00000, 0, 0, 0, [1, 1, 1]⟩
  let w : WinEnt := ⟨[2 ^ 21 * 3, 0, 0], 21, 7, 0, 0, 0, false⟩
  ⟨3, tier, flags, 0, 0xFF, 0, [], [c], [w], [], []⟩

/-- A device where a call of logical core 5 waits in keeper mailbox 259; its parameter block lies at the start of the window. -/
def svcDev (code : Nat) (block : List (Nat × Nat × Nat)) (rs : List (Nat × Nat × Nat) := []) (tier : Nat := 0) (flags : Nat := 0x70) (pa : Nat := 3 * 2 ^ 21) : Dev :=
  let k := { Dev.reset.kp with recs := [svcRec 0 flags], lpart := [(5, 4)], released := [3] }
  let d := ({ Dev.reset with kp := k }).placePart (svcRec 0 flags)
  let x := d.setCore 4 { d.core 4 with run := .run }
  let y := devWith ([(hubUid 0, offRange 0, 1), (hubUid 0, offRange 0 + 8, 1 + 2 ^ 16 * 8), (mcUid 0, 0x4030, 2 + 8 * 2 ^ 9), (hubUid 0, 0x4000, 1),
    (coreUid 4, 0x4300, l3Uid 1 + 2 ^ 16), (mbxU, mbxOff 259 0, code + 2 ^ 16 * pa), (mbxU, mbxOff 259 8, 1 + 256 * 5), (l3Uid 1, 0x4010, 1 + 256 * 3 + 0xFFFF * 2 ^ 16)] ++ rs) x
  let z := (y.repWrite 3 0 (3 * 2 ^ 21) (bytesOf 64 block)).1
  if tier = 0 then z else { z with kp := { z.kp with recs := [svcRec tier flags] } }

def calledB (d : Dev) (m code : Nat) (res : Bool) (p : Call → Dev → List Byte → Bool) : Bool :=
  match d.callIn m with
  | none => false
  | some c => c.code == code && c.pa % 64 == 0 && (!res || (d.callerAt c (d.readRep c) c.pa 64 true).isSome) &&
    match d.callRead c c.pa 64 with
    | (e, some b) => p c e b
    | _ => false

theorem called_of {d : Dev} {m code : Nat} {res : Bool} {p : Call → Dev → List Byte → Bool} (h : calledB d m code res p = true) :
    ∃ c e b, d.Called m code res c e b ∧ p c e b = true := by
  unfold calledB at h
  split at h
  · simp at h
  · next c hc =>
    simp only [Bool.and_eq_true, beq_iff_eq, Bool.or_eq_true, Bool.not_eq_eq_eq_not, Bool.not_true] at h
    obtain ⟨⟨⟨h1, h2⟩, h3⟩, h4⟩ := h
    split at h4
    · next e b hb => exact ⟨c, e, b, ⟨hc, h1, h2, fun hr => h3.resolve_left (by simp [hr]), hb⟩, h4⟩
    · simp at h4

/-- The window's start, and the call. -/
def svcA : Nat := 3 * 2 ^ 21

theorem witness_ServiceCalls_blocks :
    let c : Call := ⟨259, 7, svcA, 5, 3⟩
    let d (code : Nat) (b : List (Nat × Nat × Nat)) : Dev := svcDev code b
    (let e := d 7 []
     e.flag mbxU (mbxOff 259 8) 0 = true ∧ e.flag mbxU (mbxOff 259 8) 16 = false ∧ Dev.reset.callIn 3 = none ∧ (e.callIn 3).map (fun c => (c.code, c.part)) = some (7, 3) ∧ 7 ∉ knownServices ∧
       0x60 ∈ knownServices) ∧
    (((svcDev 1 [] (pa := svcA + 32)).callIn 3).map (fun c => (c.code, c.pa)) = some (1, svcA + 32) ∧ ((svcDev 1 [] (pa := svcA - 64)).callIn 3).map (fun c => (c.code, c.pa)) = some (1, svcA - 64) ∧
      (svcDev 1 [] (pa := svcA - 64)).callerAt { c with code := 1, pa := svcA - 64 } 0 (svcA - 64) 64 false = none) ∧
    calledB (d 1 []) 3 1 true (fun _ _ _ => true) = true ∧
    (calledB (d 2 []) 3 2 true (fun c e _ => (e.kp.notices.find? (fun n => n.1 == c.part)).isNone) = true ∧
      calledB { d 2 [] with kp := { (d 2 []).kp with notices := [(7, [1]), (3, List.replicate 64 5)] } } 3 2 true
        (fun c e _ => (e.kp.notices.find? (fun n => n.1 == c.part)).isSome) = true) ∧
    ([(0, svcA + 1024), (32, svcA + 1024), (31, svcA + 2 ^ 21 - 960)].all (fun x => calledB (d 3 [(2, 1, x.1), (8, 8, x.2)]) 3 3 false (fun c e b =>
        decide (iLe b 2 1 = 0 ∨ 31 < iLe b 2 1 ∨ e.areaOk c (iLe b 8 8) = false))) = true ∧
      calledB (d 3 [(2, 1, 31), (8, 8, svcA + 2 ^ 21 - 1024)]) 3 3 false (fun c e b =>
        decide (iLe b 2 1 ≠ 0 ∧ iLe b 2 1 ≤ 31 ∧ e.areaOk c (iLe b 8 8) = true)) = true) ∧
    (let x (win : List (Nat × Nat × Nat)) : Dev := svcDev 0x10 [(0, 8, 2 ^ 30 + 64)] ([(hubUid 0, 0x5000, 1 + 2 ^ 30), (hubUid 0, 0x5008, 30 + 2 ^ 24)] ++ win)
     calledB (d 0x10 [(0, 8, 2 ^ 42)]) 3 0x10 false (fun _ e b => (e.xrOf (iLe b 0 8)).isNone) = true ∧
       calledB (x []) 3 0x10 false (fun c e b => (e.xrOf (iLe b 0 8)).isSome && (e.callerAt c (e.readRep c) (iLe b 0 8) 1 true).isNone) = true ∧
       calledB (x [(coreUid 4, offWin 5, 1 + 2 ^ 30), (coreUid 4, offWin 5 + 8, 30 + 0xFFFFF00)]) 3 0x10 false (fun c e b =>
         (e.xrOf (iLe b 0 8)).isSome && (e.callerAt c (e.readRep c) (iLe b 0 8) 1 true).isSome) = true) ∧
    (calledB (d 0x30 []) 3 0x30 false (fun c e _ => (e.recOf c.part).any (fun r => r.tier == 0)) = true ∧
      calledB (svcDev 0x30 [] [] 1) 3 0x30 false (fun c e _ => (e.recOf c.part).any (fun r => r.tier == 1)) = true) ∧
    (calledB (d 0x50 [(32, 8, svcA + 1)]) 3 0x50 false (fun c e b => !e.areaOk c (iLe b 32 8)) = true ∧
      calledB (d 0x50 [(32, 8, svcA + 1024)]) 3 0x50 false (fun c e b => e.areaOk c (iLe b 32 8)) = true) := by decide +kernel

theorem witness_ServiceCalls_restructure :
    let d (fs : Nat) (b : List (Nat × Nat × Nat)) : Dev := svcDev 0x20 b [] 0 fs
    let busy (n : Nat) (x : Dev) : Dev := { x with kp := { x.kp with op := n } }
    ([1, 2, 3, 4].all (fun op =>
      calledB (d 0 [(0, 1, op)]) 3 0x20 false (fun c e b => iLe b 0 1 == op && !e.granted c.part 5) &&
      calledB (d 0x70 [(0, 1, op), (63, 1, 1)]) 3 0x20 false (fun c e b => e.granted c.part 5 && restructBad op b) &&
      calledB (busy 9 (d 0x70 [(0, 1, op)])) 3 0x20 false (fun c e b => e.granted c.part 5 && !restructBad op b && e.kp.op != 0 && e.kp.op != c.part + 1) &&
      calledB (d 0x70 [(0, 1, op)]) 3 0x20 false (fun c e b => iLe b 0 1 == op && e.granted c.part 5 && !restructBad op b && e.kp.op == 0))) = true ∧
    calledB (d 0x70 [(0, 1, 4), (24, 8, svcA + 2 ^ 21)]) 3 0x20 false (fun c e b => !restructBad 4 b && (e.callRead c (iLe b 24 8) 64).2.isNone) = true ∧
    [(4, 0), (4, 1)].all (fun x => calledB (d 0x70 [(0, 1, x.1), (2, 2, x.2), (24, 8, svcA + 1024)]) 3 0x20 false (fun c e b =>
      !restructBad 4 b && match e.callRead c (iLe b 24 8) 64 with
        | (y, some h) => (match y.callRead c (iLe b 24 8) (64 + 8 * iLe h 4 1 + 32 * iLe h 2 2 + 32 * iLe h 5 1 + 4 * iLe h 6 1 + 4 * iLe h 7 1) with
          | (_, some rb) => ((parseRec rb).tier == iLe b 2 2) == decide (x.2 = 0) && decide ((parseRec rb).tier ≤ 2)
          | _ => false)
        | _ => false)) = true ∧
    (Dev.reset.kp.op = 0 ∧ (busy 256 Dev.reset).kp.op = (255 : Fin 256).val + 1 ∧ (busy 9 Dev.reset).kp.op ≠ 0 ∧ (busy 9 Dev.reset).kp.op ≠ (255 : Fin 256).val + 1) := by
  decide +kernel

theorem witness_ServiceCalls_harebell :
    let d (fs : Nat) (b : List (Nat × Nat × Nat)) : Dev :=
      let x := svcDev 0x40 b [] 0 fs
      { x with hb := { x.hb with msgs := [⟨[1, 2], false⟩] } }
    let ok (op : Nat) (b : List (Nat × Nat × Nat)) (p : Dev → List Byte → Bool) : Bool := calledB (d 0x70 ([(0, 1, op)] ++ b)) 3 0x40 false (fun c e b =>
      iLe b 0 1 == op && e.granted c.part 4 && !harebellBad op b && p e b)
    ([1, 2, 3].all (fun op =>
      calledB (d 0 [(0, 1, op)]) 3 0x40 false (fun c e b => iLe b 0 1 == op && !e.granted c.part 4) &&
      calledB (d 0x70 [(0, 1, op), (16, 1, 1)]) 3 0x40 false (fun c e b => e.granted c.part 4 && harebellBad op b))) = true ∧
    ok 1 [] (fun e b => decide (iLe b 1 1 < 16) && match e.hb.msgs[iLe b 1 1]? with
      | some x => decide (x.samples ≠ [])
      | none => false) = true ∧
    ok 2 [(1, 1, 6)] (fun _ b => decide (iLe b 1 1 ≤ 6)) = true ∧ ok 2 [(1, 1, 7)] (fun _ b => decide (6 < iLe b 1 1)) = true ∧
    ok 3 [(1, 1, 7)] (fun _ b => ((hbSetting (iLe b 1 1)).bind (fun o => regAt hbUid o)).isNone) = true ∧
    ok 3 [(1, 1, 5), (8, 8, 0x11)] (fun e b => match (hbSetting (iLe b 1 1)).bind (fun o => regAt hbUid o) with
      | some (r, i) => !(writeFields r.fields (e.reg hbUid (r.off + r.stride * i)) (BitVec.ofNat 64 (iLe b 8 8))).2
      | none => false) = true := by decide +kernel

theorem witness_ServiceCalls_power :
    let d (fs : Nat) (b : List (Nat × Nat × Nat)) (rs : List (Nat × Nat × Nat)) : Dev := svcDev 0x60 b rs 0 fs
    let ok (op : Nat) (b : List (Nat × Nat × Nat)) (p : Call → Dev → List Byte → Bool) (rs : List (Nat × Nat × Nat)) : Bool :=
      calledB (d 0x70 ([(0, 1, op)] ++ b) rs) 3 0x60 false (fun c e b => iLe b 0 1 == op && e.granted c.part 6 && !powerBad op b && p c e b)
    ([1, 2, 3, 4].all (fun op => calledB (d 0x70 [(0, 1, op), (18, 1, 1)] []) 3 0x60 false (fun _ _ b => iLe b 0 1 == op && powerBad op b))) = true ∧
    ([1, 2, 3].all (fun op => calledB (d 0 [(0, 1, op)] []) 3 0x60 false (fun c e b => !powerBad op b && !e.granted c.part 6))) = true ∧
    ([8, 4000].all (fun n => ok 1 [(2, 2, 5), (4, 1, 1), (8, 4, n)] (fun c e b => e.lcorePart (iLe b 2 2) == some c.part && decide (8 ≤ iLe b 8 4) && decide (iLe b 8 4 ≤ 4000)) [])) = true ∧
    ok 2 [] (fun c e _ => (e.recOf c.part).any (fun r => r.tier == 0)) [] = true ∧
    calledB (svcDev 0x60 [(0, 1, 2)] [] 2) 3 0x60 false (fun c e b => iLe b 0 1 == 2 && !powerBad 2 b && e.granted c.part 6 &&
      (e.recOf c.part).any (fun r => r.tier == 2)) = true ∧
    (ok 3 [] (fun _ _ b => iLe b 4 1 == 0) [] = true ∧
      ok 3 [(4, 1, 1)] (fun c e b => iLe b 4 1 == 1 && e.kp.released.all (fun q => q == c.part || e.pw.votes.contains q)) [] = true ∧
      (let x := d 0x70 [(0, 1, 3), (4, 1, 1)] []
       calledB { x with kp := { x.kp with released := [3, 4] } } 3 0x60 false (fun c e b => iLe b 4 1 == 1 && !powerBad 3 b && e.granted c.part 6 &&
         e.kp.released.contains 4 && c.part != 4 && !e.pw.votes.contains 4) = true)) ∧
    (ok 4 [(16, 2, 256)] (fun _ _ b => decide (256 ≤ iLe b 16 2)) [] = true ∧
      ok 4 [(16, 2, 128)] (fun c e b => decide (iLe b 16 2 < 256) && !e.mayRelease c.part 7) [] = true ∧
      ok 4 [(16, 2, 129)] (fun c e b => decide (iLe b 16 2 < 256) && e.mayRelease c.part 0 && e.mayRelease c.part 7) [(mgtUid 1, 0x10, 3 + 256)] = true) := by
  decide +kernel

end Sys2Proof.Tests
end

section
/-!
PROOFS. Words and integers: the immediates, shifts and 32-bit results of chapter 3 as the numbers that they are.
-/
namespace Sys2Proof.Machine

theorem simm_eq (i : BitVec 16) : simm i = sWord i.toInt := rfl

theorem add_sWord (a : Word) (x : Int) : a + sWord x = sWord (a.toInt + x) := by
  rw [sWord, sWord, BitVec.ofInt_add, BitVec.ofInt_toInt]

theorem sWord_shiftLeft (x : Int) (n : Nat) : sWord x <<< n = sWord (x * 2 ^ n) := by
  have h : BitVec.twoPow 64 n = BitVec.ofInt 64 (2 ^ n) := by
    rw [show (2 : Int) ^ n = ((2 ^ n : Nat) : Int) from (Int.natCast_pow 2 n).symm, BitVec.ofInt_natCast]
    exact BitVec.eq_of_toNat_eq (by rw [BitVec.toNat_twoPow, BitVec.toNat_ofNat])
  rw [sWord, sWord, BitVec.ofInt_mul, BitVec.shiftLeft_eq_mul_twoPow, h]

theorem uimm_eq (i : BitVec 21) : uimm i = sWord (i.toInt * 4096) := sWord_shiftLeft i.toInt 12

theorem boff_eq (o : BitVec 21) : boff o = sWord (4 * o.toInt) := by
  rw [Int.mul_comm]; exact sWord_shiftLeft o.toInt 2

theorem joff_eq (o : BitVec 26) : joff o = sWord (4 * o.toInt) := by
  rw [Int.mul_comm]; exact sWord_shiftLeft o.toInt 2

/-- Clearing bits [1:0] leaves the multiple of 4 below (R98). -/
theorem align4_eq (v : Word) : align4 v = BitVec.ofNat 64 (v.toNat / 4 * 4) := by
  refine BitVec.eq_of_getLsbD_eq (fun i hi => ?_)
  have h3 : (3#64).getLsbD i = decide (i < 2) := by
    rw [BitVec.getLsbD_ofNat, show 3 = 2 ^ 2 - 1 from rfl, Nat.testBit_two_pow_sub_one]; simp [hi]
  have h4 : (v.toNat / 4 * 4).testBit i = (decide (2 ≤ i) && v.toNat.testBit (2 + (i - 2))) := by
    rw [show v.toNat / 4 * 4 = 2 ^ 2 * (v.toNat / 2 ^ 2) by omega, Nat.testBit_two_pow_mul, Nat.testBit_div_two_pow, Nat.add_comm]
  rw [align4, BitVec.getLsbD_and, BitVec.getLsbD_not, h3, BitVec.getLsbD_ofNat, h4]
  by_cases h : i < 2
  · have : ¬ 2 ≤ i := by omega
    simp [h, this]
  · have : 2 + (i - 2) = i := by omega
    simp [h, hi, this, BitVec.testBit_toNat]; omega

theorem sextW_ofInt (x : Int) : sextW (BitVec.ofInt 32 x) = sWord32 x := rfl

theorem sextW_ofNat (x : Nat) : sextW (BitVec.ofNat 32 x) = sWord32 (x : Int) := by
  rw [← sextW_ofInt, BitVec.ofInt_natCast]

theorem low32_sWord (x : Int) : low32 (sWord x) = BitVec.ofInt 32 x := by
  refine BitVec.eq_of_toNat_eq ?_
  rw [low32, sWord, BitVec.toNat_setWidth, BitVec.toNat_ofInt, BitVec.toNat_ofInt]
  omega

theorem sextW_low32_add_simm (a : Word) (i : BitVec 16) : sextW (low32 (a + simm i)) = sWord32 (a.toInt + i.toInt) := by
  rw [simm_eq, add_sWord, low32_sWord, sextW_ofInt]

theorem low32_eq_ofInt (a : Word) : low32 a = BitVec.ofInt 32 (s32 a) := (BitVec.ofInt_toInt ..).symm

theorem sextW_add (a b : Word) : sextW (low32 a + low32 b) = sWord32 (s32 a + s32 b) := by
  rw [low32_eq_ofInt a, low32_eq_ofInt b, ← BitVec.ofInt_add, sextW_ofInt]

theorem sextW_sub (a b : Word) : sextW (low32 a - low32 b) = sWord32 (s32 a - s32 b) := by
  rw [low32_eq_ofInt a, low32_eq_ofInt b, BitVec.sub_eq_add_neg, ← BitVec.ofInt_neg, ← BitVec.ofInt_add, sextW_ofInt, Int.sub_eq_add_neg]

theorem sextW_mul (a b : Word) : sextW (low32 a * low32 b) = sWord32 (s32 a * s32 b) := by
  rw [low32_eq_ofInt a, low32_eq_ofInt b, ← BitVec.ofInt_mul, sextW_ofInt]

theorem sextN_32 (x : Nat) : sextN 32 x = sWord (BitVec.ofNat 32 x).toInt := by
  unfold sextN sWord signedOf
  rw [BitVec.toInt_eq_toNat_cond, BitVec.toNat_ofNat]
  rfl

theorem toNat_zimm (i : BitVec 16) : (zimm i).toNat = i.toNat := BitVec.toNat_setWidth_of_le (by decide)

theorem and_zimm (a : Word) (i : BitVec 16) : a &&& zimm i = BitVec.ofNat 64 (a.toNat &&& i.toNat) := by
  rw [← toNat_zimm, ← BitVec.toNat_and, BitVec.ofNat_toNat, BitVec.setWidth_eq]

theorem or_zimm (a : Word) (i : BitVec 16) : a ||| zimm i = BitVec.ofNat 64 (a.toNat ||| i.toNat) := by
  rw [← toNat_zimm, ← BitVec.toNat_or, BitVec.ofNat_toNat, BitVec.setWidth_eq]

theorem xor_zimm (a : Word) (i : BitVec 16) : a ^^^ zimm i = BitVec.ofNat 64 (a.toNat ^^^ i.toNat) := by
  rw [← toNat_zimm, ← BitVec.toNat_xor, BitVec.ofNat_toNat, BitVec.setWidth_eq]

theorem truth_decide (p : Prop) [Decidable p] : truth (decide p) = if p then 1 else 0 := by
  by_cases h : p <;> simp [truth, h]

theorem slt_simm (a : Word) (i : BitVec 16) : a.slt (simm i) = decide (a.toInt < i.toInt) := by
  rw [BitVec.slt, simm, BitVec.toInt_signExtend_of_le (by decide)]

theorem shiftLeft_eq_ofNat {w : Nat} (a : BitVec w) (n : Nat) : a <<< n = BitVec.ofNat w (a.toNat * 2 ^ n) := by
  refine BitVec.eq_of_toNat_eq ?_
  rw [BitVec.toNat_shiftLeft, BitVec.toNat_ofNat, Nat.shiftLeft_eq]

theorem ushiftRight_eq_ofNat {w : Nat} (a : BitVec w) (n : Nat) : a >>> n = BitVec.ofNat w (a.toNat / 2 ^ n) := by
  rw [← Nat.shiftRight_eq_div_pow, ← BitVec.toNat_ushiftRight, BitVec.ofNat_toNat, BitVec.setWidth_eq]

theorem sshiftRight_eq_ofInt {w : Nat} (a : BitVec w) (n : Nat) : a.sshiftRight n = BitVec.ofInt w (a.toInt / 2 ^ n) := by
  rw [BitVec.sshiftRight, Int.shiftRight_eq_div_pow]; norm_cast

/-- A rotation joins what a shift each way leaves: the two parts share no bit, so their union is their sum. -/
theorem rotateRight_eq_ofNat (a : Word) (n : Nat) (h : n < 64) :
    a.rotateRight n = BitVec.ofNat 64 (a.toNat / 2 ^ n + a.toNat * 2 ^ (64 - n)) := by
  refine BitVec.eq_of_toNat_eq ?_
  have hp : 2 ^ (64 - n) * 2 ^ n = 2 ^ 64 := by rw [← Nat.pow_add, Nat.sub_add_cancel (Nat.le_of_lt h)]
  have hhi : a.toNat * 2 ^ (64 - n) % 2 ^ 64 = 2 ^ (64 - n) * (a.toNat % 2 ^ n) := by
    rw [← hp, Nat.mul_comm a.toNat, Nat.mul_mod_mul_left]
  have hlo : a.toNat / 2 ^ n < 2 ^ (64 - n) := by
    rw [Nat.div_lt_iff_lt_mul (Nat.two_pow_pos n), hp]; exact a.isLt
  have hsum : 2 ^ (64 - n) * (a.toNat % 2 ^ n) + a.toNat / 2 ^ n < 2 ^ 64 := by
    have := Nat.mul_le_mul_left (2 ^ (64 - n)) (Nat.succ_le_of_lt (Nat.mod_lt a.toNat (Nat.two_pow_pos n)))
    rw [Nat.mul_succ, hp] at this; omega
  calc (a.rotateRight n).toNat
      = a.toNat / 2 ^ n ||| a.toNat * 2 ^ (64 - n) % 2 ^ 64 := by
        rw [BitVec.rotateRight, Nat.mod_eq_of_lt h, BitVec.rotateRightAux, BitVec.toNat_or, BitVec.toNat_ushiftRight,
          BitVec.toNat_shiftLeft, Nat.shiftRight_eq_div_pow, Nat.shiftLeft_eq]
    _ = 2 ^ (64 - n) * (a.toNat % 2 ^ n) + a.toNat / 2 ^ n := by rw [hhi, Nat.or_comm, Nat.two_pow_add_eq_or_of_lt hlo]
    _ = (BitVec.ofNat 64 (a.toNat / 2 ^ n + a.toNat * 2 ^ (64 - n))).toNat := by
        rw [BitVec.toNat_ofNat, ← Nat.add_mod_mod, hhi, Nat.add_comm (a.toNat / 2 ^ n), Nat.mod_eq_of_lt hsum]

/-- A shift amount of 5 bits is legal in both widths (R111). -/
theorem shiftOk_setWidth (wide : Bool) (n : BitVec 5) : shiftOk wide (n.setWidth 6) = true := by simp [shiftOk]

theorem toNat_shiftAmount (n : BitVec 5) : (n.setWidth 6).toNat = n.toNat := BitVec.toNat_setWidth_of_le (by decide)

/-! The divides and the overflows that set a flag (R112, R115). -/

theorem divS_zero {w : Nat} (a : BitVec w) : divS a 0 = ⟨0, a, true, false⟩ := if_pos rfl

theorem divU_zero {w : Nat} (a : BitVec w) : divU a 0 = ⟨0, a, true, false⟩ := if_pos rfl

theorem divS_overflow {w : Nat} {a b : BitVec w} (ha : a.toInt = -(2 ^ (w - 1))) (hb : b.toInt = -1) : divS a b = ⟨a, 0, false, true⟩ := by
  have h0 : b ≠ 0 := by rintro rfl; simp at hb
  rw [divS, if_neg h0, if_pos ⟨ha, hb⟩]

theorem beyond_of_outside {w : Nat} {x : Int} (h : 2 ^ (w - 1) ≤ x ∨ x < -(2 ^ (w - 1))) : beyond w x = true := by
  rcases h with h | h <;> simp [beyond, h]

/-- S_STATUS after ERET, field by field (R152). -/
theorem eretStatus_fields (s : Word) :
    bits (eretStatus s) 0 2 = bits s 2 2 ∧ bit (eretStatus s) 4 = bit s 5 ∧ bits (eretStatus s) 8 4 = bits s 12 4 ∧
      ∀ i, i ≠ 0 → i ≠ 1 → i ≠ 4 → (i < 8 ∨ 11 < i) → bit (eretStatus s) i = bit s i := by
  have hpriv := bits_lt s 2 2
  have hipl := bits_lt s 12 4
  refine ⟨?_, ?_, ?_, fun i h0 h1 h4 h8 => ?_⟩
  · rw [eretStatus, bits_setBits_other _ _ _ _ _ _ (by decide), setBit, bits_setBits_other _ _ _ _ _ _ (by decide),
      bits_setBits _ _ _ _ (by decide), Nat.mod_eq_of_lt hpriv]
  · rw [eretStatus, bit_setBits, if_neg (by decide), bit_setBit _ _ _ (by decide)]
  · rw [eretStatus, bits_setBits _ _ _ _ (by decide), Nat.mod_eq_of_lt hipl]
  · rw [eretStatus, bit_setBits, if_neg (by omega), bit_setBit_other _ _ _ _ h4, bit_setBits, if_neg (by omega)]

end Sys2Proof.Machine
end

section
/-!
PROOFS. Retirement in a quiet core: what it leaves before the trap that it may raise, what it counts down (R135, R154), and the trap
(R117).
-/
namespace Sys2Proof.Machine

theorem Dev.modCore_wr_zero (d : Dev) (c : CoreId) (f : Core → Word) : d.modCore c (fun k => k.wr 0 (f k)) = d := by
  simp [Dev.modCore, Dev.setCore, Dev.core, Core.wr]

@[simp] theorem Core.wr_sb (k : Core) (r : RIx) (v : Word) : (k.wr r v).sb = k.sb := by unfold Core.wr; split <;> rfl
@[simp] theorem Core.wr_afterSync (k : Core) (r : RIx) (v : Word) : (k.wr r v).afterSync = k.afterSync := by unfold Core.wr; split <;> rfl

theorem Core.SameSys.wr (k : Core) (r : RIx) (v : Word) : k.SameSys (k.wr r v) := by
  unfold Core.wr; split <;> exact ⟨rfl, rfl, rfl, rfl, rfl, rfl, rfl, rfl, rfl, rfl⟩

theorem Dev.SameMem.trans {d e t : Dev} (h1 : d.SameMem e) (h2 : e.SameMem t) : d.SameMem t :=
  ⟨h2.1.trans h1.1, h2.2.trans h1.2, h2.3.trans h1.3, h2.4.trans h1.4, h2.5.trans h1.5, h2.6.trans h1.6, h2.7.trans h1.7,
    h2.8.trans h1.8, h2.9.trans h1.9⟩

theorem Dev.sameMem_modCore (d : Dev) (c : CoreId) (f : Core → Core) : d.SameMem (d.modCore c f) :=
  ⟨rfl, rfl, rfl, rfl, rfl, rfl, rfl, rfl, rfl⟩

/-! Retirement up to the trap. -/

/-- The registers and counts of a retirement. -/
def Dev.retireRegs (d : Dev) (c : CoreId) (steps : Nat) (far : Bool) (r : Ret) : Dev :=
  ((d.modCore c r.apply).countRetire c (r.steps + steps) (far || r.far)).countDown c

/-- The prediction of the branch or jump that retires at `pc`, if it is one. -/
def Dev.predictRet (d : Dev) (c : CoreId) (pc : Word) (b : Option (Nat × Bool)) : Dev :=
  match b with
  | some (kind, taken) => if kind ≤ 4 then d.predict c pc kind taken else d
  | none => d

/-- A retirement up to the trap that it may raise, in a core that nobody watches. -/
def Dev.retired (d : Dev) (c : CoreId) (steps : Nat) (far : Bool) (r : Ret) : Dev :=
  let d3 := (d.retireRegs c steps far r).predictRet c (d.core c).pc r.branch
  { d3 with db := { d3.db with skipCmp := d3.db.skipCmp.filter (fun x => x != c.val) } }

theorem Dev.predictRet_light (d : Dev) (c : CoreId) (pc : Word) (b : Option (Nat × Bool)) : Dev.Light c d (d.predictRet c pc b) := by
  cases b with
  | none => exact Dev.Light.refl c d
  | some x => exact Dev.Light.ite (Dev.predict_light d c pc x.1 x.2) (Dev.Light.refl c d)

theorem Dev.retired_light (d : Dev) (c : CoreId) (steps : Nat) (far : Bool) (r : Ret) :
    Dev.Light c (d.modCore c r.apply) (d.retired c steps far r) := by
  have regs : Dev.Light c (d.modCore c r.apply) (d.retireRegs c steps far r) :=
    (Dev.countRetire_light _ c _ _).trans (Dev.countDown_light _ c)
  exact (regs.trans (Dev.predictRet_light _ c _ _)).trans ⟨rfl, fun _ _ _ _ => rfl⟩

theorem Dev.Quiet.retired {d : Dev} {c : CoreId} (h : d.Quiet c) (steps : Nat) (far : Bool) (r : Ret) : (d.retired c steps far r).Quiet c :=
  (d.retired_light c steps far r).quiet (h.modCore _ rfl)

/-- In a quiet core no trace, comparator or late control write comes between a retirement and its trap. -/
theorem Dev.Quiet.retire_eq {d : Dev} {c : CoreId} (h : d.Quiet c) (steps : Nat) (far : Bool) (r : Ret) :
    d.retire c steps far r = (d.retired c steps far r).trapAfter c r := by
  have hq := h.retired steps far r
  show (let d5 := ((d.retired c steps far r).traceRetire c r).someAfterSync c
        (d5.trapAfter c r).afterRetire d5 c r) = _
  simp only [hq.traceRetire, hq.someAfterSync, hq.afterRetire]

theorem trapOf_noFlags {r : Ret} (hd : r.dz = false) (ho : r.ov = false) (a : Word) : trapOf a r = none := by
  simp [trapOf, hd, ho]

theorem Dev.Quiet.retire_noFlags {d : Dev} {c : CoreId} (h : d.Quiet c) (steps : Nat) (far : Bool) {r : Ret} (hd : r.dz = false)
    (ho : r.ov = false) : d.retire c steps far r = d.retired c steps far r := by
  rw [h.retire_eq, Dev.trapAfter, trapOf_noFlags hd ho]

/-! Reservations and staged writes through a retirement: only its count-down touches them. -/

/-- What retirement counts down: the reservations, and the staged writes of core `c`. -/
def Dev.waiting (d : Dev) (c : CoreId) : SMap (Option Resv) × List Staged := (d.resv, (d.core c).staged)

theorem Dev.waiting_modCore (d : Dev) (c : CoreId) (f : Core → Core) (h : ∀ k, (f k).staged = k.staged) :
    (d.modCore c f).waiting c = d.waiting c := by
  rw [Dev.waiting, Dev.core_modCore_same, h]; rfl

theorem Dev.waiting_raiseEdge (d : Dev) (c : CoreId) (n : Nat) : (d.raiseEdge n).waiting c = d.waiting c := by
  unfold Dev.raiseEdge; split <;> rfl

theorem Dev.waiting_ite {a b : Dev} {c : CoreId} {w : SMap (Option Resv) × List Staged} {p : Prop} [Decidable p]
    (ha : a.waiting c = w) (hb : b.waiting c = w) : (if p then a else b).waiting c = w := by split <;> assumption

theorem Dev.waiting_countEvt (d : Dev) (c : CoreId) (e n : Nat) : (d.countEvt c e n).waiting c = d.waiting c := by
  unfold Dev.countEvt
  refine Dev.waiting_ite rfl (forUpto_keeps (fun x => x.waiting c) _ _ (fun i d => ?_) d)
  refine Dev.waiting_ite (Dev.waiting_ite ((Dev.waiting_raiseEdge ..).trans ?_) ?_) rfl
  · exact Dev.waiting_modCore _ _ _ (fun _ => rfl)
  · exact Dev.waiting_modCore _ _ _ (fun _ => rfl)

theorem Dev.waiting_countSteps (d : Dev) (c : CoreId) (n m : Nat) : (d.countSteps c n m).waiting c = d.waiting c := by
  simp only [Dev.countSteps]
  split
  · rfl
  · rw [Dev.waiting_countEvt, Dev.waiting_countEvt]; exact Dev.waiting_modCore _ _ _ (fun _ => rfl)

theorem Dev.waiting_forAll {α : Type} (c : CoreId) (xs : List α) (f : α → Dev → Dev) (h : ∀ x d, (f x d).waiting c = d.waiting c) (d : Dev) :
    (forAll xs f d).waiting c = d.waiting c := by
  unfold Machine.forAll
  induction xs generalizing d with
  | nil => rfl
  | cons x xs ih => exact (ih (f x d)).trans (h x d)

theorem Dev.waiting_countOpen (d : Dev) (c : CoreId) : (d.countOpen c).waiting c = d.waiting c := by
  simp only [Dev.countOpen]
  split
  · rw [Dev.waiting_countSteps]; rfl
  · rw [Dev.waiting_forAll, Dev.waiting_countSteps]
    · split
      · rfl
      · exact Dev.waiting_modCore _ _ _ (fun _ => rfl)
    · exact fun _ _ => Dev.waiting_countEvt ..

theorem Dev.waiting_countRetire (d : Dev) (c : CoreId) (steps : Nat) (far : Bool) : (d.countRetire c steps far).waiting c = d.waiting c := by
  simp only [Dev.countRetire]
  split
  · split
    · rw [Dev.waiting_countOpen, Dev.waiting_countSteps]
    · rw [Dev.waiting_countSteps]
  · rw [Dev.waiting_countOpen, Dev.waiting_countSteps]

theorem Dev.waiting_predict (d : Dev) (c : CoreId) (pc : Word) (kind : Nat) (taken : Bool) :
    (d.predict c pc kind taken).waiting c = d.waiting c := by
  unfold Dev.predict
  refine Dev.waiting_ite rfl (Dev.waiting_ite ?_ (Dev.waiting_ite (Dev.waiting_countEvt ..) rfl))
  refine (Dev.waiting_modCore _ c _ ?_).trans (Dev.waiting_ite ?_ ?_)
  · exact fun _ => rfl
  · exact Dev.waiting_countEvt d.draw.2 c _ _
  · rfl

theorem Dev.waiting_predictRet (d : Dev) (c : CoreId) (pc : Word) (b : Option (Nat × Bool)) :
    (d.predictRet c pc b).waiting c = d.waiting c := by
  cases b with
  | none => rfl
  | some x => exact Dev.waiting_ite (Dev.waiting_predict d c pc x.1 x.2) rfl

theorem Dev.waiting_retired (d : Dev) (c : CoreId) (steps : Nat) (far : Bool) (r : Ret) :
    ∃ e : Dev, e.waiting c = d.waiting c ∧ (d.retired c steps far r).waiting c = (e.countDown c).waiting c :=
  ⟨(d.modCore c r.apply).countRetire c (r.steps + steps) (far || r.far),
    (Dev.waiting_countRetire ..).trans (Dev.waiting_modCore _ _ _ (fun _ => rfl)), Dev.waiting_predictRet ..⟩

/-- A retirement takes one from a reservation that has more than one left (R135). -/
theorem Dev.retired_resv (d : Dev) (c : CoreId) (steps : Nat) (far : Bool) (r : Ret) {x : Resv}
    (hx : SMap.get (fun _ => none) d.resv c = some x) (hl : 1 < x.left) :
    SMap.get (fun _ => none) (d.retired c steps far r).resv c = some { x with left := x.left - 1 } := by
  obtain ⟨e, he, ht⟩ := d.waiting_retired c steps far r
  have hr : e.resv = d.resv := congrArg Prod.fst he
  have hn : ¬ x.left ≤ 1 := by omega
  rw [show (d.retired c steps far r).resv = (e.countDown c).resv from congrArg Prod.fst ht]
  simp only [Dev.countDown, Dev.modCore_resv, hr, hx, if_neg hn, SMap.get_set, if_true]

theorem Dev.loseOwn_staged (d : Dev) (c : CoreId) : ((d.loseOwn c).core c).staged = (d.core c).staged := by
  simp only [Dev.loseOwn]
  split
  · have h : ((d.countEvt c 0x0D 1).core c).staged = (d.core c).staged := congrArg Prod.snd (Dev.waiting_countEvt ..)
    exact h
  · rfl

/-- A retirement stages no write. -/
theorem Dev.retired_staged {d : Dev} {c : CoreId} (h : (d.core c).staged = []) (steps : Nat) (far : Bool) (r : Ret) :
    ((d.retired c steps far r).core c).staged = [] := by
  obtain ⟨e, he, ht⟩ := d.waiting_retired c steps far r
  have hs : (e.core c).staged = [] := (congrArg Prod.snd he).trans h
  have counted : ((e.modCore c (fun k => { k with staged := k.staged.map (fun s => { s with left := s.left - 1 }) })).core c).staged = [] := by
    rw [Dev.core_modCore_same, hs]; rfl
  rw [show ((d.retired c steps far r).core c).staged = ((e.countDown c).core c).staged from congrArg Prod.snd ht]
  simp only [Dev.countDown]
  split
  · exact counted
  · split
    · exact (Dev.loseOwn_staged ..).trans counted
    · exact counted

/-! Retirement without flags. -/

/-- Core `c` of device `e` has retired an instruction with `r` that set no flag and wrote `v` to w[rd]. -/
structure Dev.Settled (e t : Dev) (c : CoreId) (r : Ret) (rd : RIx) (v : Word) : Prop where
  rd : ∀ x, (t.core c).rd x = if x = rd ∧ rd ≠ 0 then v else (e.core c).rd x
  v : (t.core c).v = (e.core c).v
  q : (t.core c).q = (e.core c).q
  vstat : (t.core c).vstat = (e.core c).vstat
  pc : (t.core c).pc = r.next
  astat : (t.core c).astat = (e.core c).astat
  kept : e.Kept t c

theorem Dev.Quiet.retire_settled {e : Dev} {c : CoreId} (h : e.Quiet c) (steps : Nat) (far : Bool) {r : Ret} (hd : r.dz = false)
    (ho : r.ov = false) (rd : RIx) (f : Core → Word) :
    e.Settled ((e.modCore c (fun k => k.wr rd (f k))).retire c steps far r) c r rd (f (e.core c)) := by
  have l := Dev.retire_regs e c steps far (fun k => k.wr rd (f k)) r h (Core.wr_afterSync ..) (trapOf_noFlags hd ho _)
  obtain ⟨hrd, hv, hq, hvs, hpc, hastat⟩ := l.regs
  have hsys := Core.SameSys.wr (e.core c) rd (f (e.core c))
  exact {
    rd := fun x => (hrd x).trans (Core.rd_wr (e.core c) rd x (f (e.core c)))
    v := hv.trans (Core.wr_v ..)
    q := hq.trans (Core.wr_q ..)
    vstat := hvs.trans (Core.wr_vstat ..)
    pc := hpc
    astat := hastat.trans (by simp [Ret.apply, hd, ho])
    kept := l.kept (Core.wr_sb ..) ⟨hsys.1, hsys.2, hsys.3, hsys.4, hsys.5, hsys.6, hsys.7, hsys.8, hsys.9, hsys.10⟩ }

theorem Dev.Quiet.retire_settled_zero {e : Dev} {c : CoreId} (h : e.Quiet c) (steps : Nat) (far : Bool) {r : Ret} (hd : r.dz = false)
    (ho : r.ov = false) (v : Word) : e.Settled (e.retire c steps far r) c r 0 v := by
  have hs := h.retire_settled steps far hd ho 0 (fun _ => v)
  rwa [Dev.modCore_wr_zero] at hs

theorem Dev.Settled.sameData {e t : Dev} {c : CoreId} {r : Ret} {v : Word} (h : e.Settled t c r 0 v) : (e.core c).SameData (t.core c) where
  w := fun x => by simpa using h.rd x
  v := fun x => by unfold Core.vrd; rw [h.v]
  q := fun x => by unfold Core.qrd; rw [h.q]
  vstat := h.vstat

/-! Retirement with a trap (R117). -/

/-- The flags of an instruction ask for a trap that ASTAT enables: divide by zero, else overflow. -/
def Trips (astat : Word) (dz ov : Bool) (code : Nat) : Prop :=
  dz = true ∧ bit astat 8 = true ∧ code = 5 ∨ dz = false ∧ ov = true ∧ bit astat 9 = true ∧ code = 6

/-- A bit of ASTAT that is set stays set through a retirement (R112). -/
theorem Ret.bit_apply_astat {r : Ret} {k : Core} {i : Nat} (h : bit k.astat i = true) : bit (r.apply k).astat i = true := by
  unfold bit at h ⊢
  rw [Ret.apply, BitVec.getLsbD_or, h, Bool.true_or]

theorem Trips.trapOf {k : Core} {r : Ret} {code : Nat} (h : Trips k.astat r.dz r.ov code) : trapOf (r.apply k).astat r = some code := by
  rcases h with ⟨hd, hb, rfl⟩ | ⟨hd, ho, hb, rfl⟩
  · simp [Machine.trapOf, hd, Ret.bit_apply_astat hb]
  · simp [Machine.trapOf, hd, ho, Ret.bit_apply_astat hb]

theorem Trips.code {a : Word} {dz ov : Bool} {code : Nat} (h : Trips a dz ov code) : code < 256 ∧ code ≠ 0x20 := by
  rcases h with ⟨-, -, rfl⟩ | ⟨-, -, -, rfl⟩ <;> decide

theorem Dev.stagedDue_nil {d : Dev} {c : CoreId} (h : (d.core c).staged = []) : d.stagedDue c = d := by
  simp [Dev.stagedDue, h]

/-- An entry after a change that leaves S_STATUS and S_FADDR is an entry from the device before the change. -/
theorem Dev.Light.entered {c : CoreId} {d t e : Dev} {g : Core → Core} (l : Dev.Light c (d.modCore c g) t)
    (hs : (g (d.core c)).sStatus = (d.core c).sStatus) (hf : (g (d.core c)).sFaddr = (d.core c).sFaddr) {cd vc pr inf : Nat}
    {ret entry : Word} (h : t.Entered e c cd vc pr inf ret entry) : d.Entered e c cd vc pr inf ret entry := by
  have hst : (t.core c).sStatus = (d.core c).sStatus := by
    rw [l.getCore (fun k => k.sStatus) (fun _ => rfl), Dev.core_modCore_same, hs]
  have hfa : (t.core c).sFaddr = (d.core c).sFaddr := by
    rw [l.getCore (fun k => k.sFaddr) (fun _ => rfl), Dev.core_modCore_same, hf]
  exact { h with
    ppriv := hst ▸ h.ppriv
    pee := hst ▸ h.pee
    pipl := hst ▸ h.pipl
    ipl := hst ▸ h.ipl
    faddr := fun hc => (h.faddr hc).trans hfa
    mem := (d.sameMem_modCore c g).trans (l.mem.trans h.mem)
    others := fun x hx => by rw [h.others x hx, l.other x hx, Dev.core_modCore_other _ _ _ _ hx] }

/-- Retirement that trips a trap in a quiet core with no staged write: the entry is from the registers that the instruction left. -/
theorem Dev.Quiet.retire_traps {e : Dev} {c : CoreId} (h : e.Quiet c) (hs : (e.core c).staged = []) (steps : Nat) (far : Bool) {r : Ret}
    {code : Nat} (ht : Trips (e.core c).astat r.dz r.ov code) :
    ∃ x, e.retire c steps far r = x.entryFetch c ∧ e.Entered x c code 0 0 0 r.next (e.core c).sEvbase ∧
      ∀ y, (x.core c).rd y = (e.core c).rd y := by
  let t := e.retired c steps far r
  have l : Dev.Light c (e.modCore c r.apply) t := e.retired_light c steps far r
  obtain ⟨hrd, -, -, -, -, hastat⟩ := l.regs
  have st : (t.core c).staged = [] := Dev.retired_staged hs steps far r
  have ev : (t.core c).sEvbase = (e.core c).sEvbase := by
    rw [l.getCore (fun k => k.sEvbase) (fun _ => rfl), Dev.core_modCore_same]; rfl
  have trap : trapOf (t.core c).astat r = some code := by rw [hastat]; exact ht.trapOf
  have entry : e.retire c steps far r = t.enter c code 0 0 0 0 r.next := by
    rw [h.retire_eq, Dev.trapAfter, trap]
    exact congrArg (fun x : Dev => x.enter c code 0 0 0 0 r.next) (Dev.stagedDue_nil st)
  obtain ⟨x, hx, -, hen, hw, -⟩ :=
    t.enter_spec c code 0 0 0 0 r.next (h.retired steps far r) st ht.code.1 (by decide) (by decide) (by decide)
  rw [if_neg ht.code.2, ev] at hen
  refine ⟨x, entry.trans hx, l.entered rfl rfl hen, fun y => ?_⟩
  have same : (x.core c).rd y = (t.core c).rd y := by unfold Core.rd; rw [hw]
  exact same.trans (hrd y)

end Sys2Proof.Machine
end

section
/-!
PROOFS. The integer instructions of chapter 3 at a ready core, one rule for each shape of instruction.
-/
namespace Sys2Proof.Machine

section
variable {s : State} {c : CoreId} {d : Dev} {n : Nat} {far : Bool} {i : Instr} {rd ra rb : RIx}

/-- An instruction at a ready core completes with what settles its body. -/
theorem State.Ready.completes (h : s.Ready c d n far) {body : Dev → Out} {P : Dev → Prop}
    (hi : exec i s = onDev (fun d => d.instr c body) s) (hp : P (Dev.settle c (d.core c).pc n far (body d))) : Completes i s P :=
  Completes.of_onDev hi (by rwa [h.instr])

theorem State.Ready.writes (h : s.Ready c d n far) {val : Core → Word} {v : Word}
    (hi : exec i s = onDev (fun d => d.instr c (regOut c 1 (fun k => k.wr rd (val k)))) s) (hv : val (d.core c) = v) :
    Completes i s (fun t => d.Wrote t c rd v ∧ d.Kept t c ∧ (t.core c).astat = (d.core c).astat) := by
  subst hv
  exact Completes.of_onDev hi (h.regOut_wr 1 rd val)

/-- A shift by a legal immediate amount writes one register (R111). -/
theorem shiftImm_of_ok {wide : Bool} {sh : BitVec 6} (f : Word → Nat → Word) (g : BitVec 32 → Nat → BitVec 32) (s : State)
    (h : shiftOk wide sh = true) :
    shiftImm c rd ra wide sh f g s = onDev (fun d => d.instr c (regOut c 1 (fun k =>
      k.wr rd (if wide then sextW (g (low32 (k.rd ra)) sh.toNat) else f (k.rd ra) sh.toNat)))) s :=
  congrArg (onDev · s) (funext fun _ => Dev.instrIf_of h _)

/-! Branches and jumps. -/

theorem State.Ready.condBranch (h : s.Ready c d n far) {off : BitVec 21} {test : Word → Bool} {taken : Bool}
    (hi : exec i s = Machine.condBranch c ra off test s) (ht : test ((d.core c).rd ra) = taken) :
    Completes i s (fun t => d.Kept t c ∧ (d.core c).SameData (t.core c) ∧ (t.core c).astat = (d.core c).astat ∧
      (t.core c).pc = if taken then align4 ((d.core c).pc + boff off) else (d.core c).pc + 4) := by
  subst ht
  refine h.completes hi ?_
  have hs := h.quiet.retire_settled_zero n far (r := Ret.jump (d.core c) ((d.core c).pc + boff off) 0 (test ((d.core c).rd ra))) rfl rfl 0
  exact ⟨hs.kept, hs.sameData, hs.astat, hs.pc⟩

/-- Core `c` went on at a target, with the address of the next instruction in w[rd] (R120). -/
def Dev.JumpedTo (d t : Dev) (c : CoreId) (rd : RIx) (target : Word) : Prop :=
  (∀ x, (t.core c).rd x = if x = rd ∧ rd ≠ 0 then (d.core c).pc + 4 else (d.core c).rd x) ∧ (t.core c).pc = align4 target ∧ d.Kept t c ∧
    (t.core c).astat = (d.core c).astat ∧ (t.core c).vstat = (d.core c).vstat ∧ (t.core c).v = (d.core c).v ∧ (t.core c).q = (d.core c).q

theorem State.Ready.jump (h : s.Ready c d n far) (rd : RIx) {body : Dev → Out} {target : Word} {kind : Nat}
    (hi : exec i s = onDev (fun d => d.instr c body) s)
    (hb : body d = .done (d.modCore c (fun k => k.wr rd (k.pc + 4))) (Ret.jump (d.core c) target kind true)) :
    Completes i s (fun t => d.JumpedTo t c rd target) := by
  refine h.completes hi ?_
  rw [hb]
  have hs := h.quiet.retire_settled n far (r := Ret.jump (d.core c) target kind true) rfl rfl rd (fun k => k.pc + 4)
  exact ⟨hs.rd, hs.pc, hs.kept, hs.astat, hs.vstat, hs.v, hs.q⟩

/-! Arithmetic that trips a trap. -/

/-- Core `c` wrote `v` to w[rd] and then took cause `code` with S_EPC at the next instruction (R117). -/
def Dev.TrapsAfter (d t : Dev) (c : CoreId) (code : Nat) (rd : RIx) (v : Word) : Prop :=
  ∃ e : Dev, t = e.entryFetch c ∧ d.Entered e c code 0 0 0 ((d.core c).pc + 4) (d.core c).sEvbase ∧
    ∀ x, (e.core c).rd x = if x = rd ∧ rd ≠ 0 then v else (d.core c).rd x

theorem State.Ready.traps (h : s.Ready c d n far) (hs : (d.core c).staged = []) {body : Dev → Out} {v : Word} {m : Nat} {dz ov : Bool}
    {code : Nat} (hi : exec i s = onDev (fun d => d.instr c body) s)
    (hb : body d = .done (d.modCore c (fun k => k.wr rd v)) { Ret.plain (d.core c) m with dz := dz, ov := ov })
    (ht : Trips (d.core c).astat dz ov code) : Completes i s (fun t => d.TrapsAfter t c code rd v) := by
  refine h.completes hi ?_
  rw [hb]
  let e := d.modCore c (fun k => k.wr rd v)
  have ke : e.core c = (d.core c).wr rd v := Dev.core_modCore_same ..
  have sys := Core.SameSys.wr (d.core c) rd v
  have qe : e.Quiet c := h.quiet.modCore _ (Core.wr_afterSync ..)
  obtain ⟨x, hx, hen, hrd⟩ := qe.retire_traps (by rw [ke, Core.wr_staged, hs]) n far
    (r := { Ret.plain (d.core c) m with dz := dz, ov := ov }) (code := code) (by rw [ke, Core.wr_astat]; exact ht)
  rw [ke, sys.sEvbase] at hen
  exact ⟨x, hx, (Dev.Light.refl c e).entered sys.sStatus sys.sFaddr hen, fun y => by rw [hrd, ke, Core.rd_wr]⟩

theorem State.Ready.div64_traps (h : s.Ready c d n far) (hs : (d.core c).staged = []) {f : Word → Word → DivRes 64} {pick : DivRes 64 → Word}
    {x : DivRes 64} {v : Word} {code : Nat} (hi : exec i s = div64 c rd ra rb f pick s) (hx : f ((d.core c).rd ra) ((d.core c).rd rb) = x)
    (ht : Trips (d.core c).astat x.dz x.ov code) (hv : pick x = v) : Completes i s (fun t => d.TrapsAfter t c code rd v) := by
  subst hx hv
  exact h.traps hs hi rfl ht

theorem State.Ready.div32_traps (h : s.Ready c d n far) (hs : (d.core c).staged = []) {f : BitVec 32 → BitVec 32 → DivRes 32}
    {pick : DivRes 32 → BitVec 32} {x : DivRes 32} {v : Word} {code : Nat} (hi : exec i s = div32 c rd ra rb f pick s)
    (hx : f (low32 ((d.core c).rd ra)) (low32 ((d.core c).rd rb)) = x) (ht : Trips (d.core c).astat x.dz x.ov code)
    (hv : sextW (pick x) = v) : Completes i s (fun t => d.TrapsAfter t c code rd v) := by
  subst hx hv
  exact h.traps hs hi rfl ht

theorem State.Ready.aluV_traps (h : s.Ready c d n far) (hs : (d.core c).staged = []) {f : Word → Word → Word} {ov : Word → Word → Bool}
    {v : Word} (hi : exec i s = aluV c rd ra rb f ov s) (hv : f ((d.core c).rd ra) ((d.core c).rd rb) = v)
    (ho : ov ((d.core c).rd ra) ((d.core c).rd rb) = true) (hb : bit (d.core c).astat 9 = true) :
    Completes i s (fun t => d.TrapsAfter t c 6 rd v) := by
  subst hv
  exact h.traps hs hi rfl (Or.inr ⟨rfl, ho, hb, rfl⟩)

/-! ERET. -/

/-- What retires an ERET. -/
def eretRet (k : Core) : Ret := { Ret.plain k 3 with next := align4 k.sEpc, branch := some (6, true) }

/-- What ERET writes into its core (R152). -/
def Core.returned (k : Core) : Core := { k with sStatus := eretStatus k.sStatus }

theorem State.Ready.eret (h : s.Ready c d n far) (hp : (d.core c).priv = .s) {P : Dev → Prop}
    (ht : P ((d.modCore c Core.returned).retire c n far (eretRet (d.core c)))) : Completes (.eret c) s P := by
  refine h.completes rfl ?_
  have hu : ¬ (d.core c).priv = .u := by rw [hp]; decide
  rw [if_neg hu]
  exact ht

/-! Ordered loads. -/

/-- The reservation that a load of `n` bytes from some parts sets, if it is one that reserves (R133). -/
def Dev.reserve (e : Dev) (c : CoreId) (on : Bool) (n : Nat) (ps : List Part) : Dev :=
  if on then { e with resv := SMap.set (fun _ => none) e.resv c (ps.head?.map (fun p => ⟨resvAddr c p, n, 129⟩)) } else e

theorem Dev.core_reserve (e : Dev) (c : CoreId) (on : Bool) (n : Nat) (ps : List Part) (x : CoreId) :
    (e.reserve c on n ps).core x = e.core x := by cases on <;> rfl

theorem Dev.reserve_light (e : Dev) (c : CoreId) (on : Bool) (n : Nat) (ps : List Part) : Dev.Light c e (e.reserve c on n ps) :=
  Dev.Light.ite ⟨rfl, fun _ _ _ _ => rfl⟩ (Dev.Light.refl c e)

/-- The reserving load's own retirement takes one of the 129 (R135). -/
theorem Dev.reserve_resv (e : Dev) (c : CoreId) (n : Nat) {ps : List Part} {p : Part} (h : ps.head? = some p) :
    SMap.get (fun _ => none) (e.reserve c true n ps).resv c = some ⟨resvAddr c p, n, 129⟩ := by
  simp only [Dev.reserve, if_true, SMap.get_set, h, Option.map_some]

theorem Dev.Settled.after {e t : Dev} {on : Bool} {size : Nat} {ps : List Part} {r : Ret} {v : Word}
    (h : (e.reserve c on size ps).Settled t c r rd v) (hr : r.next = (d.core c).pc + 4) : d.After e t c rd v := by
  have k := h.kept
  have hc := e.core_reserve c on size ps
  have l := e.reserve_light c on size ps
  refine ⟨fun x => hc c ▸ h.rd x, hc c ▸ h.v, hc c ▸ h.q, hc c ▸ h.vstat, h.pc.trans hr, hc c ▸ h.astat, ?_⟩
  exact ⟨l.mem.trans k.mem, fun x hx => hc x ▸ k.others x hx, hc c ▸ k.sb, hc c ▸ k.sys, k.time.trans (l.get (fun x => x.dt) (fun _ => rfl)),
    fun u o hu ho => (k.unit u o hu ho).trans (l.unit u o hu ho)⟩

theorem State.Ready.orderedLoad (h : s.Ready c d n far) {size : Nat} {strict rel on old : Bool} {ext : Nat → Word}
    (hi : exec i s = Machine.orderedLoad c rd ra size strict rel on old ext s) {d1 e : Dev} {ps : List Part} {bs : List Byte}
    (ha : d.access c .load (if strict then some size else none) [⟨((d.core c).rd ra).toNat, size, size⟩] = .ok d1 ps)
    (hl : (d1.release c rel).loadParts c old (old && !strict) ps = (e, .ok bs)) (hq : e.Quiet c) {v : Word} (hv : ext (leNat bs) = v) :
    Completes i s (fun t => d.After e t c rd v ∧
      (on = true → ∀ p, ps.head? = some p → SMap.get (fun _ => none) t.resv c = some ⟨resvAddr c p, size, 128⟩)) := by
  subst hv
  refine h.completes hi ?_
  simp only [Dev.withAccess, scalar, ha, hl]
  have q : (e.reserve c on size ps).Quiet c := (e.reserve_light c on size ps).quiet hq
  refine ⟨(q.retire_settled n far rfl rfl rd (fun _ => ext (leNat bs))).after rfl, fun hon p hp => ?_⟩
  subst hon
  have q' : ((e.reserve c true size ps).modCore c (fun k => k.wr rd (ext (leNat bs)))).Quiet c := q.modCore _ (Core.wr_afterSync ..)
  refine (congrArg (fun x : Dev => SMap.get (fun _ => none) x.resv c) (q'.retire_noFlags n far rfl rfl)).trans ?_
  exact Dev.retired_resv _ c n far _ (x := ⟨resvAddr c p, size, 129⟩) (e.reserve_resv c size hp) (by decide : 1 < 129)

end

/-! The obligations. -/

/-- Settles O10: each form writes one register (`State.Ready.writes`), with the value of the word lemma named by its case. -/
theorem aluImmediateResults : Obligations.AluImmediateResults := by
  intro s c d n far h rd ra rb rc imm up sh sh5
  have narrow := shiftOk_setWidth true sh5
  simp only [List.forall_mem_cons, List.not_mem_nil, false_imp_iff, implies_true, and_true]
  refine ⟨h.writes rfl ?addi, h.writes rfl ?addiw, h.writes rfl ?andi, h.writes rfl ?ori, h.writes rfl ?xori, h.writes rfl ?slti,
    h.writes rfl ?sltiu, h.writes (shiftImm_of_ok _ _ s rfl) ?slli, h.writes (shiftImm_of_ok _ _ s rfl) ?srli,
    h.writes (shiftImm_of_ok _ _ s rfl) ?srai, h.writes (shiftImm_of_ok _ _ s narrow) ?slliw,
    h.writes (shiftImm_of_ok _ _ s narrow) ?srliw, h.writes (shiftImm_of_ok _ _ s narrow) ?sraiw,
    h.writes rfl ?rori, h.writes rfl ?lui, h.writes rfl ?auipc, h.writes rfl ?sel⟩
  case addi => exact add_sWord ..
  case addiw => exact sextW_low32_add_simm ..
  case andi => exact and_zimm ..
  case ori => exact or_zimm ..
  case xori => exact xor_zimm ..
  case slti => exact (congrArg truth (slt_simm ..)).trans (truth_decide _)
  case sltiu => exact truth_decide _
  case slli => exact shiftLeft_eq_ofNat ..
  case srli => exact ushiftRight_eq_ofNat ..
  case srai => exact sshiftRight_eq_ofInt ..
  case slliw => simp only [if_true, toNat_shiftAmount, shiftLeft_eq_ofNat, sextW_ofNat]; rfl
  case srliw => simp only [if_true, toNat_shiftAmount, ushiftRight_eq_ofNat, sextW_ofNat]; rfl
  case sraiw => simp only [if_true, toNat_shiftAmount, sshiftRight_eq_ofInt, sextW_ofInt]; rfl
  case rori => exact rotateRight_eq_ofNat _ _ sh.isLt
  case lui => exact uimm_eq up
  case auipc => rw [uimm_eq, add_sWord]
  case sel => exact ite_not ..

/-- Settles O13: the flags that each operand pair sets (`divS_zero`, `divS_overflow`, `beyond_of_outside`) trip the trap of
`State.Ready.traps`. -/
theorem arithmeticTraps : Obligations.ArithmeticTraps := by
  intro s c d n far h hs rd ra rb
  dsimp only
  generalize ha : (d.core c).rd ra = a
  generalize hb : (d.core c).rd rb = b
  have byZero : bit (d.core c).astat 8 = true → Trips (d.core c).astat true false 5 := fun h8 => Or.inl ⟨rfl, h8, rfl⟩
  have overflow : bit (d.core c).astat 9 = true → Trips (d.core c).astat false true 6 := fun h9 => Or.inr ⟨rfl, rfl, h9, rfl⟩
  refine ⟨fun h0 h8 => ?zero64, fun h0 h8 => ?zero32, fun h9 => ⟨?min64, ?min32, ?addvw, ?subvw, ?mulvw, ?addv, ?subv, ?mulv⟩⟩
  case zero64 =>
    have hS : divS ((d.core c).rd ra) ((d.core c).rd rb) = ⟨0, a, true, false⟩ := by rw [hb, h0, ha, divS_zero]
    have hU : divU ((d.core c).rd ra) ((d.core c).rd rb) = ⟨0, a, true, false⟩ := by rw [hb, h0, ha, divU_zero]
    exact ⟨h.div64_traps (pick := (·.q)) hs rfl hS (byZero h8) rfl, h.div64_traps (pick := (·.q)) hs rfl hU (byZero h8) rfl,
      h.div64_traps (pick := (·.r)) hs rfl hS (byZero h8) rfl, h.div64_traps (pick := (·.r)) hs rfl hU (byZero h8) rfl⟩
  case zero32 =>
    have h32 : low32 b = 0 := h0
    have hS : divS (low32 ((d.core c).rd ra)) (low32 ((d.core c).rd rb)) = ⟨0, low32 a, true, false⟩ := by rw [hb, h32, ha, divS_zero]
    have hU : divU (low32 ((d.core c).rd ra)) (low32 ((d.core c).rd rb)) = ⟨0, low32 a, true, false⟩ := by rw [hb, h32, ha, divU_zero]
    exact ⟨h.div32_traps (pick := (·.q)) hs rfl hS (byZero h8) rfl, h.div32_traps (pick := (·.q)) hs rfl hU (byZero h8) rfl,
      h.div32_traps (pick := (·.r)) hs rfl hS (byZero h8) rfl, h.div32_traps (pick := (·.r)) hs rfl hU (byZero h8) rfl⟩
  case min64 =>
    rintro ⟨hmin, hneg⟩
    have hS : divS ((d.core c).rd ra) ((d.core c).rd rb) = ⟨a, 0, false, true⟩ := by rw [ha, hb, divS_overflow hmin hneg]
    exact ⟨h.div64_traps (pick := (·.q)) hs rfl hS (overflow h9) rfl, h.div64_traps (pick := (·.r)) hs rfl hS (overflow h9) rfl⟩
  case min32 =>
    rintro ⟨hmin, hneg⟩
    have hS : divS (low32 ((d.core c).rd ra)) (low32 ((d.core c).rd rb)) = ⟨low32 a, 0, false, true⟩ := by
      rw [ha, hb]; exact divS_overflow hmin hneg
    exact ⟨h.div32_traps (pick := (·.q)) hs rfl hS (overflow h9) rfl, h.div32_traps (pick := (·.r)) hs rfl hS (overflow h9) rfl⟩
  case addvw =>
    exact fun ho => h.aluV_traps (f := fun a b => sextW (low32 a + low32 b)) (ov := fun a b => addOv (low32 a) (low32 b)) hs rfl
      (by rw [ha, hb]; exact sextW_add ..) (by rw [ha, hb]; exact beyond_of_outside (w := 32) ho) h9
  case subvw =>
    exact fun ho => h.aluV_traps (f := fun a b => sextW (low32 a - low32 b)) (ov := fun a b => subOv (low32 a) (low32 b)) hs rfl
      (by rw [ha, hb]; exact sextW_sub ..) (by rw [ha, hb]; exact beyond_of_outside (w := 32) ho) h9
  case mulvw =>
    exact fun ho => h.aluV_traps (f := fun a b => sextW (low32 a * low32 b)) (ov := fun a b => mulOv (low32 a) (low32 b)) hs rfl
      (by rw [ha, hb]; exact sextW_mul ..) (by rw [ha, hb]; exact beyond_of_outside (w := 32) ho) h9
  case addv =>
    exact fun ho => h.aluV_traps (f := (· + ·)) (ov := addOv) hs rfl (by rw [ha, hb])
      (by rw [ha, hb]; exact beyond_of_outside (w := 64) ho) h9
  case subv =>
    exact fun ho => h.aluV_traps (f := (· - ·)) (ov := subOv) hs rfl (by rw [ha, hb])
      (by rw [ha, hb]; exact beyond_of_outside (w := 64) ho) h9
  case mulv =>
    exact fun ho => h.aluV_traps (f := (· * ·)) (ov := mulOv) hs rfl (by rw [ha, hb])
      (by rw [ha, hb]; exact beyond_of_outside (w := 64) ho) h9

/-- Settles O14: one rule for the four branches; what differs is the test. -/
theorem conditionalBranches : Obligations.ConditionalBranches := by
  intro s c d n far h ra off
  simp only [List.forall_mem_cons, List.not_mem_nil, false_imp_iff, implies_true, and_true, ← align4_eq, ← boff_eq]
  refine ⟨h.condBranch (test := (· == 0)) rfl ?bez, h.condBranch (test := (· != 0)) rfl ?bnz, h.condBranch (test := (·.slt 0)) rfl ?bltz,
    h.condBranch (test := fun v => !v.slt 0) rfl ?bgez⟩
  case bez => rfl
  case bnz => exact (decide_not ..).symm
  case bltz => rfl
  case bgez => rw [BitVec.slt, ← decide_not]; exact decide_eq_decide.2 Int.not_lt

/-- Settles O15: J is the jump whose link w0 discards (R97). -/
theorem jumps : Obligations.Jumps := by
  intro s c d n far h rd ra off imm
  simp only [← align4_eq, ← joff_eq, ← simm_eq]
  refine ⟨h.jump 0 (kind := 1) rfl ?_, h.jump 31 rfl rfl, h.jump rd rfl rfl⟩
  rw [Dev.modCore_wr_zero]

/-- Settles O29: `State.Ready.orderedLoad` at the size, alignment, release and extension of each form. -/
theorem orderedLoads : Obligations.OrderedLoads := by
  intro s c d n far h rd ra ord
  refine ⟨?lres, ?lresw, ?lda, ?ldaw, ?ldnt⟩
  case lres =>
    exact fun _ _ _ _ ha hl hq => h.orderedLoad (size := 8) (strict := true) (rel := isRelease ord) (on := true) (old := false) (ext := zextN)
      rfl ha hl hq rfl
  case lresw =>
    exact fun _ _ _ _ ha hl hq => h.orderedLoad (size := 4) (strict := true) (rel := isRelease ord) (on := true) (old := false)
      (ext := sextN 32) rfl ha hl hq (sextN_32 _)
  case lda =>
    exact fun _ _ _ _ ha hl hq => h.orderedLoad (size := 8) (strict := true) (rel := false) (on := false) (old := false) (ext := zextN)
      rfl ha hl hq rfl
  case ldaw =>
    exact fun _ _ _ _ ha hl hq => h.orderedLoad (size := 4) (strict := true) (rel := false) (on := false) (old := false) (ext := sextN 32)
      rfl ha hl hq (sextN_32 _)
  case ldnt =>
    exact fun _ _ _ _ ha hl hq => h.orderedLoad (size := 8) (strict := false) (rel := false) (on := false) (old := true) (ext := zextN)
      rfl ha hl hq rfl

/-- Settles O37: retirement changes nothing but the pc and counts after `Core.returned`, and takes one from the reservation (R135). -/
theorem exceptionReturn : Obligations.ExceptionReturn := by
  intro s c d n far h hp
  refine h.eret hp ?_
  generalize ht : (d.modCore c Core.returned).retire c n far (eretRet (d.core c)) = t
  have l := Dev.retire_regs d c n far Core.returned (eretRet (d.core c)) h.quiet rfl (trapOf_noFlags rfl rfl _)
  rw [ht] at l
  have kept : ∀ {β : Type} (g : Core → β) (_ : ∀ k : Core, g k.bare = g k), g (t.core c) = g ((eretRet (d.core c)).apply (d.core c).returned) :=
    fun g hg => (l.getCore g hg).trans (congrArg g (Dev.core_modCore_same ..))
  obtain ⟨hw, hv, hq, hvs, hpc, ha⟩ := l.regs
  have hst : (t.core c).sStatus = eretStatus (d.core c).sStatus := kept (fun k => k.sStatus) (fun _ => rfl)
  obtain ⟨hpriv, hee, hipl, hrest⟩ := eretStatus_fields (d.core c).sStatus
  have data : (d.core c).SameData (t.core c) :=
    ⟨hw, fun x => by unfold Core.vrd; rw [hv]; rfl, fun x => by unfold Core.qrd; rw [hq]; rfl, hvs⟩
  have others : ∀ x, x ≠ c → t.core x = d.core x := fun x hx => (l.other x hx).trans (Dev.core_modCore_other _ _ _ _ hx)
  have resv : ∀ r, SMap.get (fun _ => none) d.resv c = some r → 1 < r.left →
      SMap.get (fun _ => none) t.resv c = some { r with left := r.left - 1 } := fun r hr hl => by
    rw [← ht, (h.quiet.modCore Core.returned rfl).retire_noFlags n far rfl rfl]
    exact Dev.retired_resv _ c n far _ hr hl
  rw [← hst] at hpriv hee hipl hrest
  exact ⟨hpriv, hee, hipl, hrest, hpc.trans (align4_eq _), data, ha.trans BitVec.or_zero, (d.sameMem_modCore c _).trans l.mem, others,
    kept (fun k => k.sEpc) (fun _ => rfl), kept (fun k => k.sCause) (fun _ => rfl), kept (fun k => k.sFaddr) (fun _ => rfl),
    kept (fun k => k.sEvbase) (fun _ => rfl), kept (fun k => k.sScratch) (fun _ => rfl), kept (fun k => k.sTbase) (fun _ => rfl), resv⟩

end Sys2Proof.Machine
end

section
/-!
PROOFS. Lanes and roundings as the numbers that they are: the leading sign count (R182), narrowing (R187-R191), the gain (R196, R197).
-/
namespace Sys2Proof.Machine

/-! Lanes as two's complement numbers (R165). -/

theorem cast_unsignedOf (w : Nat) (x : Int) : (unsignedOf w x : Int) = x % 2 ^ w := by
  have hc : ((2 ^ w : Nat) : Int) = 2 ^ w := by norm_cast
  rw [unsignedOf, Int.toNat_of_nonneg (Int.emod_nonneg _ (by rw [hc]; exact Int.ne_of_gt (int_two_pow_pos w))), hc]

theorem laneU_fromLanes_emod {w n : Nat} (f : Nat → Int) (h : w * n ≤ 512) {i : Nat} (hi : i < n) :
    (laneU (fromLanes w n f) w i : Int) = f i % 2 ^ w := by
  rw [laneU_fromLanes w n f h i hi, cast_unsignedOf]

theorem laneS_emod (v : BitVec 512) (w i : Nat) : laneS v w i % 2 ^ w = laneU v w i % 2 ^ w := by
  have hlt : laneU v w i < 2 ^ w := bits_lt ..
  rw [laneS, signedOf, Nat.mod_eq_of_lt hlt]
  split
  · rfl
  · exact Int.sub_emod_right ..

theorem signedOf_bits {n : Nat} (v : BitVec n) (lo w : Nat) : signedOf w (bits v lo w) = (v.extractLsb' lo w).toInt := by
  rw [signedOf, bits, Nat.mod_eq_of_lt (v.extractLsb' lo w).isLt, BitVec.toInt_eq_toNat_cond]; norm_cast

theorem misfit_eq_false {w : Nat} {x : Int} : misfit w x = false ↔ -2 ^ (w - 1) ≤ x ∧ x < 2 ^ (w - 1) := by
  rw [misfit, Bool.or_eq_false_iff, decide_eq_false_iff_not, decide_eq_false_iff_not, Int.not_lt, Int.not_le]

theorem misfit_laneS (v : BitVec 512) (w i : Nat) : misfit w (laneS v w i) = false := by
  rw [laneS, laneU, signedOf_bits, misfit_eq_false]
  exact ⟨BitVec.le_toInt _, BitVec.toInt_lt⟩

theorem ite_lt_eq_min (x y : Int) : (if x < y then x else y) = min x y := by split <;> omega

theorem ite_lt_eq_max (x y : Int) : (if x < y then y else x) = max x y := by split <;> omega

/-! The lanes that the moves of R180 pick. -/

theorem laneS_interleave (a b : BitVec 512) (w i j : Nat) :
    laneS (if i % 2 == 1 then b else a) w j = if i % 2 = 0 then laneS a w j else laneS b w j := by
  rcases Nat.mod_two_eq_zero_or_one i with e | e <;> simp [e]

/-- Every second lane, from `o` on, of the two registers in turn. -/
theorem laneS_everySecond (a b : BitVec 512) (w o : Nat) {m i : Nat} (hi : i < m + m) :
    laneS (if decide (m ≤ i) then b else a) w (2 * (i % m) + o) =
      if i < m then laneS a w (2 * i + o) else laneS b w (2 * (i - m) + o) := by
  by_cases h : i < m
  · simp [h, Nat.mod_eq_of_lt h, Nat.not_le.2 h]
  · have hm : i % m = i - m := by rw [Nat.mod_eq_sub_mod (by omega), Nat.mod_eq_of_lt (by omega)]
    simp [h, hm, Nat.le_of_not_lt h]

/-! The leading sign count (R182). -/

/-- The zeros above the leading one of an `n`-bit number. -/
theorem length_takeWhile_zeros (n y : Nat) (h : y < 2 ^ n) :
    ((List.range n).takeWhile (fun j => !y.testBit (n - 1 - j))).length = n - (if y = 0 then 0 else Nat.log2 y + 1) := by
  induction n with
  | zero => simp
  | succ n ih =>
    have shift : ((fun j => !y.testBit (n + 1 - 1 - j)) ∘ Nat.succ) = fun j => !y.testBit (n - 1 - j) := by
      funext j; simp only [Function.comp, Nat.succ_eq_add_one]; congr 2; omega
    rw [List.range_succ_eq_map, List.takeWhile_cons, List.takeWhile_map, shift]
    by_cases top : 2 ^ n ≤ y
    · have h0 : y ≠ 0 := by have := Nat.two_pow_pos n; omega
      have hlog : Nat.log2 y = n := (Nat.log2_eq_iff h0).2 ⟨top, h⟩
      have hbit : y.testBit n = true := by rw [← hlog]; exact Nat.testBit_log2 h0
      simp [hbit, h0, hlog]
    · have low : y < 2 ^ n := by omega
      have hlog : (if y = 0 then 0 else Nat.log2 y + 1) ≤ n := by
        split
        · omega
        · next h0 => exact (Nat.log2_lt h0).2 low
      simp only [Nat.add_sub_cancel, Nat.sub_zero, Nat.testBit_lt_two_pow low, Bool.not_false, if_true, List.length_cons, List.length_map,
        ih low]
      omega

/-- The number whose leading zeros `signCount` counts: `x`, or its complement where it is negative. -/
def signFree {w : Nat} (x : BitVec w) : BitVec w := if x.msb then ~~~x else x

theorem toNat_signFree {w : Nat} (x : BitVec w) :
    (signFree x).toNat = if x.toInt < 0 then (-x.toInt - 1).toNat else x.toInt.toNat := by
  have hm : x.msb = decide (x.toInt < 0) := BitVec.msb_eq_toInt
  have hi := x.toInt_eq_msb_cond
  by_cases h : x.toInt < 0
  · have : ((2 ^ w : Nat) : Int) = 2 ^ w := by norm_cast
    simp only [signFree, hm, h, decide_true, if_true, BitVec.toNat_not] at hi ⊢
    omega
  · simp only [signFree, hm, h, decide_false, if_false, Bool.false_eq_true] at hi ⊢
    omega

theorem getLsbD_signFree {w : Nat} (x : BitVec w) {j : Nat} (hj : j < w) : (signFree x).getLsbD j = (x.getLsbD j != x.msb) := by
  cases hm : x.msb <;> simp [signFree, hm, hj]

theorem toNat_signFree_lt {w : Nat} (x : BitVec w) (hw : 0 < w) : (signFree x).toNat < 2 ^ (w - 1) := by
  refine BitVec.toNat_lt_of_msb_false ?_
  rw [BitVec.msb_eq_getLsbD_last, getLsbD_signFree x (by omega), BitVec.msb_eq_getLsbD_last, bne_self_eq_false]

/-- The bits directly below the sign bit that equal it are the leading zeros of `signFree`. -/
theorem signCount_laneS (v : BitVec 512) {w : Nat} (hw : 0 < w) (i : Nat) :
    signCount w (laneS v w i) =
      ((List.range (w - 1)).takeWhile (fun j => bit v (w * i + (w - 2 - j)) == bit v (w * i + (w - 1)))).length := by
  have same : ∀ j, (bit v (w * i + (w - 2 - j)) == bit v (w * i + (w - 1))) =
      !(signFree (v.extractLsb' (w * i) w)).toNat.testBit (w - 1 - 1 - j) := fun j => by
    have hj : w - 1 - 1 - j < w := by omega
    have hs : w - 1 < w := by omega
    rw [BitVec.testBit_toNat, getLsbD_signFree _ hj, BitVec.msb_eq_getLsbD_last, BitVec.getLsbD_extractLsb',
      BitVec.getLsbD_extractLsb', show w - 2 = w - 1 - 1 by omega]
    simp [bit, bne, hj, hs]
  rw [funext same, length_takeWhile_zeros _ _ (toNat_signFree_lt _ hw), laneS, laneU, signedOf_bits, signCount, toNat_signFree]

/-! Narrowing (R187-R191). -/

theorem limit_eq_zero {w : Nat} (hw : 1 < w) (x : Int) : limit w x = 0 ↔ x = 0 := by
  have hp := int_two_pow_pred (w - 1) (by omega)
  have hpos := int_two_pow_pos (w - 1 - 1)
  unfold limit; omega

theorem one_lt_fmtW (fmt : Nat) : 1 < fmtW fmt := by unfold fmtW; split <;> decide

theorem fmtW_eq (fmt : BitVec 3) : fmtW fmt.toNat = if fmt = 2 ∨ fmt = 4 then 16 else 32 := by
  revert fmt; decide

theorem fmtShift_eq (fmt : BitVec 3) :
    (fmtShift fmt.toNat : Int) = if fmt = 0 then 31 else if fmt = 1 then 33 else if fmt = 2 then 47 else 0 := by
  revert fmt; decide

theorem toNat_lt_three {rm : BitVec 2} (h : rm ≠ 3) : rm.toNat < 3 := by
  revert rm; decide

theorem fmtHiOk_of {fmt : BitVec 3} {hi : Bool} (hf : fmt.toNat < 5) (h : hi = true → fmt = 2 ∨ fmt = 4) : fmtHiOk fmt hi = true := by
  revert fmt hi; decide

theorem narrowOk_of {fmt : BitVec 3} {hi : Bool} {rm : BitVec 2} {byReg : Bool} {sh : BitVec 7} (hf : fmt.toNat < 5)
    (h : hi = true → fmt = 2 ∨ fmt = 4) (hrm : rm ≠ 3) (hsh : byReg = true → sh.toNat < 32) : narrowOk fmt hi rm byReg sh = true := by
  have hreg : (!byReg || bits sh 5 2 == 0) = true := by
    cases byReg
    · rfl
    · have hlt : sh.toNat / 32 = 0 := Nat.div_eq_of_lt (hsh rfl)
      simp [bits, BitVec.extractLsb'_toNat, Nat.shiftRight_eq_div_pow, hlt]
  rw [narrowOk, fmtHiOk_of hf h, hreg, Bool.true_and, Bool.and_true, bne_iff_ne]
  exact hrm

theorem narrowSh_eq (k : Core) (byReg : Bool) (sh : BitVec 7) :
    k.narrowSh byReg sh = if byReg then ((k.rd (sh.setWidth 5).toFin).setWidth 7).toInt else sh.toInt := by
  rw [Core.narrowSh, signedOf_bits]; simp

theorem narrowLane_eq (x : Int) (fmt : Nat) (sh : Int) {rm : Nat} (h : rm < 3) :
    narrowLane x fmt sh rm = limit (fmtW fmt) (roundShift x (fmtShift fmt + sh) rm) := by
  rw [narrowLane, rounded_eq _ _ _ h, clampS_eq]

theorem narrowLane_beq_zero (x : Int) (fmt : Nat) (sh : Int) {rm : Nat} (h : rm < 3) :
    (narrowLane x fmt sh rm == 0) = (roundShift x (fmtShift fmt + sh) rm == 0) := by
  rw [Bool.eq_iff_iff, beq_iff_eq, beq_iff_eq, narrowLane_eq _ _ _ h, limit_eq_zero (one_lt_fmtW fmt)]

theorem narrowAll_bits (f : Nat → Int) (fmt : Nat) (sh : Int) {rm : Nat} (h : rm < 3) :
    (narrowAll f fmt sh rm).bits = narrowingFlags (fmtW fmt) (fmtShift fmt + sh) rm f := by
  simp only [narrowAll, narrowFlags, narrowLane_beq_zero _ _ _ h, rounded_eq _ _ _ h, beyond_eq]
  rfl

/-- The register that a narrowing writes: a 16-bit format changes the half that H selects (R191). -/
def Core.narrowed (k : Core) (vd : RIx) (qa : QIx) (fmt : Nat) (hi : Bool) (sh : Int) (rm : Nat) : BitVec 512 :=
  let f (i : Nat) : Int := narrowLane (accLane (k.qrd qa) i) fmt sh rm
  let base := if hi then 16 else 0
  if fmtHalf fmt then fromLanes 16 32 (fun i => if base ≤ i ∧ i < base + 16 then f (i - base) else laneS (k.vrd vd) 16 i)
  else fromLanes 32 16 f

section
variable (k : Core) (vd : RIx) (qa : QIx) {fmt : Nat} (hi : Bool) (sh : Int) {rm : Nat}

theorem Core.narrowTo_eq :
    k.narrowTo vd qa fmt hi sh rm = (k.vwr vd (k.narrowed vd qa fmt hi sh rm)).flag (narrowAll (accLane (k.qrd qa)) fmt sh rm) := rfl

theorem Core.laneS_narrowed_whole (hf : fmtHalf fmt = false) (hr : rm < 3) {i : Nat} (hl : i < 16) :
    laneS (k.narrowed vd qa fmt hi sh rm) 32 i = limit 32 (roundShift (accLane (k.qrd qa) i) (fmtShift fmt + sh) rm) := by
  have hn := narrowLane_eq (accLane (k.qrd qa) i) fmt sh hr
  rw [fmtW, hf, if_neg Bool.false_ne_true] at hn
  rw [Core.narrowed, hf, if_neg Bool.false_ne_true, ← hn]
  exact laneS_fromLanes 32 16 _ (by decide) (by decide) i hl (hn ▸ misfit_limit ..)

theorem Core.laneS_narrowed_half (hf : fmtHalf fmt = true) (hr : rm < 3) {i : Nat} (hl : i < 32) :
    laneS (k.narrowed vd qa fmt hi sh rm) 16 i =
      if (if hi then 16 ≤ i else i < 16) then limit 16 (roundShift (accLane (k.qrd qa) (i % 16)) (fmtShift fmt + sh) rm)
      else laneS (k.vrd vd) 16 i := by
  have hn := narrowLane_eq (accLane (k.qrd qa) (i % 16)) fmt sh hr
  rw [fmtW, hf, if_pos rfl] at hn
  have hlane : (if (if hi then 16 else 0) ≤ i ∧ i < (if hi then 16 else 0) + 16
        then narrowLane (accLane (k.qrd qa) (i - if hi then 16 else 0)) fmt sh rm else laneS (k.vrd vd) 16 i) =
      if (if hi then 16 ≤ i else i < 16) then narrowLane (accLane (k.qrd qa) (i % 16)) fmt sh rm else laneS (k.vrd vd) 16 i := by
    cases hi
    · by_cases h16 : i < 16
      · simp [h16, Nat.mod_eq_of_lt h16]
      · simp [h16]
    · by_cases h16 : 16 ≤ i
      · simp [h16, hl, Nat.mod_eq_sub_mod h16, Nat.mod_eq_of_lt (show i - 16 < 16 by omega)]
      · simp [h16]
  rw [Core.narrowed, hf, if_pos rfl, ← hn, ← hlane]
  refine laneS_fromLanes 16 32 _ (by decide) (by decide) i hl ((congrArg (misfit 16) hlane).trans ?_)
  by_cases hin : if hi then 16 ≤ i else i < 16
  · rw [if_pos hin, hn]; exact misfit_limit ..
  · rw [if_neg hin]; exact misfit_laneS ..

theorem Core.laneS_narrowed (hr : rm < 3) (i : Nat) (hl : i < 512 / fmtW fmt) :
    laneS (k.narrowed vd qa fmt hi sh rm) (fmtW fmt) i =
      if fmtW fmt = 32 then limit 32 (roundShift (accLane (k.qrd qa) i) (fmtShift fmt + sh) rm)
      else if (if hi then 16 ≤ i else i < 16) then limit 16 (roundShift (accLane (k.qrd qa) (i % 16)) (fmtShift fmt + sh) rm)
      else laneS (k.vrd vd) 16 i := by
  cases hf : fmtHalf fmt
  · have hw : fmtW fmt = 32 := by rw [fmtW, hf, if_neg Bool.false_ne_true]
    rw [hw] at hl ⊢
    exact k.laneS_narrowed_whole vd qa hi sh hf hr hl
  · have hw : fmtW fmt = 16 := by rw [fmtW, hf, if_pos rfl]
    rw [hw] at hl ⊢
    exact k.laneS_narrowed_half vd qa hi sh hf hr hl

end

/-! Format 0 without a further shift: the results of the biquad and the ramp (R192, R196). -/

theorem laneS_fromLanes_narrowLane (f : Nat → Int) {rm : Nat} (hr : rm < 3) {i : Nat} (hl : i < 16) :
    laneS (fromLanes 32 16 (fun i => narrowLane (f i) 0 0 rm)) 32 i = limit 32 (roundShift (f i) 31 rm) := by
  have hn : narrowLane (f i) 0 0 rm = limit 32 (roundShift (f i) 31 rm) := narrowLane_eq (f i) 0 0 hr
  rw [laneS_fromLanes 32 16 _ (by decide) (by decide) i hl (hn ▸ misfit_limit ..), hn]

theorem narrowAll_zero_bits (f : Nat → Int) {rm : Nat} (hr : rm < 3) : (narrowAll f 0 0 rm).bits = narrowingFlags 32 31 rm f :=
  narrowAll_bits f 0 0 hr

/-! The gain (R196, R197). -/

theorem rampGain_eq (g d t : Int) :
    rampGain g d t = if g < t then min (g + d.natAbs) t else if t < g then max (g - d.natAbs) t else g := by
  have hm : (if d < 0 then -d else d) = d.natAbs := by split <;> omega
  rw [rampGain, hm]

/-- A gain goes from where it is toward its target and not beyond, so it stays in range. -/
theorem misfit_rampGain {w : Nat} {g t : Int} (d : Int) (hg : misfit w g = false) (ht : misfit w t = false) :
    misfit w (rampGain g d t) = false := by
  rw [misfit_eq_false] at hg ht ⊢
  rw [rampGain_eq]
  split
  · omega
  · split <;> omega

end Sys2Proof.Machine
end

section
/-!
PROOFS. The vector instructions of chapter 4 at a ready core, one rule for each shape of instruction.
-/
namespace Sys2Proof.Machine

theorem Completes.mono {i : Instr} {s : State} {P Q : Dev → Prop} (h : Completes i s P) (hpq : ∀ t, P t → Q t) : Completes i s Q := by
  obtain ⟨t, ht, hp, hP⟩ := h
  exact ⟨t, ht, hp, hpq _ hP⟩

/-- An instruction whose fields are legal, as a meaning. -/
theorem onDev_instrIf {s : State} {c : CoreId} {ok : Bool} (hok : ok = true) (body : Dev → Out) :
    onDev (fun d => d.instrIf c ok body) s = onDev (fun d => d.instr c body) s :=
  congrArg (onDev · s) (funext fun _ => Dev.instrIf_of hok _)

theorem laneW_pos (half : Bool) : 0 < laneW half := by cases half <;> decide

theorem laneW_mul_laneN (half : Bool) : laneW half * laneN half = 512 := by cases half <;> rfl

theorem Core.flag_none (k : Core) : k.flag VFlags.none = k := by
  rw [Core.flag, show VFlags.none.bits = 0#4 from rfl, BitVec.or_zero]

theorem Core.vrd_eq {k k' : Core} {x : RIx} (h : k.v = k'.v) : k.vrd x = k'.vrd x := by rw [Core.vrd, Core.vrd, h]

theorem Core.qrd_eq {k k' : Core} {x : QIx} (h : k.q = k'.q) : k.qrd x = k'.qrd x := by rw [Core.qrd, Core.qrd, h]

/-- `k'` differs from `k` in vector registers only. -/
def Core.OnlyVecs (k k' : Core) : Prop := k' = { k with v := k'.v }

theorem Core.OnlyVecs.refl (k : Core) : k.OnlyVecs k := rfl

theorem Core.OnlyVecs.vwr {k k' : Core} (h : k.OnlyVecs k') (r : RIx) (x : BitVec 512) : k.OnlyVecs (k'.vwr r x) :=
  congrArg (Core.vwr · r x) h

section
variable {s : State} {c : CoreId} {d : Dev} {n : Nat} {far : Bool} {i : Instr} {vd va vs vc vg : RIx} {qa : QIx} {rm : BitVec 2} {half : Bool}
  {steps : Nat} {f : Core → Core} {fl : VFlags} {val : BitVec 512}

theorem State.Ready.writesVecFlags (h : s.Ready c d n far) (hi : exec i s = onDev (fun d => d.instr c (regOut c steps f)) s)
    (hf : f (d.core c) = ((d.core c).vwr vd val).flag fl) :
    Completes i s (fun t => d.OnlyV t c (fun x => x == vd) fl.bits ∧ (t.core c).vrd vd = val) :=
  Completes.of_onDev hi (h.onlyV steps vd fl val f hf)

theorem State.Ready.writesVec (h : s.Ready c d n far) {g : Core → BitVec 512}
    (hi : exec i s = onDev (fun d => d.instr c (regOut c steps (fun k => k.vwr vd (g k)))) s) (hg : g (d.core c) = val) :
    Completes i s (fun t => d.OnlyV t c (fun x => x == vd) 0 ∧ (t.core c).vrd vd = val) := by
  subst hg
  exact h.writesVecFlags (fl := VFlags.none) hi (Core.flag_none _).symm

/-- A lane-wise instruction that does not saturate (R180). -/
theorem State.Ready.writesLanes (h : s.Ready c d n far) {g : Core → Nat → Int} {p : Nat → Int}
    (hi : exec i s = onDev (fun d => d.instr c (regOut c steps (fun k => k.vwr vd (fromLanes (laneW half) (laneN half) (g k))))) s)
    (hg : ∀ i, i < laneN half → g (d.core c) i % 2 ^ laneW half = p i % 2 ^ laneW half) :
    Completes i s (fun t => d.OnlyV t c (fun x => x == vd) 0 ∧
      ∀ i, i < laneN half → (laneU ((t.core c).vrd vd) (laneW half) i : Int) = p i % 2 ^ laneW half) := by
  refine Completes.mono (h.writesVec hi rfl) fun t ⟨honly, hv⟩ => ⟨honly, fun i hl => ?_⟩
  rw [hv, laneU_fromLanes_emod _ (Nat.le_of_eq (laneW_mul_laneN half)) hl]
  exact hg i hl

/-- An instruction at a ready core that changes vector registers, accumulators and VSTAT. -/
theorem State.Ready.regOut_vec (h : s.Ready c d n far) {v : Vector (BitVec 512) 32} {q : Vector (BitVec 1536) 8} {vst : BitVec 4}
    (hf : f (d.core c) = { d.core c with v := v, q := q, vstat := vst }) :
    let t := s.dev.instr c (regOut c steps f)
    d.Next t c ∧ (∀ x, (t.core c).rd x = (d.core c).rd x) ∧ (t.core c).v = v ∧ (t.core c).q = q ∧ (t.core c).vstat = vst := by
  have r := h.regOut_data steps f (by rw [hf]) (by rw [hf]) (by rw [hf]; exact ⟨rfl, rfl, rfl, rfl, rfl, rfl, rfl, rfl, rfl, rfl⟩)
    (by rw [hf])
  rwa [hf] at r

theorem State.Ready.writesVecAndClears (h : s.Ready c d n far) (hi : exec i s = onDev (fun d => d.instr c (regOut c steps f)) s)
    (hf : f (d.core c) = (((d.core c).vwr vd val).flag fl).qwr qa 0) :
    Completes i s (fun t => (∀ x, (t.core c).vrd x = if x = vd then val else (d.core c).vrd x) ∧
      (∀ x, (t.core c).qrd x = if x = qa then 0 else (d.core c).qrd x) ∧ (∀ x, (t.core c).rd x = (d.core c).rd x) ∧
      (t.core c).vstat = (d.core c).vstat ||| fl.bits ∧ d.Next t c) := by
  obtain ⟨hnext, hrd, hv, hq, hvs⟩ := h.regOut_vec (steps := steps) hf
  exact Completes.of_onDev hi ⟨fun x => (Core.vrd_eq hv).trans (Core.vrd_vwr (d.core c) vd x val),
    fun x => (Core.qrd_eq hq).trans (Core.qrd_qwr (d.core c) qa x 0), hrd, hvs, hnext⟩

theorem State.Ready.writesVecs (h : s.Ready c d n far) {k : Core} {may : RIx → Bool}
    (hi : exec i s = onDev (fun d => d.instr c (regOut c steps f)) s) (hf : f (d.core c) = k.flag fl) (hk : (d.core c).OnlyVecs k)
    (hmay : ∀ x, may x = false → k.vrd x = (d.core c).vrd x) :
    Completes i s (fun t => d.OnlyV t c may fl.bits ∧ ∀ x, (t.core c).vrd x = k.vrd x) := by
  obtain ⟨hnext, hrd, hv, hq, hvs⟩ :=
    h.regOut_vec (steps := steps) (v := k.v) (q := (d.core c).q) (hf.trans (congrArg (Core.flag · fl) hk))
  have vrd : ∀ x, ((s.dev.instr c (regOut c steps f)).core c).vrd x = k.vrd x := fun x => Core.vrd_eq hv
  exact Completes.of_onDev hi ⟨⟨hrd, fun x hx => (vrd x).trans (hmay x hx), fun x => Core.qrd_eq hq, hvs, hnext⟩, vrd⟩

/-! The register groups of the biquad and the ramp (R193, R196). -/

theorem eq_nextReg {r x : RIx} {n : Nat} (h : x.val = r.val + n) : x = nextReg r n :=
  Fin.ext (h.trans (Nat.mod_eq_of_lt (h ▸ x.isLt)).symm)

theorem nextReg_val {r : RIx} {n : Nat} (h : r.val % 4 = 0) (hn : n < 4) : (nextReg r n).val = r.val + n :=
  Nat.mod_eq_of_lt (by omega)

theorem inGroup_eq_false {r g : RIx} {n : Nat} (h : r.val < g.val ∨ g.val + n ≤ r.val) : inGroup r g n = false := by
  rw [inGroup, Bool.and_eq_false_iff, decide_eq_false_iff_not, decide_eq_false_iff_not]; omega

theorem biqOk_of (hr : rm ≠ 3) (hs : vs.val % 4 = 0) (hc : vc.val % 8 = 0) (hds : vd.val < vs.val ∨ vs.val + 4 ≤ vd.val)
    (hdc : vd.val < vc.val ∨ vc.val + 5 ≤ vd.val) : biqOk vd vs vc rm = true := by
  simp only [biqOk, bne_iff_ne.2 hr, hs, hc, inGroup_eq_false hds, inGroup_eq_false hdc]; rfl

theorem rampOk_of (hr : rm ≠ 3) (hg : vg.val % 4 = 0) (hd : vd.val < vg.val ∨ vg.val + 3 ≤ vd.val) : rampOk vd vg rm = true := by
  simp only [rampOk, bne_iff_ne.2 hr, hg, inGroup_eq_false hd]; rfl

/-! The biquad (R192-R194). -/

theorem Core.biqAcc_eq (k : Core) (va vs vc : RIx) :
    k.biqAcc va vs vc = fun i => 4 * (laneS (k.vrd vc) 32 i * laneS (k.vrd va) 32 i +
      laneS (k.vrd (nextReg vc 1)) 32 i * laneS (k.vrd vs) 32 i + laneS (k.vrd (nextReg vc 2)) 32 i * laneS (k.vrd (nextReg vs 1)) 32 i -
      laneS (k.vrd (nextReg vc 3)) 32 i * laneS (k.vrd (nextReg vs 2)) 32 i -
      laneS (k.vrd (nextReg vc 4)) 32 i * laneS (k.vrd (nextReg vs 3)) 32 i) := by
  funext i; exact Int.mul_comm ..

/-- The registers that VBIQ writes when its result is `y`: the delay line moves on by one sample (R192). -/
def Core.biqWrites (k : Core) (vd va vs : RIx) (y : BitVec 512) : Core :=
  ((((k.vwr (nextReg vs 1) (k.vrd vs)).vwr vs (k.vrd va)).vwr (nextReg vs 3) (k.vrd (nextReg vs 2))).vwr (nextReg vs 2) y).vwr vd y

theorem Core.biqWrites_onlyVecs (k : Core) (vd va vs : RIx) (y : BitVec 512) : k.OnlyVecs (k.biqWrites vd va vs y) :=
  (((((Core.OnlyVecs.refl k).vwr _ _).vwr _ _).vwr _ _).vwr _ _).vwr _ _

theorem Core.vrd_biqWrites (k : Core) (vd va vs x : RIx) (y : BitVec 512) :
    (k.biqWrites vd va vs y).vrd x =
      if x = vd then y else if x = nextReg vs 2 then y else if x = nextReg vs 3 then k.vrd (nextReg vs 2)
      else if x = vs then k.vrd va else if x = nextReg vs 1 then k.vrd vs else k.vrd x := by
  simp only [Core.biqWrites, Core.vrd_vwr]

/-- With the result outside the state's group, the four registers of the group and the result. -/
theorem Core.vrd_biqWrites_group (k : Core) (va : RIx) (y : BitVec 512) (hs : vs.val % 4 = 0)
    (hd : vd.val < vs.val ∨ vs.val + 3 < vd.val) :
    let k' := k.biqWrites vd va vs y
    k'.vrd vs = k.vrd va ∧ k'.vrd (nextReg vs 1) = k.vrd vs ∧ k'.vrd (nextReg vs 3) = k.vrd (nextReg vs 2) ∧
      k'.vrd (nextReg vs 2) = y ∧ k'.vrd vd = y := by
  have h1 := nextReg_val hs (show 1 < 4 by decide)
  have h2 := nextReg_val hs (show 2 < 4 by decide)
  have h3 := nextReg_val hs (show 3 < 4 by decide)
  have d0 : vs.val ≠ vd.val := by omega
  have d1 : vs.val + 1 ≠ vd.val := by omega
  have d3 : vs.val + 3 ≠ vd.val := by omega
  simp [Core.vrd_biqWrites, Fin.ext_iff, h1, h2, h3, d0, d1, d3]

/-- VBIQ writes values of the state before it (R193). -/
theorem State.Ready.vbiq (h : s.Ready c d n far) (ok : biqOk vd vs vc rm = true) (hr : rm.toNat < 3) :
    Completes (.vbiq c vd va vs vc rm) s (fun t =>
      d.OnlyV t c (fun x => x == vd || x == vs || x == nextReg vs 1 || x == nextReg vs 2 || x == nextReg vs 3)
        (narrowingFlags 32 31 rm.toNat ((d.core c).biqAcc va vs vc)) ∧
      ∀ x, (t.core c).vrd x =
        ((d.core c).biqWrites vd va vs (fromLanes 32 16 (fun i => narrowLane ((d.core c).biqAcc va vs vc i) 0 0 rm.toNat))).vrd x) := by
  rw [← narrowAll_zero_bits _ hr]
  refine h.writesVecs (onDev_instrIf ok _) rfl ((d.core c).biqWrites_onlyVecs ..) fun x hx => ?_
  simp only [Bool.or_eq_false_iff, beq_eq_false_iff_ne] at hx
  simp [Core.vrd_biqWrites, hx]

/-- VRAMP applies the gain before its update (R197). -/
theorem State.Ready.vramp (h : s.Ready c d n far) (ok : rampOk vd vg rm = true) (hr : rm.toNat < 3) :
    let f (i : Nat) : Int := laneS ((d.core c).vrd va) 32 i * laneS ((d.core c).vrd vg) 32 i * 4
    let g (i : Nat) : Int := rampGain (laneS ((d.core c).vrd vg) 32 i) (laneS ((d.core c).vrd (nextReg vg 1)) 32 i)
      (laneS ((d.core c).vrd (nextReg vg 2)) 32 i)
    Completes (.vramp c vd va vg rm) s (fun t => d.OnlyV t c (fun x => x == vd || x == vg) (narrowingFlags 32 31 rm.toNat f) ∧
      ∀ x, (t.core c).vrd x = if x = vd then fromLanes 32 16 (fun i => narrowLane (f i) 0 0 rm.toNat)
        else if x = vg then fromLanes 32 16 g else (d.core c).vrd x) := by
  intro f g
  rw [← narrowAll_zero_bits _ hr]
  refine Completes.mono (h.writesVecs (onDev_instrIf ok _) rfl (((Core.OnlyVecs.refl (d.core c)).vwr ..).vwr ..) fun x hx => ?_)
    fun t ht => ⟨ht.1, fun x => ?_⟩
  · simp only [Bool.or_eq_false_iff, beq_eq_false_iff_ne] at hx
    simp [Core.vrd_vwr, hx]
  · rw [ht.2, Core.vrd_vwr, Core.vrd_vwr]

end

/-! The obligations. -/

/-- Settles O16: each form writes its lanes (`State.Ready.writesLanes`) or the whole register, with the numbers of the lemma that its
case names. -/
theorem vectorLanes : Obligations.VectorLanes := by
  intro s c d n far h vd va vb half sh hsh
  have ok : laneShiftOk sh half = true := decide_eq_true hsh
  have halves : ∀ {i}, i < laneN half → i < laneN half / 2 + laneN half / 2 := by cases half <;> exact id
  simp only [List.forall_mem_cons, List.not_mem_nil, false_imp_iff, implies_true, and_true]
  refine ⟨⟨h.writesLanes rfl ?add, h.writesLanes rfl ?sub, h.writesLanes rfl ?min, h.writesLanes rfl ?max,
    h.writesLanes (onDev_instrIf ok _) ?slli, h.writesLanes (onDev_instrIf ok _) ?srli, h.writesLanes (onDev_instrIf ok _) ?srai,
    h.writesLanes rfl ?norm, h.writesLanes rfl ?zipl, h.writesLanes rfl ?ziph, h.writesLanes rfl ?uzpe, h.writesLanes rfl ?uzpo⟩,
    h.writesVec rfl rfl, h.writesVec rfl rfl, h.writesVec rfl rfl⟩
  case add => exact fun _ _ => rfl
  case sub => exact fun _ _ => rfl
  case min => exact fun _ _ => congrArg (· % _) (ite_lt_eq_min ..)
  case max => exact fun _ _ => congrArg (· % _) (ite_lt_eq_max ..)
  case slli => exact fun _ _ => by rw [Int.mul_emod, ← laneS_emod, ← Int.mul_emod]
  case srli => exact fun _ _ => rfl
  case srai => exact fun _ _ => rfl
  case norm => exact fun i _ => congrArg (fun m : Nat => (m : Int) % _) (signCount_laneS _ (laneW_pos half) i)
  case zipl => exact fun _ _ => congrArg (· % _) (laneS_interleave ..)
  case ziph => exact fun _ _ => congrArg (· % _) (laneS_interleave ..)
  case uzpe => exact fun _ hi => congrArg (· % _) (laneS_everySecond _ _ _ 0 (halves hi))
  case uzpo => exact fun _ hi => congrArg (· % _) (laneS_everySecond _ _ _ 1 (halves hi))

/-- Settles O21: both forms write `Core.narrowed` and set the flags of `narrowAll_bits`; VNRWC clears the accumulator after it has read
it. -/
theorem narrowing : Obligations.Narrowing := by
  intro s c d n far h vd qa fmt hi rm byReg sh hfmt hhi hrm hsh
  have ok : narrowOk fmt hi rm byReg sh = true := narrowOk_of hfmt hhi hrm hsh
  have hr := toNat_lt_three hrm
  dsimp only
  rw [← fmtW_eq, ← fmtShift_eq, ← narrowSh_eq]
  have written := (d.core c).narrowTo_eq vd qa (fmt := fmt.toNat) hi ((d.core c).narrowSh byReg sh) (rm := rm.toNat)
  have lanes := (d.core c).laneS_narrowed vd qa (fmt := fmt.toNat) hi ((d.core c).narrowSh byReg sh) hr
  have flags := narrowAll_bits (accLane ((d.core c).qrd qa)) fmt.toNat ((d.core c).narrowSh byReg sh) hr
  refine ⟨?keep, ?clear⟩
  case keep =>
    refine Completes.mono (h.writesVecFlags (onDev_instrIf ok _) written) fun t ⟨honly, hv⟩ => ?_
    rw [flags] at honly
    exact ⟨honly, fun i hl => hv ▸ lanes i hl⟩
  case clear =>
    refine Completes.mono (h.writesVecAndClears (onDev_instrIf ok _) (congrArg (Core.qwr · qa 0) written))
      fun t ⟨hv, hq, hrd, hvs, hnext⟩ => ?_
    rw [flags] at hvs
    refine ⟨fun i hl => ?_, ?_, fun x hx => ?_, fun x hx => ?_, hrd, hvs, hnext⟩
    · rw [hv, if_pos rfl]; exact lanes i hl
    · rw [hq, if_pos rfl]
    · rw [hq, if_neg hx]
    · rw [hv, if_neg hx]

/-- Settles O22: what VBIQ and VRAMP write (`State.Ready.vbiq`, `State.Ready.vramp`), read lane by lane in the registers of their groups. -/
theorem biquadAndRamp : Obligations.BiquadAndRamp := by
  intro s c d n far h vd va rm hrm
  have hr := toNat_lt_three hrm
  refine ⟨?biquad, ?ramp⟩
  case biquad =>
    intro vs vc x2 y1 y2 b1 b2 a1 a2 hvs hvc hx2 hy1 hy2 hb1 hb2 ha1 ha2 hds hdc
    rcases eq_nextReg hx2, eq_nextReg hy1, eq_nextReg hy2 with ⟨rfl, rfl, rfl⟩
    rcases eq_nextReg hb1, eq_nextReg hb2, eq_nextReg ha1, eq_nextReg ha2 with ⟨rfl, rfl, rfl, rfl⟩
    have ok : biqOk vd vs vc rm = true := biqOk_of hrm hvs hvc (by omega) (by omega)
    dsimp only
    rw [← Core.biqAcc_eq]
    refine Completes.mono (h.vbiq ok hr) fun t ⟨honly, hv⟩ => ?_
    obtain ⟨hs, hx1, hy2, hy1, hvd⟩ := (d.core c).vrd_biqWrites_group va _ hvs hds
    refine ⟨honly, (hv _).trans hs, (hv _).trans hx1, (hv _).trans hy2, ?_, fun i hl => ?_⟩
    · rw [hv, hv, hy1, hvd]
    · rw [hv, hvd, laneS_fromLanes_narrowLane _ hr hl, Core.biqAcc_eq]
  case ramp =>
    intro vg vi vt hvg hvi hvt hd
    rcases eq_nextReg hvi, eq_nextReg hvt with ⟨rfl, rfl⟩
    have ok : rampOk vd vg rm = true := rampOk_of hrm hvg (by omega)
    have hne : vg ≠ vd := by rintro rfl; omega
    dsimp only
    simp only [Int.mul_comm 4]
    refine Completes.mono (h.vramp ok hr) fun t ⟨honly, hv⟩ => ⟨honly, fun i hl => ⟨?result, ?gain⟩⟩
    case result => rw [hv, if_pos rfl, laneS_fromLanes_narrowLane _ hr hl]
    case gain =>
      rw [hv, if_neg hne, if_pos rfl, ← rampGain_eq]
      exact laneS_fromLanes 32 16 _ (by decide) (by decide) i hl (misfit_rampGain _ (misfit_laneS ..) (misfit_laneS ..))

end Sys2Proof.Machine
end

section
/-!
PROOFS. The vector loads and stores (R199-R204, R218) at a ready core, past the checks of their access.
-/
namespace Sys2Proof.Machine

/-- The lanes of a strided access are at w[ra] + i × w[rb] modulo 2^64 (R199). -/
theorem strided_eq (base stride : Word) (half : Bool) :
    strided base stride half = (List.range (64 / if half then 2 else 4)).map (fun i =>
      ⟨(base.toNat + i * stride.toNat) % 2 ^ 64, if half then 2 else 4, if half then 2 else 4⟩) := by
  have hn : laneN half = 64 / if half then 2 else 4 := by cases half <;> rfl
  have hw : laneW half / 8 = if half then 2 else 4 := by cases half <;> rfl
  have ha : ∀ i, (base + BitVec.ofNat 64 i * stride).toNat = (base.toNat + i * stride.toNat) % 2 ^ 64 := fun i => by
    rw [BitVec.toNat_add, BitVec.toNat_mul, BitVec.toNat_ofNat, Nat.mod_mul_mod, Nat.add_mod_mod]
  simp only [strided, hn, hw, ha]

/-- Core `c` of device `e`, which has made the accesses of an instruction that began at `d`, went on at the next instruction with all but
its vector registers and accumulators kept. -/
def Dev.VecWent (d e t : Dev) (c : CoreId) : Prop :=
  (∀ x, (t.core c).rd x = (e.core c).rd x) ∧ (t.core c).vstat = (e.core c).vstat ∧
    (t.core c).pc = (d.core c).pc + 4 ∧ (t.core c).astat = (e.core c).astat ∧ e.Kept t c

section
variable {s : State} {c : CoreId} {d : Dev} {n : Nat} {far : Bool} {i : Instr} {ra rb : RIx} {imm : BitVec 16} {half : Bool} {d1 e : Dev}
  {ps : List Part} {bs : List Byte} {it : Item} {is : List Item} {size elem : Nat} {r : RIx}

theorem Dev.Quiet.retire_vec (h : e.Quiet c) {x : Ret} (hx : x.next = (d.core c).pc + 4) (hd : x.dz = false) (ho : x.ov = false)
    {f : Core → Core} {v : Vector (BitVec 512) 32} {q : Vector (BitVec 1536) 8} (hf : f (e.core c) = { e.core c with v := v, q := q }) :
    let t := (e.modCore c f).retire c n far x
    d.VecWent e t c ∧ (t.core c).v = v ∧ (t.core c).q = q := by
  intro t
  have l := Dev.retire_regs e c n far f x h (by rw [hf]) (trapOf_noFlags hd ho _)
  obtain ⟨hrd, hv, hq, hvs, hpc, hastat⟩ := l.regs
  rw [hf] at hv hq hvs hastat
  have kept : e.Kept t c := l.kept (by rw [hf]; rfl) (by rw [hf]; exact ⟨rfl, rfl, rfl, rfl, rfl, rfl, rfl, rfl, rfl, rfl⟩)
  exact ⟨⟨fun y => (hrd y).trans (by rw [hf]; rfl), hvs, hpc.trans hx, hastat.trans (by simp [Ret.apply, hd, ho]), kept⟩, hv, hq⟩

theorem Dev.Quiet.retire_after (h : e.Quiet c) {x : Ret} (hx : x.next = (d.core c).pc + 4) (hd : x.dz = false) (ho : x.ov = false) :
    d.After e (e.retire c n far x) c 0 0 :=
  Dev.Settled.after (on := false) (size := 0) (ps := []) (h.retire_settled_zero n far hd ho 0) hx

/-- A contiguous vector load whose access is permitted and gives bytes (R199, R202). -/
theorem State.Ready.vecLoad (h : s.Ready c d n far) {put : Core → Nat → Core} (hi : exec i s = Machine.vecLoad c ra imm size elem put s)
    (hit : contiguous ((d.core c).rd ra + simm imm) size elem = it) (ha : d.access c .load none [it] = .ok d1 ps)
    (hl : d1.loadParts c false true (ps.flatMap (deviceChunks it)) = (e, .ok bs)) (hq : e.Quiet c)
    {v : Vector (BitVec 512) 32} {q : Vector (BitVec 1536) 8} (hp : put (e.core c) (leNat bs) = { e.core c with v := v, q := q }) :
    Completes i s (fun t => d.VecWent e t c ∧ (t.core c).v = v ∧ (t.core c).q = q) := by
  subst hit
  refine h.completes hi ?_
  simp only [Dev.withAccess, ha, hl]
  exact hq.retire_vec rfl rfl rfl hp

/-- A strided vector load whose access is permitted and gives bytes: it is never served by forwarding (R236). -/
theorem State.Ready.vlds (h : s.Ready c d n far) (his : strided ((d.core c).rd ra) ((d.core c).rd rb) half = is)
    (ha : d.access c .load none is = .ok d1 ps) (hl : d1.loadParts c false false ps = (e, .ok bs)) (hq : e.Quiet c) :
    Completes (.vlds c r ra rb half) s (fun t => d.VecWent e t c ∧
      (t.core c).v = ((e.core c).vwr r (BitVec.ofNat 512 (leNat bs))).v ∧ (t.core c).q = (e.core c).q) := by
  subst his
  refine h.completes rfl ?_
  simp only [Dev.withAccess, ha, hl]
  exact hq.retire_vec rfl rfl rfl rfl

/-- A contiguous vector store whose access is permitted and made (R199, R202). -/
theorem State.Ready.vecStore (h : s.Ready c d n far) {get : Core → Nat} (hi : exec i s = Machine.vecStore c ra imm size elem get s)
    (hit : contiguous ((d.core c).rd ra + simm imm) size elem = it) (ha : d.access c .store none [it] = .ok d1 ps)
    (hw : d1.storeParts c false (ps.flatMap (deviceChunks it)) (natLe size (get (d.core c))) = (e, none)) (hq : e.Quiet c) :
    Completes i s (fun t => d.After e t c 0 0) := by
  subst hit
  refine h.completes hi ?_
  simp only [Dev.withAccess, ha, hw]
  exact hq.retire_after rfl rfl rfl

/-- A strided vector store whose access is permitted and made, after the store buffer is emptied (R218). -/
theorem State.Ready.vsts (h : s.Ready c d n far) (his : strided ((d.core c).rd ra) ((d.core c).rd rb) half = is)
    (ha : d.access c .store none is = .ok d1 ps)
    (hw : (d1.sbFlush c).storeParts c true ps (natLe 64 ((d.core c).vrd r).toNat) = (e, none)) (hq : e.Quiet c) :
    Completes (.vsts c r ra rb half) s (fun t => d.After e t c 0 0) := by
  subst his
  refine h.completes rfl ?_
  simp only [Dev.withAccess, ha, hw]
  exact hq.retire_after rfl rfl rfl

end

/-- Settles O33: a load or store rule for each shape of access; `strided_eq` gives the lanes of VLDS and VSTS. -/
theorem vectorMemory : Obligations.VectorMemory := by
  intro s c d n far h r q ra rb imm half
  have hs := strided_eq ((d.core c).rd ra) ((d.core c).rd rb) half
  refine ⟨?vld, ?vqld, ?vlds, ?vst, ?vqst, ?vsts⟩
  case vld =>
    exact fun _ _ e _ ha hl hq =>
      Completes.mono (h.vecLoad (put := fun k x => k.vwr r (BitVec.ofNat 512 x)) rfl rfl ha hl hq rfl) fun t ⟨went, hv, hacc⟩ =>
        ⟨went, hacc, fun x => (Core.vrd_eq hv).trans (Core.vrd_vwr (e.core c) r x _)⟩
  case vqld =>
    exact fun _ _ e _ ha hl hq =>
      Completes.mono (h.vecLoad (put := fun k x => k.qwr q (BitVec.ofNat 1536 x)) rfl rfl ha hl hq rfl) fun t ⟨went, hv, hacc⟩ =>
        ⟨went, hv, fun x => (Core.qrd_eq hacc).trans (Core.qrd_qwr (e.core c) q x _)⟩
  case vlds =>
    exact fun _ _ e _ ha hl hq => Completes.mono (h.vlds hs ha hl hq) fun t ⟨went, hv, hacc⟩ =>
      ⟨went, hacc, fun x => (Core.vrd_eq hv).trans (Core.vrd_vwr (e.core c) r x _)⟩
  case vst => exact fun _ _ _ ha hw hq => h.vecStore (get := fun k => (k.vrd r).toNat) rfl rfl ha hw hq
  case vqst => exact fun _ _ _ ha hw hq => h.vecStore (get := fun k => (k.qrd q).toNat) rfl rfl ha hw hq
  case vsts => exact fun _ _ _ ha hw hq => h.vsts hs ha hw hq

end Sys2Proof.Machine
end
